-- ==== Sys2Proof/Word.lean ====
section
/-! DEFINITION. Byte and byte-string types. The helpers that read fields from bytes stand in Machine/Bits.lean. -/

namespace Sys2Proof

/-- One byte. -/
abbrev Byte := BitVec 8

/-- A byte string, first byte first. -/
abbrev Bytes := List Byte

/-- A 32-byte SHA-256 output string, in the byte order of FIPS 180-4 (R10). -/
abbrev Digest := List Byte

/-- A 32-bit word as the hash, the sampler and the FP32 encodings use it. -/
abbrev W32 := BitVec 32

/-- A 64-bit word. -/
abbrev W64 := BitVec 64

/-- What a DMA or flash read returned: `none` is a read that failed (R339). -/
abbrev ReadResult := Option Bytes

end Sys2Proof
end

