-- ==== Sys2Proof/Machine/Bits.lean ====
section
/-! DEFINITION. Byte strings as little-endian fields (R10), bit fields, and list positions. -/

namespace Sys2Proof.Machine

/-- The n low bytes of v, least significant first (R10). -/
def leBytes : Nat → Nat → Bytes
  | 0, _ => []
  | n + 1, v => BitVec.ofNat 8 v :: leBytes n (v / 256)

/-- The value of a little-endian byte string (R10). -/
def leNat : Bytes → Nat
  | [] => 0
  | b :: bs => b.toNat + 256 * leNat bs

/-- The value of a big-endian byte string. -/
def beNat (bs : Bytes) : Nat := leNat bs.reverse

/-- The n low bytes of v, most significant first. -/
def beBytes (n v : Nat) : Bytes := (leBytes n v).reverse

/-- n bytes of bs from offset off; bytes beyond the end read as zero. -/
def slice (bs : Bytes) (off n : Nat) : Bytes :=
  let part := (bs.drop off).take n
  part ++ List.replicate (n - part.length) 0

/-- The n-byte little-endian field of bs at offset off. -/
def rd (bs : Bytes) (off n : Nat) : Nat := leNat ((bs.drop off).take n)

/-- Whether n bytes of bs from offset off are all zero (R11). -/
def zeros (bs : Bytes) (off n : Nat) : Bool := ((bs.drop off).take n).all (· == 0)

/-- bs with d written over it at offset off, within its length. -/
def patch (bs : Bytes) (off : Nat) (d : Bytes) : Bytes :=
  bs.take off ++ d.take (bs.length - off) ++ bs.drop (off + d.length)

/-- n zero bytes. -/
def zeroBytes (n : Nat) : Bytes := List.replicate n 0

/-- bs padded with zero bytes to a multiple of n. -/
def padTo (bs : Bytes) (n : Nat) : Bytes := bs ++ zeroBytes ((n - bs.length % n) % n)

/-- The bits [hi:lo] of v. -/
def bits (v hi lo : Nat) : Nat := v / 2 ^ lo % 2 ^ (hi + 1 - lo)

/-- Bit i of v. -/
def bit (v i : Nat) : Bool := v / 2 ^ i % 2 == 1

/-- v with bit i set. -/
def setBit (v i : Nat) : Nat := if bit v i then v else v + 2 ^ i

/-- v with bit i clear. -/
def clearBit (v i : Nat) : Nat := if bit v i then v - 2 ^ i else v

/-- ceil(a / b). -/
def ceilDiv (a b : Nat) : Nat := if b = 0 then 0 else (a + b - 1) / b

/-- 1 for true. -/
def b2n (b : Bool) : Nat := if b then 1 else 0

/-- An n-bit two's complement field. -/
def signed (n v : Nat) : Int := if v < 2 ^ (n - 1) then (v : Int) else (v : Int) - (2 : Int) ^ n

/-- An integer as n bits, two's complement. -/
def toBits (n : Nat) (i : Int) : Nat := (i % (2 : Int) ^ n).toNat

/-- The ASCII bytes of a string. -/
def ascii (s : String) : Bytes := s.toList.map fun c => BitVec.ofNat 8 c.toNat

/-- The element of l at position i replaced by f of it. -/
def modAt {α : Type} (l : List α) (i : Nat) (f : α → α) : List α :=
  match l, i with
  | [], _ => []
  | a :: as, 0 => f a :: as
  | a :: as, i + 1 => a :: modAt as i f

/-- The value kept for key k in an association list, or d. -/
def lookupD (l : List (Nat × Nat)) (k d : Nat) : Nat :=
  match l.find? (fun e => e.1 == k) with
  | some e => e.2
  | none => d

/-- l with key k kept as v; a value equal to d is not listed. -/
def storeD (l : List (Nat × Nat)) (k v d : Nat) : List (Nat × Nat) :=
  let rest := l.filter fun e => e.1 != k
  if v == d then rest else rest ++ [(k, v)]

/-- Consecutive chunks of n elements. -/
def chunks {α : Type} (n : Nat) (l : List α) : List (List α) :=
  (List.range (ceilDiv l.length n)).map fun i => (l.drop (i * n)).take n

/-- A counter of w bits that saturates (R286, R336). -/
def satAdd (w a b : Nat) : Nat := min (a + b) (2 ^ w - 1)

/-- The sum of a list of Nat. -/
def sumNat (l : List Nat) : Nat := l.foldl (· + ·) 0

/-- Insertion of x into a list ordered by key, after its equals (a stable sort's step). -/
def insertBy {α : Type} (key : α → Nat) (x : α) : List α → List α
  | [] => [x]
  | y :: ys => if key x < key y then x :: y :: ys else y :: insertBy key x ys

/-- A stable sort by a Nat key, ascending. -/
def sortBy {α : Type} (key : α → Nat) (l : List α) : List α := l.foldl (fun acc x => insertBy key x acc) []

end Sys2Proof.Machine
end

