-- ==== Sys2Proof/Machine/Crypto.lean ====
section
/-! DEFINITION. The algorithms the spec names by their standards: SHA-256 (FIPS 180-4), HMAC and HKDF-Expand
(RFC 2104, RFC 5869), AES-256-GCM (FIPS 197, SP 800-38D) and CRC-64/XZ. -/

namespace Sys2Proof.Machine

/-! ### SHA-256 -/

/-- The round constants of FIPS 180-4. -/
def shaK : List W32 :=
  [0x428a2f98, 0x71374491, 0xb5c0fbcf, 0xe9b5dba5, 0x3956c25b, 0x59f111f1, 0x923f82a4, 0xab1c5ed5] ++
  [0xd807aa98, 0x12835b01, 0x243185be, 0x550c7dc3, 0x72be5d74, 0x80deb1fe, 0x9bdc06a7, 0xc19bf174] ++
  [0xe49b69c1, 0xefbe4786, 0x0fc19dc6, 0x240ca1cc, 0x2de92c6f, 0x4a7484aa, 0x5cb0a9dc, 0x76f988da] ++
  [0x983e5152, 0xa831c66d, 0xb00327c8, 0xbf597fc7, 0xc6e00bf3, 0xd5a79147, 0x06ca6351, 0x14292967] ++
  [0x27b70a85, 0x2e1b2138, 0x4d2c6dfc, 0x53380d13, 0x650a7354, 0x766a0abb, 0x81c2c92e, 0x92722c85] ++
  [0xa2bfe8a1, 0xa81a664b, 0xc24b8b70, 0xc76c51a3, 0xd192e819, 0xd6990624, 0xf40e3585, 0x106aa070] ++
  [0x19a4c116, 0x1e376c08, 0x2748774c, 0x34b0bcb5, 0x391c0cb3, 0x4ed8aa4a, 0x5b9cca4f, 0x682e6ff3] ++
  [0x748f82ee, 0x78a5636f, 0x84c87814, 0x8cc70208, 0x90befffa, 0xa4506ceb, 0xbef9a3f7, 0xc67178f2]

/-- The initial hash value of SHA-256. -/
def shaInit : List W32 :=
  [0x6a09e667, 0xbb67ae85, 0x3c6ef372, 0xa54ff53a, 0x510e527f, 0x9b05688c, 0x1f83d9ab, 0x5be0cd19]

/-- The message schedule as the last 16 words, newest first, extended n words: all words, newest first. -/
def shaExtend : Nat → List W32 → List W32
  | 0, w => w
  | n + 1, w =>
    let a := w.getD 1 0
    let b := w.getD 14 0
    let s1 := (a.rotateRight 17) ^^^ (a.rotateRight 19) ^^^ (a >>> 10)
    let s0 := (b.rotateRight 7) ^^^ (b.rotateRight 18) ^^^ (b >>> 3)
    shaExtend n ((s1 + w.getD 6 0 + s0 + w.getD 15 0) :: w)

/-- One round of SHA-256 on the eight working variables. -/
def shaRound (v : List W32) (kw : W32 × W32) : List W32 :=
  match v with
  | [a, b, c, d, e, f, g, h] =>
    let s1 := (e.rotateRight 6) ^^^ (e.rotateRight 11) ^^^ (e.rotateRight 25)
    let ch := (e &&& f) ^^^ ((~~~e) &&& g)
    let t1 := h + s1 + ch + kw.1 + kw.2
    let s0 := (a.rotateRight 2) ^^^ (a.rotateRight 13) ^^^ (a.rotateRight 22)
    let mj := (a &&& b) ^^^ (a &&& c) ^^^ (b &&& c)
    [t1 + (s0 + mj), a, b, c, d + t1, e, f, g]
  | v => v

/-- A big-endian 32-bit word of a block. -/
def beWord (bs : Bytes) (i : Nat) : W32 := BitVec.ofNat 32 (beNat ((bs.drop (4 * i)).take 4))

/-- One 64-byte block compressed into the hash state. -/
def shaBlock (h : List W32) (blk : Bytes) : List W32 :=
  let w0 := ((List.range 16).map (beWord blk)).reverse
  let w := (shaExtend 48 w0).reverse
  let v := (shaK.zip w).foldl shaRound h
  (h.zip v).map fun e => e.1 + e.2

/-- Whole blocks compressed in order; the fuel is the number of blocks. -/
def shaBlocks : Nat → List W32 → Bytes → List W32
  | 0, h, _ => h
  | n + 1, h, bs => shaBlocks n (shaBlock h (bs.take 64)) (bs.drop 64)

/-- The padding of FIPS 180-4 for a message of len bytes. -/
def shaPad (len : Nat) : Bytes := 0x80#8 :: (zeroBytes ((119 - len % 64) % 64) ++ beBytes 8 (8 * len))

/-- The digest of a state and the bytes left after its whole blocks, of a message of len bytes. -/
def shaFinish (h : List W32) (rest : Bytes) (len : Nat) : Digest :=
  let tail := rest ++ shaPad len
  (shaBlocks (tail.length / 64) h tail).flatMap fun w => beBytes 4 w.toNat

/-- SHA-256 (R10, R62). -/
def sha256 (bs : Bytes) : Digest := shaFinish shaInit bs bs.length

/-! ### HMAC and HKDF -/

/-- HMAC-SHA256. -/
def hmac (key msg : Bytes) : Digest :=
  let k0 := if key.length > 64 then sha256 key else key
  let k := k0 ++ zeroBytes (64 - k0.length)
  let ip := k.map (· ^^^ 0x36#8)
  let op := k.map (· ^^^ 0x5c#8)
  sha256 (op ++ sha256 (ip ++ msg))

/-- HKDF-Expand with SHA-256 for one output block of at most 32 bytes. -/
def hkdfExpand (prk info : Bytes) (len : Nat) : Bytes := (hmac prk (info ++ [0x01#8])).take len

/-! ### AES-256 and GCM -/

/-- Multiplication by x in GF(2^8) modulo x^8 + x^4 + x^3 + x + 1. -/
def xtime (b : Byte) : Byte := (b <<< 1) ^^^ (if b.msb then 0x1b#8 else 0#8)

/-- Multiplication in GF(2^8). -/
def gmul8 : Nat → Byte → Byte → Byte → Byte
  | 0, _, _, acc => acc
  | n + 1, a, b, acc => gmul8 n (xtime a) (b >>> 1) (if b.getLsbD 0 then acc ^^^ a else acc)

/-- a^(2^7 + 2^6 + … + 2), the inverse in GF(2^8), by square and multiply. -/
def ginv8 (a : Byte) : Byte :=
  let sq := fun x => gmul8 8 x x 0
  let a2 := sq a
  let a4 := sq a2
  let a8 := sq a4
  let a16 := sq a8
  let a32 := sq a16
  let a64 := sq a32
  let a128 := sq a64
  [a4, a8, a16, a32, a64, a128].foldl (fun acc x => gmul8 8 acc x 0) a2

/-- The S-box of FIPS 197. -/
def sbox (a : Byte) : Byte :=
  let b := ginv8 a
  b ^^^ b.rotateLeft 1 ^^^ b.rotateLeft 2 ^^^ b.rotateLeft 3 ^^^ b.rotateLeft 4 ^^^ 0x63#8

/-- Bytewise exclusive or. -/
def xorBytes (a b : Bytes) : Bytes := (a.zip b).map fun e => e.1 ^^^ e.2

/-- The AES-256 key schedule as 4-byte words, newest first. -/
def aesExpand : Nat → Nat → Byte → List Bytes → List Bytes
  | 0, _, _, w => w
  | n + 1, i, rcon, w =>
    let t := w.getD 0 []
    let t1 :=
      if i % 8 == 0 then
        xorBytes ((t.drop 1 ++ t.take 1).map sbox) [rcon, 0, 0, 0]
      else if i % 8 == 4 then t.map sbox else t
    aesExpand n (i + 1) (if i % 8 == 0 then xtime rcon else rcon) (xorBytes (w.getD 7 []) t1 :: w)

/-- The 15 round keys of AES-256, 16 bytes each. -/
def aesKeys (key : Bytes) : List Bytes :=
  let w0 := ((List.range 8).map fun i => slice key (4 * i) 4).reverse
  chunks 16 ((aesExpand 52 8 0x01#8 w0).reverse.flatten)

/-- ShiftRows of FIPS 197 on a column-major block. -/
def shiftRows (s : Bytes) : Bytes := (List.range 16).map fun i => s.getD ((i + 4 * (i % 4)) % 16) 0

/-- MixColumns of FIPS 197 on one column. -/
def mixColumn (c : Bytes) : Bytes :=
  (List.range 4).map fun i =>
    let a := c.getD i 0
    let b := c.getD ((i + 1) % 4) 0
    xtime a ^^^ (xtime b ^^^ b) ^^^ c.getD ((i + 2) % 4) 0 ^^^ c.getD ((i + 3) % 4) 0

/-- One AES-256 block encryption under the round keys. -/
def aesBlock (ks : List Bytes) (p : Bytes) : Bytes :=
  let s0 := xorBytes p (ks.getD 0 [])
  let mid := ((ks.drop 1).take 13).foldl
    (fun s k => xorBytes ((chunks 4 (shiftRows (s.map sbox))).flatMap mixColumn) k) s0
  xorBytes (shiftRows (mid.map sbox)) (ks.getD 14 [])

/-- Multiplication in GCM's GF(2^128), most significant bit first. -/
def gmul128 : Nat → BitVec 128 → BitVec 128 → BitVec 128 → BitVec 128
  | 0, _, _, z => z
  | n + 1, x, v, z =>
    let z := if x.msb then z ^^^ v else z
    let v' := (v >>> 1) ^^^ (if v.getLsbD 0 then 0xe1000000000000000000000000000000#128 else 0#128)
    gmul128 n (x <<< 1) v' z

/-- GHASH under h of a byte string of whole blocks. -/
def ghash (h : BitVec 128) (bs : Bytes) : BitVec 128 :=
  (chunks 16 bs).foldl (fun y b => gmul128 128 (y ^^^ BitVec.ofNat 128 (beNat b)) h 0) 0

/-- CTR-mode key stream applied to bs, from counter block iv ‖ ctr. -/
def aesCtr (ks : List Bytes) (iv : Bytes) (ctr : Nat) (bs : Bytes) : Bytes :=
  ((chunks 16 bs).zipIdx).flatMap fun e => xorBytes e.1 (aesBlock ks (iv ++ beBytes 4 (ctr + e.2)))

/-- The GCM tag of a ciphertext with associated data, 96-bit IV. -/
def gcmTag (ks : List Bytes) (iv aad ct : Bytes) : Bytes :=
  let h := BitVec.ofNat 128 (beNat (aesBlock ks (zeroBytes 16)))
  let s := ghash h (padTo aad 16 ++ padTo ct 16 ++ beBytes 8 (8 * aad.length) ++ beBytes 8 (8 * ct.length))
  xorBytes (beBytes 16 s.toNat) (aesBlock ks (iv ++ beBytes 4 1))

/-- AES-256-GCM encryption: ciphertext, then its 16-byte tag (R145). -/
def gcmSeal (key iv aad pt : Bytes) : Bytes :=
  let ks := aesKeys key
  let ct := aesCtr ks iv 2 pt
  ct ++ gcmTag ks iv aad ct

/-- AES-256-GCM decryption of ciphertext ‖ tag; none where the tag differs. -/
def gcmOpen (key iv aad box : Bytes) : Option Bytes :=
  let ks := aesKeys key
  let ct := box.take (box.length - 16)
  if box.length < 16 then none
  else if gcmTag ks iv aad ct == box.drop (box.length - 16) then some (aesCtr ks iv 2 ct)
  else none

/-! ### CRC-64/XZ -/

/-- One byte into the reflected CRC of ECMA-182. -/
def crcByte : Nat → W64 → W64
  | 0, c => c
  | n + 1, c => crcByte n ((c >>> 1) ^^^ (if c.getLsbD 0 then 0xC96C5795D7870F42#64 else 0#64))

/-- CRC-64/XZ of a byte string (R311, R234). -/
def crc64 (bs : Bytes) : W64 :=
  ~~~ (bs.foldl (fun c b => crcByte 8 (c ^^^ b.setWidth 64)) 0xFFFFFFFFFFFFFFFF#64)

end Sys2Proof.Machine
end

