-- ==== Sys2Proof/Config.lean ====
section
/-! DEFINITION. What the spec leaves open or takes from an outside standard: opaque constants without a body, so
that no proof can see a value. Each is named in notes/assumptions. -/

namespace Sys2Proof.Config

/-- A free number of ticks or other unstated count, one for each value of the state's free counter (log 3). -/
opaque freeNat : Nat → Nat

/-- A free byte string of the given length, one for each value of the state's free counter (log 3). -/
opaque freeBytes : Nat → Nat → List (BitVec 8)

/-- ECDSA P-384 verification (FIPS 186): public key, message representative, signature (R446, R462; log 4). -/
opaque ecdsaVerify : List (BitVec 8) → List (BitVec 8) → List (BitVec 8) → Bool

/-- The SEC1 public key of the device key pair derived from the device secret (R448; log 4). -/
opaque devicePublicKey : List (BitVec 8) → List (BitVec 8)

/-- The session id and export master secret of the SPDM session that a request sets up, where it completes a key exchange: request
bytes, free counter (R449, R452; log 4). -/
opaque spdmExchange : List (BitVec 8) → Nat → Option (Nat × List (BitVec 8))

/-- Whether a request, under the session with an id and secret, is its END_SESSION (R449; log 4). -/
opaque spdmEnds : List (BitVec 8) → Nat → List (BitVec 8) → Bool

/-- The bytes of an SPDM response that the spec leaves to DSP0274: request bytes, measurement blocks offered,
free counter (R396, R449; log 4). -/
opaque spdmResponse : List (BitVec 8) → List (Nat × List (BitVec 8)) → Nat → List (BitVec 8)

/-- What a RETIRED part puts in the response area for a request that it does not answer: request bytes, free counter (R463; log 27). -/
opaque spdmSilence : List (BitVec 8) → Nat → List (BitVec 8)

/-- The code of a port's last DOWN reason in its telemetry record, of which the spec gives no layout: reason, in the order of the
model's DownReason (R336, Table LNK-11; log 31). -/
opaque downReason : Nat → Nat

/-- Whether a blinking LED is lit: ARG, DTC. The spec gives the period and neither duty nor phase (13 Table MSG-5; log 83). -/
opaque ledLit : Nat → Nat → Bool

end Sys2Proof.Config
end

