-- ==== Sys2Proof/Syntax.lean ====
section
/-! DEFINITION. The commands: one constructor of Instr for each row of spec/opcode_table.json, in the table's order.
An operand is what comes from outside with the command: which unit it names, what a host or flash read returned, what
a sensor or a peer reported, or a choice of the part that the spec leaves to the sequencer. A mailbox message itself is
NOT an operand: it stands in State (the CMD slot or the fetched queue entries) and the command takes it from there. -/

namespace Sys2Proof

/-- Where a message of a function is taken from: its register mailbox, or submission queue q (R350). -/
inductive Via where
  | mailbox
  | sq (q : Nat)
  deriving DecidableEq, Repr

/-- Which register space a write without a row of its own goes to: BAR0, BAR2, or the SR-IOV control of PCIe
configuration space (R12, R344, R365; log 8). -/
inductive BarSel where
  | bar0
  | bar2
  | cfg
  deriving DecidableEq, Repr

/-- What scrub's ECC found in a frame (R254-R256): nothing, some corrected 64-byte words, or a word it cannot correct. -/
inductive EccRead where
  | clean
  | corrected (words : Nat)
  | uncorrectable (word : Nat)
  deriving DecidableEq, Repr

/-- Adapter A-side sums or B-side products of an AM_MAC (R45; Table CLU-12). -/
inductive AmSide where
  | aSide
  | bSide
  deriving DecidableEq, Repr

/-- What ECC corrected in the words a command read: how many words of Cluster Store, and how many words of each HBM frame, by frame
number (R208, R254). -/
structure Ecc where
  cs : Nat
  hbm : List (Nat × Nat)
  deriving DecidableEq, Repr

/-- The cluster whose command issues, and what ECC corrected in what the command read (R208, R254; log 31). -/
structure Reader where
  c : Nat
  ecc : Ecc
  deriving DecidableEq, Repr

/-- The handle of a park, and what ECC corrected in what its reads met (R144, R254; log 31). -/
structure ParkReads where
  h : Nat
  ecc : Ecc
  deriving DecidableEq, Repr

/-- The handle of a park one of whose writes failed, and the part it was of, where a page lacks PRESENT (R144, R348; log 81). -/
structure ParkFailure where
  h : Nat
  part : Option Nat
  deriving DecidableEq, Repr

/-- Attention of one KV head, with what the program declares for it (R54): layer and local head, the constant c, the TENSOR_IDs of
the score, normaliser and output anchors, the output format's code, and the positions the program masks. -/
structure AttendArgs where
  layer : Nat
  head : Nat
  scale : W32
  score : Nat
  norm : Nat
  out : Nat
  fmt : Nat
  masked : List Nat
  deriving DecidableEq, Repr

/-- RMS normalisation with what the program declares for it (R56): ν, ε, the TENSOR_ID of the sum's anchor, the row width n, and the
output format's code. -/
structure NormArgs where
  nu : W32
  eps : W32
  anchor : Nat
  width : Nat
  fmt : Nat
  deriving DecidableEq, Repr

/-- What a VU_OP runs: a run of VECTOR_OPS records from AUX on (R57, R213; where it ends is log 55), attention (R54) or RMS
normalisation (R56) (log 56). -/
inductive VuWork where
  | seq (records : Nat)
  | attend (a : AttendArgs)
  | norm (n : NormArgs)
  deriving DecidableEq, Repr

/-- A Noyldo message after its header is unpacked (Table LNK-6); the row that carries it fixes its TYPE. -/
structure LinkMsg where
  kind : Nat
  part : Nat
  destChannel : Nat
  destRank : Nat
  tag : Nat
  arg : Nat
  body : Bytes
  deriving DecidableEq, Repr

/-- What a peer's IDENT carries (R308). -/
structure IdentInfo where
  partNo : Nat
  revision : Nat
  groupId : Nat
  groupSize : Nat
  groupIndex : Nat
  port : Nat
  spare : Bool
  buffers : List Nat
  deriving DecidableEq, Repr

/-- What a STEER is for (R305, R306): a failed position onto S for good, a position onto S for its recalibration, or a position back. -/
inductive SteerAct where
  | replace
  | recal
  | back
  deriving DecidableEq, Repr

/-- A steer that the peer names: the position, what it is for, and whether the peer agrees to it or asks for it (R305, R306; log 19). -/
structure SteerTold where
  lane : Nat
  act : SteerAct
  agree : Bool
  deriving DecidableEq, Repr

/-- A lane that fails, and whether it has lost lock; otherwise its error ratio is what fails it (R305). -/
structure LaneLoss where
  lane : Nat
  lock : Bool
  deriving DecidableEq, Repr

/-- What the FEC decoder reports with a flit (R304): the symbols it corrected on lane positions 0-3 since the flit before, and which of
the codewords that hold a bit of the flit (0 the first, 1 the second) it could not correct. -/
structure FecInfo where
  corr : List Nat
  lost : List Nat
  deriving DecidableEq, Repr

/-- How a port training state ended (R307): how many of the five lanes are good, and whether one of them is left as
spare. -/
structure TrainInfo where
  goodLanes : Nat
  spare : Bool
  deriving DecidableEq, Repr

/-- The commands of the block, in the order of spec/opcode_table.json. -/
inductive Instr where
  | queueCreate (fn : Nat) (via : Via)
  | queueDelete (fn : Nat) (via : Via)
  | partitionCreate (fn : Nat) (via : Via) (desc : ReadResult)
  | partitionModify (fn : Nat) (via : Via) (desc : ReadResult)
  | partitionDisableDrain (fn : Nat) (via : Via)
  | partitionDisableAbort (fn : Nat) (via : Via)
  | modelLoad (fn : Nat) (via : Via) (desc : ReadResult)
  | modelLoadDone (p : Nat) (weights program : ReadResult)
  | modelUnload (fn : Nat) (via : Via)
  | linkSetGroup (fn : Nat) (via : Via)
  | linkSetPortEnable (fn : Nat) (via : Via)
  | linkSetPortDisable (fn : Nat) (via : Via)
  | linkSetPortRetrain (fn : Nat) (via : Via)
  | adapterRegister (fn : Nat) (via : Via)
  | adapterRegisterDone (p idx : Nat) (home : ReadResult)
  | adapterRetireDefer (fn : Nat) (via : Via)
  | adapterRetireForce (fn : Nat) (via : Via)
  | tenantSetCreate (fn : Nat) (via : Via)
  | tenantSetModify (fn : Nat) (via : Via)
  | tenantSetDelete (fn : Nat) (via : Via)
  | keyInstall (fn : Nat) (via : Via) (desc : ReadResult)
  | requestSubmit (fn : Nat) (via : Via) (desc : ReadResult)
  | requestCancel (fn : Nat) (via : Via)
  | convPark (fn : Nat) (via : Via)
  | convResume (fn : Nat) (via : Via) (desc : ReadResult)
  | convCondense (fn : Nat) (via : Via)
  | convDrop (fn : Nat) (via : Via)
  | capsuleExport (fn : Nat) (via : Via)
  | replayStart (fn : Nat) (via : Via) (capsule : ReadResult)
  | replayStatus (fn : Nat) (via : Via)
  | telemetryRead (fn : Nat) (via : Via)
  | accountingRead (fn : Nat) (via : Via)
  | pinmuxSet (fn : Nat) (via : Via)
  | pinmuxArmed (pin : Nat)
  | powerLimitSet (fn : Nat) (via : Via)
  | fwActivate (fn : Nat) (via : Via) (image : ReadResult)
  | fwActivateQuiesced
  | fwActivateTimeout
  | recover (fn : Nat) (via : Via)
  | recoveryVerifyDone (bad : List Nat)
  | recoveryTestDone (failed : Option Nat)
  | spdmTransport (fn : Nat) (via : Via) (req : ReadResult)
  | invalidOpcode (fn : Nat) (via : Via)
  | mailboxDoorbell (fn value : Nat)
  | sqTailWrite (fn q value : Nat)
  | cqHeadWrite (fn q value : Nat)
  | sqEntryFetch (fn q : Nat)
  | windowValidSet (d : Nat)
  | windowValidClear (d : Nat)
  | msixVectorUnmask (fn v : Nat)
  | logClear (value : Nat)
  | partitionReset (value : Nat)
  | dtcLoRead (fn : Nat)
  | dtcHiRead (fn : Nat)
  | registerWrite (fn : Nat) (bar : BarSel) (offset : Nat) (data : Bytes)
  | smbusPointer (ptr : Nat)
  | smbusRead
  | jtagDebugUnlock (pubkey response : Bytes)
  | jtagExtest (levels : List Bool)
  | pwrGoodRise
  | pllLock (dir0 dir1 : ReadResult)
  | pllLockTimeout
  | fwImageLoaded (slotA slotB : ReadResult)
  | hbmTrainingDone (failed : Option Nat)
  | bistDone (failed : Option Nat)
  | katDone (failed : Option Nat) (boardCfg : ReadResult)
  | stageTimeout (unit : Nat)
  | coldReset
  | perstNAssert
  | perstNDeassert
  | pcieLinkDown
  | pcieLinkUp
  | pcieHotReset
  | flrVf (n : Nat)
  | flrPf
  | flrDmaDrained (fn : Nat)
  | throttleNAssert
  | throttleNDeassert
  | stepSyncArmed
  | stepSyncCandidate (edge : Nat)
  | stepSyncMark
  | stepSyncOutPulse
  | syncLost
  | dtcSlew
  | thermalSample (cd : List Int) (hub : List Int)
  | thermalTripClear
  | vcoreRequestUpdate
  | vcoreHold (die : Nat)
  | vcoreHoldRelease (die : Nat)
  | domainUpDone (dom : Nat)
  | powerGovernorTick
  | permitGranted (req : Nat)
  | idleFreeze (p : Nat)
  | stepSyncPlan (p : Nat) (pieces : Bytes)
  | stepPlace (p : Nat)
  | maMac (c : Reader) (rows : List Nat)
  | amMac (c : Reader) (side : AmSide) (base : Nat) (rows : List Nat)
  | vuOp (c : Reader) (work : VuWork) (rows : List Nat)
  | load (c : Reader)
  | send (c : Nat)
  | bind (c : Nat)
  | semSignal (c : Nat)
  | semWait (c : Nat)
  | semAcquire (c : Nat)
  | semRelease (c : Nat)
  | routeLoad (c : Nat)
  | cheapPoint (c : Nat)
  | kvStage (c : Nat)
  | sample (c first : Nat)
  | stepEnd (c : Nat)
  | twinShadow (c : Nat) (faulty : Option Bytes)
  | channelDelivery (c ch : Nat)
  | probeLaunch (c ch : Nat)
  | probe (c ch origin originCh hops : Nat)
  | noRetire (c : Nat)
  | stepSyncReady (port p member : Nat) (entries : Bytes)
  | stepCommit (p : Nat)
  | stepSyncRelease (p : Nat) (body : Bytes)
  | stepKill (p cause : Nat)
  | killComplete (p : Nat)
  | stepSyncAbort (p reason tag : Nat)
  | stepSyncTurn (p arg : Nat)
  | turnPreempt (p : Nat)
  | shelveCheapPointClean (p : Nat)
  | shelveDone (p : Nat)
  | shelveTimeout (p : Nat)
  | shelveResume (p : Nat)
  | drainTimeout (p : Nat)
  | ledgerClose
  | cidxPoll (h : Nat) (journal : Bool)
  | cidxReadDone (h : Nat) (journal : Bool) (value : Option Nat)
  | ringIrqTicks (h : Nat)
  | vectorHoldoffEnd (fn v : Nat)
  | idleAction (h : Nat)
  | parkExpiry (h : Nat)
  | parkComplete (h : ParkReads)
  | parkAbandon (h : ParkFailure)
  | resumeComplete (h : Nat) (entry : ReadResult)
  | resumeFail (h : Nat) (entry : ReadResult)
  | dmaReadCompletion (tag : Nat) (data : ReadResult)
  | completionBarrierDone (tag : Nat) (ok : Bool)
  | adapterFetchStart (p : Nat)
  | adapterFetchDone (p idx : Nat) (home : ReadResult)
  | adapterEvictionDone (p idx : Nat)
  | sinterFrameSealed (frame : Nat) (lanesEqual : Bool)
  | streamLayerSealed (p slot : Nat) (data : ReadResult)
  | streamStalled (p slot : Nat)
  | scrubRead (frame : Nat) (ecc : EccRead) (digestEqual : Bool)
  | hubWatchdog (pair : Nat)
  | doubtContained (source unit detail part : Nat)
  | doubtUncontained (source unit detail part : Nat)
  | linkFlitReceived (port : Nat) (flit : Bytes) (fec : FecInfo)
  | nakResendTimeout (port : Nat)
  | ackCreditTimer (port : Nat)
  | tensorWrite (port : Nat) (m : LinkMsg)
  | placeReturn (port : Nat) (m : LinkMsg)
  | xpReduce (port : Nat) (m : LinkMsg)
  | semRelay (port : Nat) (m : LinkMsg)
  | mgmtForward (port : Nat) (m : LinkMsg) (desc : ReadResult)
  | ident (port : Nat) (info : IdentInfo)
  | ping (port : Nat)
  | echo (port dtc : Nat)
  | steer (port : Nat) (lane : SteerTold)
  | ledger (port : Nat) (txFlits txCredits : List Nat)
  | ledgerSend (port : Nat)
  | portLost (port lost seq : Nat)
  | disableReq (port : Nat)
  | disableAck (port : Nat)
  | creditReclaimReq (port : Nat) (m : LinkMsg)
  | creditReclaimAck (port : Nat) (m : LinkMsg)
  | holdReceived (port : Nat)
  | laneFailure (port : Nat) (lane : LaneLoss)
  | laneRecalStart (port lane : Nat)
  | laneRecalDone (port lane : Nat) (good : Bool)
  | portStateDone (port : Nat) (info : TrainInfo)
  | portStateTimeout (port : Nat)
  | portDown (port reason : Nat)
  | portDisableTimeout (port : Nat)
  | candidateDiscarded
  | peerLeavesHold (port : Nat)
  | flashPersistDone (ok : Bool)
  deriving DecidableEq, Repr

end Sys2Proof
end

