-- ==== Sys2Proof/Machine/State.lean ====
section
/-! DEFINITION. The state of one SWL-9400 / SWL-9300 package as plain data, and the state right after cold reset.
Each field's docstring gives its width, the chapter file and rule that name it, and its reset value; INVENTORY.md
repeats them. Counts and stamps are Nat and are kept below their width by the operation that advances them. -/

namespace Sys2Proof.Machine

/-- Why a step can stop with a fault. -/
inductive Fault where
  /-- Raised by every command whose operand names a function, port, partition, cluster, pin, die, power domain, HBM
  frame or window descriptor number that the part does not have (R13-R15, R237, R266, R301, R337, R344, R405, R502).
  Safe: no such command can reach the part. -/
  | noSuchUnit
  deriving DecidableEq, Repr

/-- Why a command has no meaning in the model. -/
inductive Refusal where
  /-- Raised by an arm of exec whose command has no meaning yet, by its mnemonic. Safe. -/
  | notModelled (mnemonic : String)
  deriving DecidableEq, Repr

/-! ### Small enumerations -/

/-- The two parts of the family (R13, R17). -/
inductive PartNo where
  | swl9400
  | swl9300
  deriving DecidableEq, Repr

/-- Package states of Table FLT-3. -/
inductive PkgState where
  | serving
  | entering
  | quarantined
  | recovering
  | uncontained
  deriving DecidableEq, Repr

/-- BOOT_STAGE values of Table BRU-5. -/
inductive BootStage where
  | rom
  | fwLoad
  | fwStart
  | hbmTrain
  | bist
  | kat
  | serving
  | fwActivating
  | noImage
  | pllFail
  | hbmFail
  | bistFail
  | katFail
  | stageTimeout
  deriving DecidableEq, Repr

/-- Debug lock states of Table TRU-5. -/
inductive DebugLock where
  | manufacturing
  | locked
  | debug
  | retired
  deriving DecidableEq, Repr

/-- Numerics levels (R51). -/
inductive Level where
  | nlX1
  | nlT1
  deriving DecidableEq, Repr

/-- Model slot roles (Table PAR-1). -/
inductive Role where
  | base
  | fallback
  | condenser
  | spare
  deriving DecidableEq, Repr

/-- End actions of a turn (R136). -/
inductive EndAction where
  | finish
  | hold
  | park
  | condense
  deriving DecidableEq, Repr

/-- Idle actions (R137). -/
inductive IdleAct where
  | park
  | condense
  | drop
  deriving DecidableEq, Repr

/-- Conversation states of Table CNV-2. -/
inductive Conv where
  | live
  | held
  | parking
  | parked
  | resuming
  | condensing
  | condensed
  deriving DecidableEq, Repr

/-- Terminal codes of Table GEY-4. -/
inductive Term where
  | complete
  | cancelled
  | withheld
  | numericInvalid
  | deviceFault
  | expired
  deriving DecidableEq, Repr

/-- Adapter directory states of Table ADP-6; PINNED(n) is `resident` with pins above 0. -/
inductive AdState where
  | absent
  | fetching
  | resident
  | evicting
  deriving DecidableEq, Repr

/-- Partition states (R297). -/
inductive PartState where
  | disabled
  | active
  | draining
  | aborting
  deriving DecidableEq, Repr

/-- Pre-emption setting (Table PAR-1). -/
inductive Preempt where
  | kill
  | shelve
  | auto
  deriving DecidableEq, Repr

/-- Port states of Table LNK-2. -/
inductive PortState where
  | disabled
  | detect
  | eq
  | align
  | linkInit
  | rtt
  | active
  | recovery
  | hold
  | down
  deriving DecidableEq, Repr

/-- Why a port is DOWN (R308-R310, R330). -/
inductive DownReason where
  | none
  | groupMismatch
  | rttExceeded
  | timeout
  | recoveryFailed
  | other (code : Nat)
  deriving DecidableEq, Repr

/-- Register mailbox STATE (Table HST-8). -/
inductive MboxState where
  | idle
  | busy
  | done
  deriving DecidableEq, Repr

/-- MF pin functions (Table MSG-5). -/
inductive PinFn where
  | gpioIn
  | gpioOut
  | uart2Tx
  | uart2Rx
  | fanTach
  | led
  | syncInAlt
  | syncOutAlt
  | thermTripOut
  deriving DecidableEq, Repr

/-- STEP_SYNC_IN filter states (R507). -/
inductive SyncFilter where
  | unarmed
  | armed
  | candidate (dtc : Nat)
  deriving DecidableEq, Repr

/-- Permit classes of Table PWR-3. -/
inductive PClass where
  | array4
  | array8
  | array16
  | amvu
  | hbmTrain
  | sinter
  | linkTrain
  | domainUp
  | standing
  deriving DecidableEq, Repr

/-- Element formats (Table CLU-15, Table NUM-1). -/
inductive Fmt where
  | fp32
  | bf16
  | fp16
  | e4m3
  | e5m2
  | mxfp4
  | mxe4m3
  | mxe5m2
  | mxint8
  | int8
  | int4
  deriving DecidableEq, Repr

/-! ### Messages, the bus and the host side -/

/-- Where a message came from, and so where its response goes (R350, R323). -/
inductive Origin where
  | mbox (fn : Nat)
  | queue (fn q cq : Nat)
  | link (port fn : Nat)
  | board
  deriving DecidableEq, Repr

/-- A taken message that may complete later (R351). -/
structure MsgCtx where
  /-- where the response goes; 12 R350 -/
  origin : Origin
  /-- 16 bits; 12 Table HST-6 -/
  opcode : Nat
  /-- 16 bits; 12 Table HST-6 -/
  cid : Nat
  /-- 64 bits, ACCEPT_DTC; 12 R350 -/
  accept : Nat
  /-- 16 bits, TENANT of the envelope; 12 Table HST-6 -/
  tenant : Nat
  /-- 8 bits, PARTITION of the envelope; 12 Table HST-6 -/
  part : Nat
  deriving DecidableEq, Repr

/-- What a write on the bus is (R168, R188, R357, R359, R370, R144, R363). -/
inductive BusKind where
  | ringRecord
  | ringPidx
  | jrnEntry
  | jrnPidx
  | cqEntry
  | cqPidx
  | msix
  | output
  | park
  deriving DecidableEq, Repr

/-- One posted write the part issued in a function's DMA space (R338). -/
structure BusWrite where
  fn : Nat
  kind : BusKind
  addr : Nat
  data : Bytes
  deriving DecidableEq, Repr

/-- What waits for a completion barrier (R361). -/
inductive BarrierFor where
  | park (h : Nat)
  | output (ctx : MsgCtx) (written : Nat) (body : Bytes)
  | quarantine
  | none
  deriving DecidableEq, Repr

/-- A completion barrier in flight (R361). -/
structure Barrier where
  tag : Nat
  fn : Nat
  why : BarrierFor
  deriving DecidableEq, Repr

/-- What a DMA read was issued for (R339). -/
inductive ReadFor where
  | cidx (h : Nat) (journal : Bool)
  | sqEntry (fn q : Nat) (tries : Nat)
  deriving DecidableEq, Repr

/-- A DMA read in flight (R339). -/
structure DmaRead where
  tag : Nat
  fn : Nat
  why : ReadFor
  deriving DecidableEq, Repr

/-- A function's register mailbox (Table HST-5, Table HST-8). -/
structure Mbox where
  /-- 64 bytes, CMD slot; 12 Table HST-5; reset zero bytes -/
  cmd : Bytes
  /-- 64 bytes, RSP slot; 12 Table HST-5; reset zero bytes -/
  rsp : Bytes
  /-- 16 bits, SEQ; 12 Table HST-8; reset 0 -/
  seq : Nat
  /-- 2 bits, STATE; 12 Table HST-8; reset IDLE -/
  st : MboxState
  /-- 1 bit, OVERRUN; 12 Table HST-8; reset 0 -/
  overrun : Bool
  /-- 1 bit, firmware has taken the message; 12 R353; reset 0 -/
  taken : Bool
  deriving DecidableEq, Repr

/-- A submission queue (R354-R358). -/
structure Sq where
  /-- 4 bits, QID; 12 Table HST-9 -/
  qid : Nat
  /-- 64 bits, BASE; 12 Table HST-9 -/
  base : Nat
  /-- LOG2, 4 to 12; 12 Table HST-9 -/
  log2 : Nat
  /-- CQID; 12 Table HST-9 -/
  cqid : Nat
  /-- 32 bits, SQ_TAIL; 12 R355 -/
  tail : Nat
  /-- 32 bits, SQ_HEAD, entries fetched; 12 R356 -/
  head : Nat
  /-- entries asked for by DMA and not yet returned; 12 R356 -/
  fetching : Nat
  /-- fetched and not taken, 64 B each; 12 R356 -/
  fetched : List Bytes
  /-- 1 bit, stopped after a failed entry read; 12 R358 -/
  stopped : Bool
  deriving DecidableEq, Repr

/-- A completion queue (R354-R357). -/
structure Cq where
  /-- 4 bits, QID; 12 Table HST-9 -/
  qid : Nat
  /-- 64 bits, BASE; 12 Table HST-9 -/
  base : Nat
  /-- LOG2, 4 to 12; 12 Table HST-9 -/
  log2 : Nat
  /-- 64 bits, CTRL_ADDR; 12 Table HST-9 -/
  ctrl : Nat
  /-- 16 bits, VECTOR; 12 Table HST-9 -/
  vector : Nat
  /-- 32 bits, PIDX; 12 R357 -/
  pidx : Nat
  /-- 32 bits, last valid CQ_HEAD; 12 R355 -/
  head : Nat
  /-- slots reserved for messages fetched and not completed; 12 R356 -/
  reserved : Nat
  deriving DecidableEq, Repr

/-- One MSI-X vector of a function (R362, R363, Table REG-3). -/
structure Vec where
  /-- 64 bits, message address; 18 Table REG-3; reset 0 (design choice, log 9) -/
  addr : Nat
  /-- 32 bits, message data; 18 Table REG-3; reset 0 (design choice, log 9) -/
  data : Nat
  /-- 1 bit, per-vector mask; 18 Table REG-3; reset 1 -/
  masked : Bool
  /-- 1 bit, pending; 12 R362, R363; reset 0 -/
  pending : Bool
  /-- 16 bits, HOLDOFF; 12 R362; reset 0 -/
  holdoff : Nat
  /-- end of the running holdoff, if one runs; 12 R362; reset none -/
  running : Option Nat
  deriving DecidableEq, Repr

/-- An SPDM session of a function (R449). -/
structure Session where
  /-- 32 bits, session id; 16 R449, R452 -/
  id : Nat
  /-- export master secret; 16 R452 -/
  secret : Bytes
  deriving DecidableEq, Repr

/-- One PCIe function (R337). -/
structure Fn where
  /-- register mailbox; 12 R352; reset as its fields -/
  mbox : Mbox
  /-- up to 16 submission queues; 12 R354; reset none -/
  sqs : List Sq
  /-- up to 16 completion queues; 12 R354; reset none -/
  cqs : List Cq
  /-- 128 vectors; 12 R362; reset as its fields -/
  vecs : List Vec
  /-- INT_CAUSE MBOX_DONE, 1 bit; 18 Table REG-3; reset 0 -/
  causeMbox : Bool
  /-- INT_CAUSE STATE_CHANGE, 1 bit; 18 Table REG-3; reset 0 -/
  causeState : Bool
  /-- INT_CAUSE SQ_FAULT, 1 bit; 18 Table REG-3; reset 0 -/
  causeSq : Bool
  /-- INT_CAUSE SQ_FAULTED, 16 bits; 18 Table REG-3; reset 0 -/
  sqFaulted : Nat
  /-- DTC_HI shadow, 32 bits when full; 18 R499; reset empty -/
  shadow : Option Nat
  /-- the function's SPDM session; 16 R449; reset none -/
  session : Option Session
  /-- pending SPDM_TRANSPORT; 13 R376; reset 0 -/
  spdmPending : Bool
  /-- stamp of the FLR in progress; 12 R364; reset none -/
  flr : Option Nat
  deriving DecidableEq, Repr

/-- A window descriptor of BAR2 (Table HST-4, Table HST-4a). -/
structure Win where
  /-- 9 bits, descriptor number 64 p + w; 12 R345 -/
  d : Nat
  /-- 64 bits, TABLE; 12 Table HST-4; reset 0 -/
  table : Nat
  /-- 64 bits, LENGTH; 12 Table HST-4; reset 0 -/
  length : Nat
  /-- 8 bits, PAGE_LOG2; 12 Table HST-4; reset 0 -/
  pageLog2 : Nat
  /-- 8 bits, OWNER; 12 Table HST-4; reset 0 -/
  owner : Nat
  /-- 8 bits, USE; 12 Table HST-4; reset 0 -/
  use : Nat
  /-- 1 bit, VALID; 12 Table HST-4a; reset 0 -/
  valid : Bool
  /-- 1 bit, ERROR; 12 Table HST-4a; reset 0 -/
  error : Bool
  /-- accesses issued and not completed; BUSY is this above 0; 12 R347; reset 0 -/
  outstanding : Nat
  deriving DecidableEq, Repr

/-- The host side of the endpoint. -/
structure HostIf where
  /-- 16 functions, PF first; 12 R337 -/
  fns : List Fn
  /-- descriptors written since reset, others as reset; 12 R345; reset none -/
  wins : List Win
  /-- VF Enable: VFs 1 to vfs are enabled; 12 R346, R365; reset 0 -/
  vfs : Nat
  /-- PCIe data link up; 12 R340; reset 0 -/
  linkUp : Bool
  /-- writes issued on the bus, in order; 12 R338, R359; reset none -/
  bus : List BusWrite
  /-- writes held while the link is down, in order; 12 R340; reset none -/
  held : List BusWrite
  /-- barriers in flight; 12 R361; reset none -/
  barriers : List Barrier
  /-- DMA reads in flight; 12 R339; reset none -/
  reads : List DmaRead
  /-- next read or barrier tag (model bookkeeping; 14-bit tags of Table HST-1 are not modelled); 12 R337; reset 0 -/
  nextTag : Nat
  /-- 64 bits, last acceptance DTC given; 12 R350; reset 0 -/
  lastAccept : Nat
  /-- function whose message firmware took last; 12 R356; reset none -/
  lastFn : Option Nat
  /-- SQ_TAIL_INVALID, 64 bits; 12 R355, 13 Table MSG-14; reset 0 -/
  sqTailInvalid : Nat
  /-- invalid CQ_HEAD writes; 12 R355; reset 0 -/
  cqHeadInvalid : Nat
  /-- 24 bits, SMBus pointer; 19 R513; reset 0 (design choice, log 9) -/
  smbPtr : Nat
  /-- 32 bytes, last SMBus block read; 19 R513; reset none (model's output) -/
  smbData : Bytes
  /-- value a DTC register read returned last; 18 R499; reset 0 (model's output) -/
  readData : Nat
  /-- 64 bits, messages forwarded to the leader and not answered, oldest first; 11 R323; reset none -/
  forwarded : List MsgCtx
  deriving DecidableEq, Repr

/-! ### Boot, identity, firmware -/

/-- The fields of a directory copy that the ROM uses (Table BRU-3). -/
structure Dir where
  copy : Nat
  active : Nat
  gen : Nat
  lenA : Nat
  lenB : Nat
  cfgLen : Nat
  deriving DecidableEq, Repr

/-- A firmware image accepted by FW_ACTIVATE (R482). -/
structure Staged where
  ctx : MsgCtx
  digest : Digest
  ifMajor : Nat
  ifMinor : Nat
  svn : Nat
  keySlot : Nat
  image : Bytes
  persist : Bool
  deriving DecidableEq, Repr

/-- Which of the steps of R482 an activation is in. -/
inductive FwPhase where
  | idle
  | persist
  | quiesce
  deriving DecidableEq, Repr

/-- A write to the boot flash (R468, R482). -/
structure FlashWrite where
  offset : Nat
  data : Bytes
  deriving DecidableEq, Repr

/-- Fuses, identity words and boot progress (Table REG-1, R447, R470). -/
structure Boot where
  /-- PART, fuse; 18 Table REG-1; reset SWL-9400 (design choice, log 9) -/
  part : PartNo
  /-- physical number of the disabled die, fuse; 18 Table REG-1; reset 0 (design choice, log 9) -/
  disabledDie : Nat
  /-- ROM_VERSION, 32 bits, fuse; 18 Table REG-1; reset 0 (design choice, log 9) -/
  romVersion : Nat
  /-- four fused key hashes, 32 B each; 16 R447; reset four zero digests (design choice, log 9) -/
  keyHashes : List Digest
  /-- REVOKED, 4 bits, fuse; 16 R447; reset 0 (design choice, log 9) -/
  revoked : Nat
  /-- MIN_SVN, 0-32, fuse; 16 R447; reset 0 (design choice, log 9) -/
  minSvn : Nat
  /-- fused device secret; 16 R448; reset empty (design choice, log 9) -/
  deviceSecret : Bytes
  /-- fused hash of the debug key; 16 R462; reset zero digest (design choice, log 9) -/
  debugKeyHash : Digest
  /-- debug lock state, 2 bits; 16 Table TRU-5; reset LOCKED -/
  lock : DebugLock
  /-- KEY_INSTALL refused until the next cold boot; 16 R462; reset 0 -/
  keyBar : Bool
  /-- PWR_GOOD, 1 bit; 19 R505; reset low -/
  pwrGood : Bool
  /-- PERST_N recognised as asserted; 19 R506; reset 0 (design choice, log 9) -/
  perst : Bool
  /-- root PLL locked; 17 R466; reset 0 -/
  pllLocked : Bool
  /-- the boot in progress is a cold boot; 17 R469; reset 1 -/
  cold : Bool
  /-- 64 bits, Device Time Counter; 14 R401; reset 0 -/
  dtc : Nat
  /-- BOOT_STAGE, 8 bits; 18 Table REG-1; reset 0x01 ROM -/
  stage : BootStage
  /-- BOOTING, 1 bit; 18 Table REG-4; reset 1 -/
  booting : Bool
  /-- directory copy selected by the ROM; 17 R468; reset none -/
  dir : Option Dir
  /-- RAN_SLOT, 1 bit; 18 Table REG-1; reset 0 -/
  ranSlot : Nat
  /-- FALLBACK_SLOT, 1 bit; 18 Table REG-1; reset 0 -/
  fallbackSlot : Bool
  /-- SVN of the running image, 8 bits; 18 Table REG-1; reset 0 (boot sets it) -/
  svn : Nat
  /-- KEY_SLOT of the running image, 2 bits; 18 Table REG-1; reset 0 (boot sets it) -/
  keySlot : Nat
  /-- IF_MAJOR, 8 bits; 18 Table REG-1; reset 0 -/
  ifMajor : Nat
  /-- IF_MINOR, 8 bits; 18 Table REG-1; reset 0 -/
  ifMinor : Nat
  /-- FW_GEN, 32 bits; 18 R490; reset 0 -/
  fwGen : Nat
  /-- DEVICE_ID, 32 B; 18 Table REG-1; reset zero -/
  deviceId : Digest
  /-- digest the alias key pair was derived from; 16 R448; reset none -/
  aliasFw : Option Digest
  /-- CUR_FW, 32 B, non-volatile; 17 R470; reset zero digest (design choice, log 9) -/
  curFw : Digest
  /-- PREV_FW, 32 B, non-volatile; 17 R470; reset zero digest (design choice, log 9) -/
  prevFw : Digest
  /-- BOOT_EPOCH, 32 bits, non-volatile; 16 R455; reset 0 (design choice, log 9) -/
  epoch : Nat
  /-- step of FW_ACTIVATE; 17 R482; reset idle -/
  fwPhase : FwPhase
  /-- image accepted by FW_ACTIVATE; 17 R482; reset none -/
  staged : Option Staged
  /-- writes made to the boot flash, in order; 17 R468, R482; reset none (model's output) -/
  flashOut : List FlashWrite
  /-- board configuration regions ignored; 17 R471; reset 0 -/
  cfgIgnored : Nat
  /-- sideband levels driven by boundary scan, if a pin-driving instruction is in force; 16 R461; reset none -/
  extest : Option (List Bool)
  deriving DecidableEq, Repr

/-! ### Faults -/

/-- A fault log entry (Table FLT-6). -/
structure LogEntry where
  seq : Nat
  source : Nat
  level : Nat
  part : Nat
  dtc : Nat
  unit : Nat
  detail : Nat
  fwHead : Bytes
  deriving DecidableEq, Repr

/-- The steps of recovery a package waits in (R433). -/
inductive RecPhase where
  | idle
  | cause
  | verify
  | test
  deriving DecidableEq, Repr

/-- Package state, first doubt and fault log (Table REG-4, R441). -/
structure Flt where
  /-- STATE, 3 bits; 18 Table REG-4; reset 0 SERVING -/
  pkg : PkgState
  /-- FIRST_DTC, 64 bits; 18 Table REG-4; reset 0 -/
  firstDtc : Nat
  /-- FIRST_SOURCE, 16 bits; 18 Table REG-4; reset 0 -/
  firstSource : Nat
  /-- FIRST_LEVEL, 8 bits; 18 Table REG-4; reset 0 -/
  firstLevel : Nat
  /-- FIRST_PARTITION, 8 bits; 18 Table REG-4; reset 0 -/
  firstPart : Nat
  /-- FIRST_UNIT, 32 bits; 18 Table REG-4; reset 0 -/
  firstUnit : Nat
  /-- DOUBT_COUNT, 32 bits; 18 Table REG-4; reset 0 -/
  doubtCount : Nat
  /-- fault log entries present, at most 256; 15 R441; reset none (kept by every reset) -/
  log : List LogEntry
  /-- LOG_COUNT, 32 bits; 15 R441; reset 0 (design choice, log 9; kept by every reset) -/
  logCount : Nat
  /-- LOG_CLEARED_AT, 32 bits; 18 R496; reset 0 (design choice, log 9; kept by every reset) -/
  logClearedAt : Nat
  /-- RESET_IGNORED, 32 bits; 18 R497; reset 0 -/
  resetIgnored : Nat
  /-- FAULT_N asserted, 1 bit; 19 R505; reset 0 -/
  faultN : Bool
  /-- QUIET_N asserted, 1 bit; 19 R505; reset 1 -/
  quietN : Bool
  /-- THERM_TRIP, 1 bit; 18 Table REG-4; reset 0 -/
  trip : Bool
  /-- the trip is on the hub die; 14 R422; reset 0 -/
  tripHub : Bool
  /-- DTC from which T_max has stayed below 100 C; 14 R422; reset none -/
  coolSince : Option Nat
  /-- host DMA allowed; 15 R428 item 7, R436; reset 1 -/
  dma : Bool
  /-- step of recovery; 15 R433; reset idle -/
  recStep : RecPhase
  /-- the pending RECOVER; 15 R433; reset none -/
  recCtx : Option MsgCtx
  deriving DecidableEq, Repr

/-! ### Pins, clocks and power -/

/-- One multi-function pin (R510-R512). -/
structure MfPin where
  /-- function; 19 R510; reset GPIO_IN -/
  fn : PinFn
  /-- 32 bits, ARG of the function; 13 Table MSG-5; reset 0 -/
  arg : Nat
  /-- function being armed with its ARG and the message that asked for it; 19 R511; reset none -/
  arming : Option (PinFn × Nat × MsgCtx)
  /-- arming ends; 19 R511; reset 0 -/
  armAt : Nat
  deriving DecidableEq, Repr

/-- Pins, time alignment and sideband filters. -/
structure Pins where
  /-- MF0-MF15; 19 R502; reset GPIO_IN each -/
  mf : List MfPin
  /-- STEP_SYNC_IN filter; 19 R507; reset UNARMED -/
  filter : SyncFilter
  /-- STEP_SYNC_OUT pulse end, while the pin is high; 14 R403; reset none -/
  syncOutUntil : Option Nat
  /-- remaining slew in ticks, its sign the direction; 14 R403; reset 0 -/
  slew : Int
  /-- DTC of the last slew step; 14 R403; reset 0 -/
  slewAt : Nat
  /-- SYNC_MISALIGN, 32 bits; 18 Table REG-5; reset 0 -/
  misalign : Nat
  /-- SYNC_LOST, 32 bits; 18 Table REG-5; reset 0 -/
  lost : Nat
  /-- DTC of the last mark, or of the start of its watch; 14 R403; reset 0 -/
  lastMark : Nat
  /-- the coarse set of the DTC has been made since LINK_SET GROUP; 14 R402; reset 0 -/
  coarseSet : Bool
  /-- filtered THROTTLE_N asserted; 14 R419; reset 0 (design choice, log 9) -/
  throttle : Bool
  /-- THROTTLE_TICKS, 64 bits; 14 R420; reset 0 -/
  throttleTicks : Nat
  /-- THROTTLE_COUNT, 32 bits; 14 R420; reset 0 -/
  throttleCount : Nat
  /-- T_max in whole C; 14 R421; reset 0 (design choice, log 9) -/
  tMax : Int
  /-- V_fuse of dies 0-3 in mV, fuse; 19 R517; reset 700 each (design choice, log 9) -/
  vFuse : List Nat
  /-- V_req of dies 0-3 in mV; 19 R517; reset 800 each (design choice, log 9) -/
  vReq : List Nat
  /-- HOLD of dies 0-3; 19 R518; reset 0 each -/
  vHold : List Bool
  deriving DecidableEq, Repr

/-- A permit request in the Governor's queue (R413). -/
structure PReq where
  req : Nat
  cls : PClass
  /-- DU asked for -/
  du : Nat
  /-- DU admitted so far -/
  admitted : Nat
  /-- arrival tick -/
  at_ : Nat
  deriving DecidableEq, Repr

/-- A permit held (R411). -/
structure Permit where
  req : Nat
  cls : PClass
  du : Nat
  /-- tick of the grant -/
  at_ : Nat
  /-- the grant has reached its requester -/
  delivered : Bool
  deriving DecidableEq, Repr

/-- The Power Governor and the power domains (R405-R418). -/
structure Gov where
  /-- LIMIT_W, 800-2,000; 14 R409; reset 1,600 -/
  limitW : Nat
  /-- G, total DU granted and admitted; 14 R413; reset 0 -/
  g : Nat
  /-- request queue in arrival order; 14 R413; reset none -/
  queue : List PReq
  /-- requests that arrived during this tick; 14 R413; reset none -/
  arrivals : List PReq
  /-- releases that arrived, in DU; 14 R413; reset 0 -/
  releases : Nat
  /-- permits held; 14 R411; reset none -/
  permits : List Permit
  /-- tick at which B_eff last fell, and the B_eff it is compared with; 14 R417; reset 0 -/
  bEffAt : Nat
  /-- B_eff at the last governor tick; 14 R410; reset 2,900 -/
  bEffLast : Nat
  /-- power domains that are on (227 domains); 14 R405; reset none of the switched ones -/
  on : List Nat
  /-- domains powering up; 14 R407; reset none -/
  rising : List Nat
  deriving DecidableEq, Repr

/-! ### Step programs, models and adapters -/

/-- An anchor declaration (Table CLU-5). -/
structure Anchor where
  tensor : Nat
  mode : Nat
  outFmt : Nat
  xp : Nat
  flags : Nat
  value : Int
  kDecl : Nat
  deriving DecidableEq, Repr

/-- An adaptation-point record (Table CLU-6). -/
structure AdaptPoint where
  layer : Nat
  point : Nat
  dIn : Nat
  dOut : Nat
  uAnchor : Nat
  outAnchor : Nat
  deriving DecidableEq, Repr

/-- A VECTOR_OPS record (R213). -/
structure VOp where
  op : Nat
  fmt : Nat
  dst : Nat
  src0 : Nat
  src1 : Nat
  deriving DecidableEq, Repr

/-- A cluster command (Table CLU-9). -/
structure Cmd where
  op : Nat
  queue : Nat
  flags : Nat
  wait : Nat
  signal : Nat
  aux : Nat
  a : Nat
  b : Nat
  d : Nat
  len : Nat
  fmt : Nat
  deriving DecidableEq, Repr

/-- A route entry (Table CLU-10). -/
structure Route where
  dest : Nat
  member : Nat
  ch : Nat
  port : Nat
  esc : Nat
  deriving DecidableEq, Repr

/-- A KV_MAP record (Table CLU-4). -/
structure KvEnt where
  rank : Nat
  layer : Nat
  head : Nat
  stream : Nat
  deriving DecidableEq, Repr

/-- A live range of a cheap point (Table CLU-8); off in 512-byte units, len in bytes. -/
structure CpRange where
  rank : Nat
  off : Nat
  len : Nat
  deriving DecidableEq, Repr

/-- A cheap point (Table CLU-8). -/
structure CheapPt where
  id : Nat
  layer : Nat
  live : Nat
  ranges : List CpRange
  deriving DecidableEq, Repr

/-- A cost record (Table CLU-4, R214). -/
structure Cost where
  twin : Nat
  fixed : Nat
  perRow : Nat
  perKpos : Nat
  perSeg : Nat
  perPass : Nat
  deriving DecidableEq, Repr

/-- A layout of a step program (Table CLU-7) with its layout sections; cmds holds one command stream per rank. -/
structure Layout where
  groupSize : Nat
  clusters : Nat
  stagingRows : Nat
  work : Nat
  workTwin : Nat
  phases : Nat
  sems : Nat
  kvLocal : Nat
  cmds : List (List Cmd)
  routes : List Route
  esc : List Route
  kvMap : List KvEnt
  cheap : List CheapPt
  cost : List Cost
  deriving DecidableEq, Repr

/-- A step program image as MODEL_LOAD reads it (R209). -/
structure Program where
  kind : Nat
  modelDigest : Digest
  ctxLimit : Nat
  layers : Nat
  vocab : Nat
  condDiv : Nat
  condMax : Nat
  kvHeads : Nat
  headWidth : Nat
  modelWidth : Nat
  anchors : List Anchor
  points : List AdaptPoint
  ops : List VOp
  layouts : List Layout
  deriving DecidableEq, Repr

/-- A tensor of a weights image (Table MEM-5). -/
structure Tensor where
  id : Nat
  layer : Nat
  fmt : Nat
  rows : Nat
  cols : Nat
  frame : Nat
  frames : Nat
  scaleGran : Nat
  deriving DecidableEq, Repr

/-- What a request binds to, whatever later happens to slots and roles (R273). -/
structure ModelKey where
  weights : Digest
  program : Digest
  level : Level
  deriving DecidableEq, Repr

/-- Who a frame belongs to, within the partition that has its granule (R133). -/
inductive Owner where
  | nobody
  | model (slot : Nat)
  | adapter (idx : Nat)
  | stream (h : Nat) (fallback : Bool)
  | condensed (h : Nat)
  | shelf
  deriving DecidableEq, Repr

/-- Frame classes of R133 other than KV quota, which is a count in each request. -/
inductive FrameClass where
  | free
  | model
  | pool
  | kv
  | condensed
  | shelf
  | transit
  deriving DecidableEq, Repr

/-- An HBM frame that is not simply free (R133, R243, R254-R256). -/
structure Frame where
  /-- frame number; 09 R237 -/
  no : Nat
  /-- class; 05 R133 -/
  cls : FrameClass
  /-- owner; 05 R133 -/
  owner : Owner
  /-- sealed; otherwise open if owned; 09 R243 -/
  sealed : Bool
  /-- written-granule map, 128 bits: granules are written once each in ascending order, so it is the number of them; 09 R243, R244 -/
  written : Nat
  /-- frame digest when sealed; 09 R243 -/
  digest : Digest
  /-- distinct corrected words seen in this scrub pass, kept once there are 3; 09 R256 -/
  corrected : Nat
  /-- unusable, or found bad while owned; 09 R255, 15 R434 -/
  unusable : Bool
  deriving DecidableEq, Repr

/-- A model in a slot (R272, R258-R265). -/
structure Model where
  /-- W_DIGEST, P_DIGEST, LEVEL; 13 Table MSG-7, R381 -/
  key : ModelKey
  /-- mode STREAM in force; 09 R260 -/
  stream : Bool
  /-- RESIDENT_LAYERS n; 09 R260 -/
  resident : Nat
  /-- UNLOADING; 10 R276 -/
  unloading : Bool
  /-- STREAM_STALLED; 09 R265 -/
  stalled : Bool
  /-- failed reads of each frame of the layer being streamed; none means none of any; 09 R265 -/
  tries : List Nat
  /-- frames of that layer read and sealed; 09 R262, R265 -/
  got : List Nat
  /-- layers the two halves of the ring hold sealed, 0xFFFF for a half that holds none; 09 R262 -/
  ring : List Nat
  /-- next streamed layer to fetch; 09 R262 -/
  nextLayer : Nat
  /-- recorded digests of the frames of each streamed layer, layer resident first; 09 R261 -/
  layerDigests : List (List Digest)
  /-- home of the weights image: window, offset, length; 09 R261 -/
  home : Nat × Nat × Nat
  /-- weights image bytes as sealed; 09 R258 -/
  image : Bytes
  /-- tensor table; 09 Table MEM-5 -/
  tensors : List Tensor
  /-- program; 08 R209 -/
  prog : Program
  /-- TENSOR_IDs re-run with XP96 after their XP64 bound failed; 02 R48 -/
  xp96 : List Nat
  deriving DecidableEq, Repr

/-- A registered adapter (R83, Table ADP-4). -/
structure Adapter where
  /-- partition; 03 R83 -/
  part : Nat
  /-- 16 bits, index; 03 R66 -/
  idx : Nat
  /-- OWNER, 0xFFFF is SHARED; 03 Table ADP-4 -/
  owner : Nat
  /-- WINDOW of the home; 13 Table MSG-9 -/
  window : Nat
  /-- OFFSET of the home; 13 Table MSG-9 -/
  offset : Nat
  /-- LENGTH; 13 Table MSG-9 -/
  length : Nat
  /-- registered digest; 03 R75 -/
  digest : Digest
  /-- companion; 03 R70 -/
  companion : Option Nat
  /-- HOME_SEALED; 03 Table ADP-4 -/
  homeSealed : Bool
  /-- MODEL_DIGEST; 03 Table ADP-2 -/
  model : Digest
  /-- directory state; 03 Table ADP-6 -/
  st : AdState
  /-- pins held; 03 R85 -/
  pins : Nat
  /-- RETIRING; 03 R99 -/
  retiring : Bool
  /-- RETIRING under FORCE; 13 R385 -/
  forced : Bool
  /-- BAD; 03 R90 -/
  bad : Bool
  /-- last-use time; 03 R83 -/
  lastUse : Nat
  /-- host read failures of the fetch; 03 R90 -/
  tries : Nat
  /-- the fetch is one of a plan-driven demand; 03 R96 -/
  byPlan : Bool
  /-- frames taken; 03 R84 -/
  frames : List Nat
  /-- image in the pool, when sealed; 03 R72 -/
  image : Bytes
  deriving DecidableEq, Repr

/-- An ADAPTER_REGISTER accepted and not complete (R78). -/
structure PendReg where
  part : Nat
  idx : Nat
  owner : Nat
  window : Nat
  offset : Nat
  length : Nat
  digest : Digest
  companion : Option Nat
  homeSealed : Bool
  ctx : MsgCtx
  deriving DecidableEq, Repr

/-! ### Tenants -/

/-- A tenant key generation (R383, R453). -/
structure TenantKey where
  gen : Nat
  key : Bytes
  /-- use counter; 16 R455 -/
  uses : Nat
  deriving DecidableEq, Repr

/-- A tenant (Table MSG-8, R103, Table PAR-3). -/
structure Tenant where
  /-- 16 bits, id; 13 Table MSG-8 -/
  id : Nat
  /-- partition; 04 R102 -/
  part : Nat
  /-- bound VF, 0 none; 12 R341 -/
  vf : Nat
  /-- RATE in force; 04 R103 -/
  rate : Nat
  /-- BURST in force; 04 R103 -/
  burst : Nat
  /-- RATE and BURST of a TENANT_SET that takes effect at the next freeze; 04 R101, R104 -/
  pend : Option (Nat × Nat)
  /-- WEIGHT; 10 R284 -/
  weight : Nat
  /-- default END_ACTION; 05 R136 -/
  endAction : EndAction
  /-- IDLE_ACTION; 05 R137 -/
  idleAction : IdleAct
  /-- IDLE_TICKS; 05 R137 -/
  idleTicks : Nat
  /-- PARK_OFFSET; 13 Table MSG-8 -/
  parkOffset : Nat
  /-- PARK_TTL; 13 Table MSG-8 -/
  parkTtl : Nat
  /-- PARK_STRIDE; 13 Table MSG-8 -/
  parkStride : Nat
  /-- BAL, signed 64 bits, bucket units; 04 R103 -/
  bal : Int
  /-- RES, signed 64 bits, bucket units; 04 R103 -/
  res : Int
  /-- refills minus debits since the last close, for R107; 04 R107 -/
  flow : Int
  /-- BAL at the last close; 04 R107 -/
  balAtClose : Int
  /-- engine-time count ET; 10 R284 -/
  et : Nat
  /-- key generations, newest first; 13 R383 -/
  keys : List TenantKey
  /-- ACCEPTED, 64 bits; 10 Table PAR-3 -/
  accepted : Nat
  /-- ENDED, 64 bits; 10 Table PAR-3 -/
  ended : Nat
  /-- QUEUE_TICKS, 64 bits; 10 Table PAR-3 -/
  queueTicks : Nat
  /-- PREEMPTED, 64 bits; 10 Table PAR-3 -/
  preempted : Nat
  /-- ENGINE_TICKS, 64 bits; 10 Table PAR-3 -/
  engineTicks : Nat
  /-- ROWS, 64 bits; 10 Table PAR-3 -/
  rows : Nat
  /-- TOKENS, 64 bits; 10 Table PAR-3 -/
  tokens : Nat
  /-- DEADLINE_MISSES; 13 Table MSG-14 -/
  dlMisses : Nat
  /-- SATURATED_ROWS; 13 Table MSG-14 -/
  satRows : Nat
  /-- NUMERIC_INVALID; 13 Table MSG-14 -/
  numInvalid : Nat
  /-- RING_PROTOCOL_ERRORS; 13 Table MSG-14 -/
  ringErrs : Nat
  deriving DecidableEq, Repr

/-! ### Requests -/

/-- A ring or a journal in host memory (Table GEY-1, R185). -/
structure Ring where
  /-- address of slot 0; 06 Table GEY-1 -/
  addr : Nat
  /-- LOG2 of the slots; 06 Table GEY-1 -/
  log2 : Nat
  /-- control block address; 06 Table GEY-1 -/
  ctrl : Nat
  /-- 32 bits, PIDX last written; 06 R162 -/
  pidx : Nat
  /-- 32 bits, last valid CIDX; 06 R166 -/
  cidx : Nat
  deriving DecidableEq, Repr

/-- Why a journal entry waits for space (R187). -/
inductive WaitKind where
  | opening
  | park
  | resume
  | interim
  deriving DecidableEq, Repr

/-- A journal entry not yet written (R187, R189); body is the payload from offset 8. -/
structure WaitEntry where
  kind : WaitKind
  ty : Nat
  len : Nat
  body : Bytes
  deriving DecidableEq, Repr

/-- A request's journal (R185, R193). -/
structure Journal where
  /-- ring of entries; 07 R184 -/
  ring : Ring
  /-- entries written, SEQ of the next; 07 R191 -/
  seq : Nat
  /-- TOKEN entries written; 07 R193 -/
  tokens : Nat
  /-- running SHA-256 state, eight words; 07 R193 -/
  sha : List W32
  /-- entries waiting for space, in cause order; 07 R187, R189 -/
  waiting : List WaitEntry
  /-- SEQ and DIGEST of the last SEAL; 07 R193 -/
  lastSeal : Option (Nat × Digest)
  deriving DecidableEq, Repr

/-- A KV stream (R125, R130). -/
structure Stream where
  /-- the KV bytes of each position, layer by layer (R145 order); 05 R124 -/
  kv : List Bytes
  /-- frames taken, in order; 05 R130 -/
  frames : List Nat
  deriving DecidableEq, Repr

/-- A parking record (R147). -/
structure ParkRec where
  offset : Nat
  entryLen : Nat
  expiresAt : Nat
  hdrDigest : Digest
  tag : Bytes
  keyGen : Nat
  deriving DecidableEq, Repr

/-- A park in progress (R144). -/
structure Parking where
  offset : Nat
  ttl : Nat
  /-- state to return to if abandoned -/
  from_ : Conv
  /-- PARKED_AT of the header; 05 Table CNV-5 -/
  stamp : Nat
  /-- the parts of the entry in order, with their padding; 05 Table CNV-4 -/
  parts : List Bytes
  /-- parts written -/
  written : Nat
  record : ParkRec
  /-- failed writes of the part it is about to write again; 05 R144 -/
  tries : Nat
  /-- the part they are of; 05 R144 -/
  failing : Nat
  /-- the barrier of R144 step 3 has completed -/
  barrier : Bool
  deriving DecidableEq, Repr

/-- A conversation message accepted and pending (R375), or an end or idle action that stands for one (R138). -/
inductive ConvMsg where
  /-- OFFSET, STRIDE, TTL, and the key generation current at acceptance (R455) -/
  | park (offset stride ttl keyGen : Nat)
  | condense
  /-- APPEND, FIRST_DL, TOK_DL and the acceptance DTC (R141) -/
  | resume (append : List Nat) (firstDl tokDl accept : Nat)
  deriving DecidableEq, Repr

/-- A condense in progress or kept (R153, R154, R528). -/
structure Cond where
  /-- P; 05 R528 -/
  p : Nat
  /-- S; 05 R528 -/
  s : Nat
  /-- condenser model; 05 R153 -/
  key : ModelKey
  /-- frames reserved; 05 R528 -/
  frames : List Nat
  /-- state vectors staged or sealed, padded to granules; 05 R153, R154 -/
  vecs : List Bytes
  /-- condensed-state digest, once committed; 05 R154 -/
  digest : Digest
  deriving DecidableEq, Repr

/-- Sampling and turn inputs of a request (Table MSG-10). -/
structure Sampling where
  seed : Nat
  temp : W32
  topK : Nat
  topP : W32
  ctxMax : Nat
  turnMax : Nat
  endAction : EndAction
  /-- END_ACTION was left at its default code; 05 R136, R137 -/
  endDefault : Bool
  stops : List Nat
  prompt : List Nat
  deriving DecidableEq, Repr

/-- How a request's pins stand (R85, R86). -/
inductive PinState where
  | none
  | provisional
  | durable
  deriving DecidableEq, Repr

/-- A replay's comparison state (R199-R201, Table CAP-10). -/
structure ReplayStat where
  /-- 32 bits, replay id; 13 R372 -/
  id : Nat
  /-- tenant of the replay; 07 R198 -/
  tenant : Nat
  /-- STATE: 0 QUEUED, 1 RUNNING, 2 MATCH, 3 DIVERGED, 4 ABORTED; 13 Table MSG-13 -/
  st : Nat
  /-- replays ended in the partition with this one; 13 R393 -/
  endNo : Nat
  compared : Nat
  divIndex : Option Nat
  divKind : Nat
  divSeq : Nat
  recTok : Nat
  recFlags : Nat
  recHead : Bytes
  obsTok : Nat
  obsFlags : Nat
  obsHead : Bytes
  termRep : Bool
  fwDiffers : Bool
  partDiffers : Bool
  unsealed : Bool
  deriving DecidableEq, Repr

/-- A replay running as a request (R199): its capsule's entries and the next of them to compare. -/
structure ReplayRun where
  entries : List Bytes
  next : Nat
  /-- entries up to and with the last SEAL -/
  sealedTo : Nat
  deriving DecidableEq, Repr

/-- A request and its conversation. -/
structure Req where
  /-- 64 bits, handle; 13 R372 -/
  h : Nat
  /-- submit sequence number; 01 R22 -/
  seq : Nat
  /-- partition; 13 R372 -/
  part : Nat
  /-- tenant; 13 R387 -/
  tenant : Nat
  /-- owner function of the ring; 06 R160 -/
  fn : Nat
  /-- this member owns the ring; 06 R160 -/
  ownsRing : Bool
  /-- Geyser ring; 06 R159 -/
  ring : Ring
  /-- VECTOR; 06 Table GEY-1 -/
  vector : Nat
  /-- IRQ_RECORDS; 06 Table GEY-1 -/
  irqRecords : Nat
  /-- IRQ_TICKS; 06 Table GEY-1 -/
  irqTicks : Nat
  /-- records since the last interrupt; 06 R171 -/
  irqPend : Nat
  /-- DTC of the first of them; 06 R171 -/
  irqFirst : Nat
  /-- capsule journal; 07 R184 -/
  jrn : Journal
  /-- request identity digest I; 07 R183 -/
  ident : Digest
  /-- current step digest D_t; 02 R63 -/
  digest : Digest
  /-- sampling and turn inputs; 13 Table MSG-10 -/
  samp : Sampling
  /-- adapter of slot 0; 03 R68 -/
  ad0 : Option Nat
  /-- adapter of slot 1; 03 R68 -/
  ad1 : Option Nat
  /-- companion in use of slot 0; 03 R70, R71 -/
  comp0 : Option Nat
  /-- companion in use of slot 1; 03 R70, R71 -/
  comp1 : Option Nat
  /-- bound base model; 10 R273 -/
  base : ModelKey
  /-- bound fallback model; 10 R273 -/
  fb : Option ModelKey
  /-- base stream; 05 R125 -/
  kvBase : Stream
  /-- fallback stream; 05 R125 -/
  kvFb : Stream
  /-- quota frames reserved and not taken; 05 R132 -/
  quota : Nat
  /-- tail slot held or reserved; 05 R126, R132 -/
  slot : Bool
  /-- conversation state; 05 Table CNV-2 -/
  conv : Conv
  /-- NEXT_INDEX; 06 Table GEY-3 -/
  next : Nat
  /-- input tokens not yet read, in order; 05 R141 -/
  input : List Nat
  /-- condensed vectors still to be prefilled; 05 R156 -/
  condIn : Nat
  /-- tokens emitted in this turn; 05 R136 -/
  turnTokens : Nat
  /-- fallback mode; 04 R116 -/
  fbMode : Bool
  /-- fallback tokens left before the return to base; 04 R116 -/
  fbLeft : Nat
  /-- first position of the catch-up, while one is due; 04 R116 -/
  catchUp : Option Nat
  /-- token ids of the positions processed, for a catch-up or a fallback catch-up; 04 R116 -/
  history : List Nat
  /-- admitted (its first step has committed); 04 R109 -/
  admitted : Bool
  /-- pins; 03 R85 -/
  pins : PinState
  /-- an adapter or companion it uses has gone RETIRING since its admission; 03 R86, R100 -/
  adGone : Bool
  /-- governing cancel: stamp and DETAIL; 06 R177 -/
  cancel : Option (Nat × Nat)
  /-- stamp of the first REQUEST_CANCEL; 06 R177, R181 -/
  cancelAt : Option Nat
  /-- FIRST_DL; 04 R114 -/
  firstDl : Nat
  /-- TOK_DL; 04 R114 -/
  tokDl : Nat
  /-- A, accept DTC for deadlines; 04 R114 -/
  accept : Nat
  /-- t_s; 04 R114 -/
  tStart : Nat
  /-- C of the step that emitted the last token; 04 R114 -/
  lastC : Nat
  /-- DTC at which REQUEST_SUBMIT completed; 04 R108 -/
  issuedAt : Nat
  /-- RESUMED for the next record; 06 Table GEY-4 -/
  resumed : Bool
  /-- CONDENSED; 06 Table GEY-4 -/
  condensed : Bool
  /-- SATURATED since the previous record; 06 Table GEY-4 -/
  saturated : Bool
  /-- the base input or the caller's deadline gives it a fallback stream; 05 R125 -/
  canFall : Bool
  /-- idle clock start; 05 R137 -/
  idleAt : Option Nat
  /-- QUEUE_TICKS clock start; 10 Table PAR-3 -/
  queuedAt : Option Nat
  /-- parking record; 05 R147 -/
  record : Option ParkRec
  /-- park in progress; 05 R144 -/
  parking : Option Parking
  /-- failed reads of the entry being resumed; 05 R149 -/
  resumeTries : Nat
  /-- accepted pause not yet in effect, or resume in progress; 05 R140, 13 R375 -/
  want : Option ConvMsg
  /-- the message that asked for it, if one did; 13 R375 -/
  wantCtx : Option MsgCtx
  /-- condense in progress or kept; 05 R153 -/
  cond : Option Cond
  /-- CAPSULE_EXPORT messages pending; 07 R195 -/
  exports : List MsgCtx
  /-- PAUSE_FAILURES; 13 Table MSG-14 -/
  pauseFails : Nat
  /-- RING_PROTOCOL_ERRORS; 13 Table MSG-14 -/
  ringErrs : Nat
  /-- JOURNAL_PROTOCOL_ERRORS; 13 Table MSG-14 -/
  jrnErrs : Nat
  /-- DEADLINE_MISSES; 13 Table MSG-14 -/
  dlMisses : Nat
  /-- terminal outcome fixed: TERM, DETAIL; 06 R173 -/
  outcome : Option (Term × Nat)
  /-- replay in place of ring and journal; 07 R199 -/
  replay : Option ReplayRun
  /-- replay id of a replay, 0 otherwise; 13 R372 -/
  replayId : Nat
  deriving DecidableEq, Repr

/-- The retained outcome of an ended request (R373). -/
structure Ended where
  h : Nat
  tenant : Nat
  term : Nat
  detail : Nat
  next : Nat
  /-- stamp of the first REQUEST_CANCEL; 06 R181 -/
  cancelAt : Option Nat
  /-- this member owned the ring; 06 R160 -/
  own : Bool
  entries : Nat
  tokens : Nat
  digest : Digest
  deriving DecidableEq, Repr

/-! ### Plans, attempts, clusters -/

/-- Class of a plan entry (R109). -/
inductive RowClass where
  | decode
  | prefill
  | new
  deriving DecidableEq, Repr

/-- Consecutive rows of one request in one invocation (R111, R112, Table LNK-8). -/
structure PlanRow where
  h : Nat
  first : Nat
  n : Nat
  /-- model slot of the invocation -/
  slot : Nat
  cls : RowClass
  emits : Bool
  shadow : Bool
  catchUp : Bool
  cond : Bool
  /-- fallback row: companions in place of adapters (R91) -/
  fb : Bool
  deriving DecidableEq, Repr

/-- A plan (R110, R111). -/
structure Plan where
  rows : List PlanRow
  fbOnly : Bool
  /-- T_pred; 04 R115 -/
  tPred : Nat
  /-- rows reserved, in tokens, by tenant; 04 R105 -/
  reserved : List (Nat × Nat)
  deriving DecidableEq, Repr

/-- An adapter segment (R91). -/
structure Seg where
  /-- model slot of the invocation -/
  inv : Nat
  slot : Nat
  idx : Nat
  rows : List Nat
  deriving DecidableEq, Repr

/-- KV rows staged by KV_STAGE (R127). -/
structure KvRow where
  slot : Nat
  layer : Nat
  head : Nat
  stream : Nat
  row : Nat
  body : Bytes
  deriving DecidableEq, Repr

/-- What SAMPLE found for an emitting row (R58, R61). -/
structure Sampled where
  h : Nat
  token : Nat
  /-- NUMERIC_INVALID detail, 0 if none -/
  invalid : Nat
  /-- digest of the logit row; 02 R63 -/
  rowDigest : Digest
  deriving DecidableEq, Repr

/-- A Twin Check pair (R232-R234). -/
structure TwinPair where
  /-- model slot of the invocation -/
  inv : Nat
  rank : Nat
  cmd : Nat
  shadow : Nat
  /-- ranges of the primary's Cluster Store the copy has still to read: first byte, length; 08 R233 -/
  inputs : List (Nat × Nat)
  /-- what the copy computes from those inputs; 08 R233 -/
  output : Bytes
  primaryDigest : Option Nat
  shadowDigest : Option Nat
  deriving DecidableEq, Repr

/-- One EAR (R37), with what a SCALE-DERIVED anchor still waits for (R42, R320). -/
structure EarEl where
  /-- 96 bits, S; 02 R37; reset 0 -/
  sum : Int
  /-- indicators: bit 0 OVF_POS, bit 1 OVF_NEG, bit 2 NAN; 02 R37; reset 0 -/
  ind : Nat
  /-- M over the base products so far; 02 R42; reset none -/
  scale : Option Int
  /-- exact products kept until the SCALE-DERIVED anchor is known: sign, m, x, base product; 02 R42; reset none -/
  terms : List (Bool × Nat × Int)
  deriving DecidableEq, Repr

/-- u_j of the adapter path of one row while its step runs (R45, R93): what the clusters' A-sides have contributed so far, for each
rank entry, and FP32 partials of other members under NL-T1 (R50). -/
structure USum where
  /-- model slot of the invocation -/
  inv : Nat
  /-- adaptation-point index -/
  point : Nat
  /-- adapter slot and index -/
  slot : Nat
  idx : Nat
  /-- plan row -/
  row : Nat
  els : List EarEl
  /-- member, rank entry, value -/
  parts : List (Nat × Nat × W32)
  deriving DecidableEq, Repr

/-- Phases of a step attempt (R19). -/
inductive Phase where
  /-- frozen, waiting for the plan on every member (phase 2) -/
  | plan
  /-- waiting for clusters (phase 4) -/
  | claim
  /-- granted and executing (phase 5) -/
  | run
  /-- readiness reported, waiting for the others or for the stamp (phase 6) -/
  | ready
  /-- killed, waiting for its releases -/
  | killing
  /-- running on to a cheap point (R293) -/
  | shelving
  /-- sintering live ranges (R293) -/
  | sintering
  /-- shelved -/
  | shelved
  deriving DecidableEq, Repr

/-- What follows a kill (R291, R292, R223, R48, R228). -/
inductive Rerun where
  | fresh
  | same
  | escape
  | none
  deriving DecidableEq, Repr

/-- A step attempt of a partition (R19, R106). -/
structure Attempt where
  /-- attempt number of the step; 01 R20 -/
  no : Nat
  phase : Phase
  plan : Plan
  /-- plan pieces held, of the count; 11 R322 -/
  pieces : List (Nat × Bytes)
  /-- escape mode; 08 R224 -/
  escape : Bool
  /-- protected from turn pre-emption; 10 R281 -/
  guarded : Bool
  /-- clusters held, in rank order; 10 R277 -/
  clusters : List Nat
  /-- ports of each bond fixed at phase 4; 11 R329 -/
  bonds : List Nat
  /-- DTC of the grant; 10 R281 -/
  grantedAt : Nat
  /-- DTC since which it has waited as a claim; 10 Table PAR-3 -/
  claimAt : Nat
  segs : List Seg
  /-- members whose READY the leader holds; 11 R322 -/
  readyFrom : List Nat
  staged : List KvRow
  sampled : List Sampled
  twins : List TwinPair
  /-- adapter A-side sums of the member; 02 R45, 03 R93 -/
  uSums : List USum
  /-- adapter shares read already: invocation, point, segment slot, adapter index, rank; 03 R98 -/
  amRead : List (Nat × Nat × Nat × Nat × Nat)
  /-- handles with a saturated row; 02 R44 -/
  satRows : List (Nat × Nat)
  /-- condenser vectors staged by this attempt; 05 R153 -/
  condVecs : List (Nat × Bytes)
  /-- deadline of shelving; 10 R294 -/
  shelveBy : Nat
  /-- cheap point aimed at; 10 R293 -/
  cheap : Option Nat
  /-- live bytes saved by range, in rank order and range order; 10 R293 -/
  shelf : List Bytes
  /-- shelf frames; 10 R293 -/
  shelfFrames : List Nat
  /-- invocations left from the shelved one on; 10 R295 -/
  shelfInvs : List Nat
  /-- ports that VC1 or VC2 messages of it went to; 11 R324 -/
  used : List Nat
  /-- reclaims outstanding, by port; 11 R324 -/
  reclaims : List Nat
  /-- what follows the kill; 10 R292 -/
  rerun : Rerun
  deriving DecidableEq, Repr

/-- A semaphore of a partition that is not plain FREE (R226). -/
inductive SemState where
  | armed
  | held
  | broken
  deriving DecidableEq, Repr

/-- A waiter of a semaphore (R227, R321). -/
structure SemWaiter where
  member : Nat
  rank : Nat
  tag : Nat
  /-- v of SEM_WAIT, none for SEM_ACQUIRE -/
  value : Option Nat
  deriving DecidableEq, Repr

/-- A semaphore (R226, Table CLU-13). -/
structure Sem where
  /-- 0-255; 08 R226 -/
  id : Nat
  st : SemState
  /-- 16 bits, VALUE; 08 R226 -/
  value : Nat
  /-- 32 bits, owner tag; 08 Table CLU-13 -/
  owner : Nat
  waiters : List SemWaiter
  deriving DecidableEq, Repr

/-- A message in an inbound channel (R217). -/
structure ChanMsg where
  /-- Table CLU-1 -/
  port : Nat
  /-- element base of the sideband, or CS offset -/
  base : Nat
  /-- payload: 64 bytes, or the values of an exact-partial reduce -/
  body : Bytes
  /-- XP kind of Table LNK-7 for port RFU, 0 otherwise -/
  xp : Nat
  /-- rank of the SEND in escape mode; 08 R224 -/
  esc : Nat
  /-- layer of the SEND; 08 R224 -/
  layer : Nat
  /-- sender: member, rank, outbound channel -/
  src : Nat × Nat × Nat
  deriving DecidableEq, Repr

/-- A BIND in force on a channel (R220). -/
structure Binding where
  port : Nat
  d : Nat
  left : Nat
  /-- signal tag of the BIND -/
  signal : Nat
  /-- messages delivered -/
  done : Nat
  deriving DecidableEq, Repr

/-- An inbound channel (R217, R220). -/
structure Chan where
  msgs : List ChanMsg
  binds : List Binding
  deriving DecidableEq, Repr

/-- A command in a queue (R206). -/
structure QCmd where
  cmd : Cmd
  /-- position in the rank's command stream (R232) -/
  idx : Nat
  /-- route phase it belongs to (R218) -/
  phase : Nat
  /-- layer it belongs to (Table CLU-9) -/
  layer : Nat
  /-- messages placed by a SEND, and consumed at their destination -/
  sent : Nat
  /-- its wait tag has been taken (it has issued) -/
  issued : Bool
  /-- a probe is out for its head message (R222) -/
  probed : Bool
  deriving DecidableEq, Repr

/-- An EAR set at a destination offset (Table CLU-12 MA_MAC). -/
structure Ear where
  /-- D, in 512-byte units -/
  d : Nat
  /-- anchor TENSOR_ID -/
  tensor : Nat
  /-- rows of the set -/
  rows : Nat
  /-- columns of the set -/
  cols : Nat
  /-- elements, row by row -/
  els : List EarEl
  /-- NL-T1 partials received: member, first element, FP32 values; 02 R50 -/
  parts : List (Nat × Nat × List W32)
  /-- members whose SCALE_MAX values have been heard; 11 R320 -/
  scaleFrom : List Nat
  /-- members this one's SCALE_MAX values have been sent to; 11 R320 -/
  scaleSent : List Nat
  /-- plan rows of the set's tile rows; 02 R44 -/
  planRows : List Nat
  deriving DecidableEq, Repr

/-- A message sent to a remote channel whose places have not been returned (R319). -/
structure Unret where
  /-- outbound channel -/
  ch : Nat
  /-- layer and ESC_RANK of its SEND; 08 R224 -/
  layer : Nat
  esc : Nat
  /-- places it took -/
  n : Nat
  /-- sent before the ROUTE_LOAD in force -/
  old : Bool
  deriving DecidableEq, Repr

/-- A wait-for probe on the die fabric, at the destination of a blocked local channel (R222). -/
structure Probe where
  /-- rank and inbound channel it has reached -/
  rank : Nat
  ch : Nat
  origin : Nat
  originCh : Nat
  hops : Nat
  deriving DecidableEq, Repr

/-- A compute cluster (R205-R208, R270). -/
structure Cluster where
  /-- cluster number; 00 R14 -/
  no : Nat
  /-- partition and rank; 10 R277 -/
  holder : Option (Nat × Nat)
  /-- model slots of the invocations from the running one on; 04 R112 -/
  invs : List Nat
  /-- Cluster Store, 4 MiB, sparse; 08 R208, 10 R270 -/
  cs : List Host.Cell
  /-- scoreboard tags above 0; 08 R207 -/
  tags : List (Nat × Nat)
  /-- command queues 0-3; 08 R206 -/
  queues : List (List QCmd)
  /-- TWIN queue: invocation, rank and command index of each shadow; 08 R206 -/
  twinQ : List (Nat × Nat × Nat)
  /-- commands the MA, AM and VU have issued since the TWIN queue last had a slot of theirs; 08 R233 -/
  twinTurns : List Nat
  /-- output of the last shadow, in the twin area; 08 R233 -/
  twinArea : Bytes
  /-- commands of the stream not yet queued; 08 R206 -/
  todo : List QCmd
  /-- route registers 0-15; 08 R218 -/
  routes : List (Nat × Route)
  /-- route phase loaded; 08 R218 -/
  phase : Nat
  /-- inbound channels holding a message or a binding; 08 R217 -/
  chans : List (Nat × Chan)
  /-- messages to remote channels whose places have not come back, oldest first; 11 R319 -/
  unret : List Unret
  /-- EAR sets open; 02 R36 -/
  ears : List Ear
  /-- the two halves of the adapter staging carve-out; 03 R94 -/
  halves : List Bytes
  /-- bytes delivered to an operand port, by port code; 08 Table CLU-1 -/
  ports : List (Nat × Bytes)
  /-- layers completed; 10 R293 -/
  layers : Nat
  /-- DTC of the last retirement; 08 R225 -/
  lastRetire : Nat
  /-- at a CHEAP_POINT while shelving; 10 R293 -/
  atCheap : Option Nat
  /-- STEP_END of the last invocation reached; 08 Table CLU-12 -/
  finished : Bool
  deriving DecidableEq, Repr

/-! ### Partitions -/

/-- The modifiable and fixed items of a partition (Table PAR-1). -/
structure Items where
  /-- GROUPS; 10 Table PAR-1 -/
  groups : Nat
  /-- HBM_BASE; 10 Table PAR-1 -/
  hbmBase : Nat
  /-- HBM_COUNT; 10 Table PAR-1 -/
  hbmCount : Nat
  /-- GROUP_SIZE; 10 Table PAR-1 -/
  groupSize : Nat
  /-- SHARING is TIME; 10 Table PAR-1 -/
  time : Bool
  /-- QUANTUM; 10 Table PAR-1 -/
  quantum : Nat
  /-- PRIORITY is DEADLINE; 10 Table PAR-1 -/
  deadline : Bool
  /-- DECAY; 10 Table PAR-1 -/
  decay : Nat
  /-- ACCOUNTING is FULL; 10 Table PAR-1 -/
  full : Bool
  /-- PREEMPT; 10 Table PAR-1 -/
  preempt : Preempt
  /-- ROW_BUDGET; 04 Table STP-1 -/
  rowBudget : Nat
  /-- CHUNK; 04 Table STP-1 -/
  chunk : Nat
  /-- FB_TOKENS; 04 Table STP-1 -/
  fbTokens : Nat
  /-- TWIN; 08 R231 -/
  twin : Nat
  /-- TAIL, bytes; 05 R126 -/
  tail : Nat
  /-- STAGE, bytes; 03 R94 -/
  stage : Nat
  /-- POOL, frames; 10 Table PAR-1 -/
  pool : Nat
  /-- RATE and BURST of the four regulators RD, WR, LX, DMA; 10 Table PAR-4 -/
  rates : List (Nat × Nat)
  deriving DecidableEq, Repr

/-- A MODEL_LOAD pending (R381, R274). -/
structure Load where
  ctx : MsgCtx
  slot : Nat
  /-- slot that receives the image (SPARE for a swap-in) -/
  into : Nat
  stream : Bool
  level : Level
  keepFree : Nat
  wDigest : Digest
  pDigest : Digest
  /-- home of the weights: window, offset, length -/
  wHome : Nat × Nat × Nat
  /-- home of the program: window, offset, length -/
  pHome : Nat × Nat × Nat
  /-- swap-in sealed, waiting for the freeze instant -/
  ready : Bool
  /-- MODE_USED, RESIDENT_LAYERS, FRAMES for the response -/
  result : Nat × Nat × Nat
  deriving DecidableEq, Repr

/-- A PARTITION_DISABLE or PARTITION_RESET in progress (R297-R299, R481). -/
structure Disable where
  stamp : Nat
  /-- s + DRAIN_TICKS under DRAIN -/
  deadline : Option Nat
  /-- this member has finished, and waits for the others (R300) -/
  done : Bool
  ctxs : List MsgCtx
  deriving DecidableEq, Repr

/-- Granules handed to the Sinter Engine and not yet written (R128, R129, R244): a frame, and how many of its granules are written when
they are. -/
structure Run where
  frame : Nat
  upto : Nat
  /-- layer of the KV page they belong to -/
  layer : Option Nat
  deriving DecidableEq, Repr

/-- A partition (R266). -/
structure Part where
  /-- state; 10 R297; reset DISABLED -/
  st : PartState
  /-- items in force; 10 Table PAR-1; reset as Table PAR-1's defaults (unused while DISABLED) -/
  items : Items
  /-- items of a MODIFY that take effect at the next freeze; 10 R267; reset none -/
  pendItems : Option Items
  /-- levels of the four regulators RD, WR, LX, DMA, signed bytes; 10 R287; reset 0 each -/
  levels : List Int
  /-- roles of slots 0-3; 10 R272; reset BASE FALLBACK CONDENSER SPARE -/
  roles : List Role
  /-- models of slots 0-3; 10 R272; reset none -/
  slots : List (Option Model)
  /-- step serial s; 01 R20; reset 0 -/
  serial : Nat
  /-- freeze instant awaited by an idle partition; 04 R108; reset none -/
  freezeAt : Option Nat
  /-- previous freeze instant; 04 R104; reset 0 -/
  lastFreeze : Nat
  /-- the step attempt; 01 R19; reset none -/
  attempt : Option Attempt
  /-- the previous step was fallback-only; 04 R117; reset 0 -/
  lastFbOnly : Bool
  /-- next attempt is protected from turn pre-emption; 10 R281; reset 0 -/
  protectNext : Bool
  /-- ticks that earlier holding intervals of the step's attempts took; 10 R284; reset 0 -/
  stepHeld : Nat
  /-- a grant of the leader of its TIME set that could not be applied yet; 10 R282; reset 0 -/
  turn : Bool
  /-- Sinter runs handed over, in order; 05 R129, 09 R244; reset none -/
  handed : List Run
  /-- place of its last grant among all grants of clusters; 10 R280; reset 0 -/
  grantNo : Nat
  /-- handle serial, 48 bits; 13 R372; reset 0 -/
  handles : Nat
  /-- replay-id serial, 24 bits; 13 R372; reset 0 -/
  replays : Nat
  /-- submit sequence number; 01 R22; reset 0 -/
  submits : Nat
  /-- retained outcomes, newest first; 13 R373; reset none -/
  outcomes : List Ended
  /-- replay status kept, newest first; 13 R393; reset none -/
  replayStats : List ReplayStat
  /-- replays ended in this partition; 13 R393; reset 0 -/
  replayEnds : Nat
  /-- MODEL_LOAD pending; 13 R376; reset none -/
  load : Option Load
  /-- disable in progress; 10 R297; reset none -/
  disable : Option Disable
  /-- PARTITION_RESET in progress (register); 17 R481; reset 0 -/
  resetting : Bool
  /-- the reset waits: for QUARANTINED, or for the leader's relay; 17 R481; reset false -/
  resetWait : Bool
  /-- semaphores not FREE; 08 R226; reset none -/
  sems : List Sem
  /-- wait-for probes on the die fabric; 08 R222; reset none -/
  probes : List Probe
  /-- fetch demands waiting, in queue order: adapter, plan-driven; 03 R96; reset none -/
  fetchQ : List (Nat × Bool)
  /-- the fetch at the head of the queue has run out of victims, until the next ledger close; 03 R87 -/
  fetchWait : Bool
  /-- STEPS, 64 bits; 10 Table PAR-3; reset 0 -/
  steps : Nat
  /-- KILLS, 64 bits; 10 Table PAR-3; reset 0 -/
  kills : Nat
  /-- SHELVES, 64 bits; 10 Table PAR-3; reset 0 -/
  shelves : Nat
  /-- DOWNGRADES, 64 bits; 10 Table PAR-3; reset 0 -/
  downgrades : Nat
  /-- TURN_WAIT, 64 bits; 10 Table PAR-3; reset 0 -/
  turnWait : Nat
  /-- ROUTE_DEADLOCKS; 13 Table MSG-14; reset 0 -/
  deadlocks : Nat
  /-- XP64_RERUNS; 13 Table MSG-14; reset 0 -/
  xpReruns : Nat
  /-- CS_CORRECTED; 13 Table MSG-14; reset 0 -/
  csCorrected : Nat
  /-- TWIN_PAIRS; 13 Table MSG-14; reset 0 -/
  twinPairs : Nat
  /-- TWIN_SHADOWED; 13 Table MSG-14; reset 0 -/
  twinShadowed : Nat
  deriving DecidableEq, Repr

/-! ### The Noyldo link -/

/-- What waits in a virtual channel's transmit queue. -/
structure TxMsg where
  vc : Nat
  /-- PART of its header -/
  part : Nat
  bytes : Bytes
  /-- its first flit has been sent -/
  begun : Bool
  deriving DecidableEq, Repr

/-- A DATA flit kept for replay (R315). -/
structure TxFlit where
  seq : Nat
  vc : Nat
  bytes : Bytes
  deriving DecidableEq, Repr

/-- Per-VC link state (R313, R334). -/
structure VcState where
  /-- credits held toward the peer; 11 R313; reset 0 -/
  credits : Nat
  /-- partition of each flit sent whose credit has not come back, oldest first; 08 R230; reset none -/
  outBy : List Nat
  /-- receive buffer flits in use; 11 R313; reset 0 -/
  rxUsed : Nat
  /-- credits freed and not returned; 11 R313; reset 0 -/
  owed : Nat
  /-- DTC of the oldest of them; 11 R334; reset 0 -/
  owedAt : Nat
  /-- payload stream not yet a whole message; 11 R317; reset none -/
  stream : Bytes
  /-- whole messages not yet processed, with TYPE and the flits each completes; 11 R317; reset none -/
  msgs : List (LinkMsg × Nat × Nat)
  /-- TX_FLITS, 48 bits; 11 R334; reset 0 -/
  txFlits : Nat
  /-- RX_CREDITS, 48 bits; 11 R334; reset 0 -/
  rxCredits : Nat
  /-- RX_FLITS, 48 bits; 11 R334; reset 0 -/
  rxFlits : Nat
  /-- TX_CREDITS, 48 bits; 11 R334; reset 0 -/
  txCredits : Nat
  deriving DecidableEq, Repr

/-- A lane position's counters (Table LNK-11). -/
structure Lane where
  /-- FEC_CORR_SYMBOLS, 32 bits; 11 Table LNK-11; reset 0 -/
  corr : Nat
  /-- FEC_UNCORR_CODEWORDS, 32 bits; 11 Table LNK-11; reset 0 -/
  uncorr : Nat
  /-- STEERS, 32 bits; 11 Table LNK-11; reset 0 -/
  steers : Nat
  /-- RECALS, 32 bits; 11 Table LNK-11; reset 0 -/
  recals : Nat
  /-- RECAL_PAUSED, 32 bits; 11 Table LNK-11; reset 0 -/
  paused : Nat
  /-- the lane is failed; 11 R305; reset 0 -/
  failed : Bool
  /-- codewords with corrected symbols of the last 2^30 symbols, each with its count; 11 R305; reset none -/
  errs : List (Nat × Nat)
  deriving DecidableEq, Repr

/-- A Noyldo port (R301, R307). -/
structure Port where
  /-- state of Table LNK-2; 11 R307; reset DISABLED -/
  st : PortState
  /-- why it is DOWN; 11 Table LNK-11; reset none -/
  reason : DownReason
  /-- the five lanes, positions 0-3 and S; 11 R301; reset as its fields -/
  lanes : List Lane
  /-- a healthy spare is available; 11 R305; reset 0 -/
  spare : Bool
  /-- position steered onto S; 11 R305; reset none -/
  steered : Option Nat
  /-- position being recalibrated; 11 R306; reset none -/
  recal : Option Nat
  /-- positions that have had their turn of recalibration since S had its; 11 R306; reset none -/
  turned : List Nat
  /-- steer asked of the peer and not yet agreed; 11 R305; reset none -/
  asked : Option (Nat × SteerAct)
  /-- steer agreed, due at the next superframe received; 11 R305; reset none -/
  due : Option (Nat × SteerAct)
  /-- position this transmitter sends on S from a flit of `wire` on, in order; 11 R305; reset none -/
  txSteers : List (Nat × Option Nat)
  /-- DTC at which the present attempt of the state began; 11 R307; reset 0 -/
  since : Nat
  /-- DTC at which an enabled port leaves DISABLED or DOWN; 17 R472; reset none -/
  startAt : Option Nat
  /-- DTC up to which a port that a warm reset found in use sends HOLD; 17 R480; reset 0 -/
  holdUntil : Nat
  /-- state that RECOVERY returns to; 11 R310; reset ACTIVE -/
  back : PortState
  /-- flits received since ALIGN, by which codewords and superframes are counted; 11 R303; reset 0 -/
  rxCount : Nat
  /-- flits of `wire` before the present framing; 11 R303; reset 0 -/
  txStart : Nat
  /-- last codeword that could not be corrected; 11 R304; reset none -/
  lostCw : Option Nat
  /-- largest RTT measured, ticks; 11 R309; reset 0 -/
  rtt : Nat
  /-- DTC of PINGs out; 11 R309; reset none -/
  pings : List Nat
  /-- round trips measured; 11 R309; reset 0 -/
  echoes : Nat
  /-- CREDIT_LIMITED; 11 R309; reset 0 -/
  limited : Bool
  /-- peer's IDENT; 11 R308; reset none -/
  peer : Option IdentInfo
  /-- next SEQ to send, 12 bits; 11 R314; reset 0 -/
  txSeq : Nat
  /-- next SEQ expected, 12 bits; 11 R314; reset 0 -/
  rxSeq : Nat
  /-- replay buffer, at most 512; 11 R315; reset none -/
  replay : List TxFlit
  /-- messages waiting for flits, in send order per VC; 11 R312; reset none -/
  txq : List TxMsg
  /-- flits put on the wire, in order (model's output); 11 R311; reset none -/
  wire : List Bytes
  /-- partition whose VC1 or VC2 message was taken last from its egress queue; 10 R285; reset none -/
  served : Option Nat
  /-- VC1 is due before VC2 in their alternation; 11 R312; reset 0 -/
  vc1Next : Bool
  /-- waiting for a NAKed SEQ; 11 R315; reset 0 -/
  naking : Bool
  /-- accepted DATA flits not reported; 11 R314; reset 0 -/
  unacked : Nat
  /-- times the oldest SEQ was replayed in a row; 11 R310; reset 0 -/
  sameReplays : Nat
  /-- DTC of RECOVERY entries of the last second; 11 R310; reset none -/
  recoveries : List Nat
  /-- VC0-VC3; 11 R312; reset as its fields -/
  vcs : List VcState
  /-- burst-train permit held; 11 R316; reset 0 -/
  permit : Bool
  /-- VC1 and VC2 flits sent in the present train, at most 4,096; 11 R316; reset 0 -/
  train : Nat
  /-- LINK_SET DISABLE in progress: its message and the DTC the last attempt stopped; 11 R332; reset none -/
  leaving : Option (MsgCtx × Nat)
  /-- DISABLE_REQ sent; 11 R332; reset 0 -/
  disableSent : Bool
  /-- partition and owner tag of reclaims open on the receiver; 11 R324; reset none -/
  reclaimRx : List (Nat × Nat)
  /-- HOLD ordered sets are being sent; 11 R333; reset 0 -/
  holding : Bool
  /-- CRC_FAIL_DATA, 32 bits; 11 Table LNK-11; reset 0 -/
  crcData : Nat
  /-- CRC_FAIL_CTRL, 32 bits; 11 Table LNK-11; reset 0 -/
  crcCtrl : Nat
  /-- NAK_SENT, 32 bits; 11 Table LNK-11; reset 0 -/
  nakSent : Nat
  /-- NAK_RECEIVED, 32 bits; 11 Table LNK-11; reset 0 -/
  nakRecv : Nat
  /-- FLITS_REPLAYED, 32 bits; 11 Table LNK-11; reset 0 -/
  replayed : Nat
  /-- RECOVERIES, 32 bits; 11 Table LNK-11; reset 0 -/
  recCount : Nat
  /-- DOWN_EVENTS, 32 bits; 11 Table LNK-11; reset 0 -/
  downs : Nat
  /-- HOLD_RECEIVED, 32 bits; 11 Table LNK-11; reset 0 -/
  holds : Nat
  deriving DecidableEq, Repr

/-- Group identity (R326). -/
structure Group where
  /-- GROUP_ID, 64 bits; 11 R326, 18 Table REG-1; reset 0 -/
  id : Nat
  /-- GROUP_SIZE; 11 R326, 18 Table REG-1; reset 1 -/
  size : Nat
  /-- GROUP_INDEX; 11 R326, 18 Table REG-1; reset 0 -/
  index : Nat
  /-- PORT_LOST_KILLS, 32 bits; 11 Table LNK-11; reset 0 -/
  lostKills : Nat
  /-- CREDIT_RECLAIMS, 32 bits; 11 Table LNK-11; reset 0 -/
  reclaims : Nat
  deriving DecidableEq, Repr

/-- What one member of a group has told of itself, or been told by another (log 24): the partition, the kind, the object it is about,
and what stands there; no bytes where the object is gone. -/
structure Notice where
  /-- group index of the member that told it -/
  member : Nat
  part : Nat
  kind : Nat
  key : Nat
  body : Bytes
  deriving DecidableEq, Repr

/-! ### Ledger, telemetry, scrub -/

/-- The partition that each package-wide engine queue served last (R279, R285). -/
structure Served where
  /-- HBM reads; 10 R285; reset none -/
  hbm : Option Nat
  /-- Sinter runs; 10 R285; reset none -/
  sinter : Option Nat
  /-- hub DMA; 10 R285; reset none -/
  dma : Option Nat
  deriving DecidableEq, Repr

/-- The ledger snapshot block of a partition (Table REG-6). -/
structure SnapPart where
  part : Nat
  body : Bytes
  deriving DecidableEq, Repr

/-- The Ledger Unit and the ledger snapshot (R438-R440, R501). -/
structure Ledger where
  /-- SNAP_SEQ, 32 bits; 18 R501; reset 0 -/
  seq : Nat
  /-- LAST_BALANCED_DTC, 64 bits; 18 Table REG-6; reset 0 -/
  balanced : Nat
  /-- CLOSE_COUNT; 18 Table REG-6; reset 0 -/
  closes : Nat
  /-- LAST_RESULT; 18 Table REG-6; reset 0 -/
  result : Nat
  /-- snapshot blocks of the last close; 18 Table REG-6; reset none -/
  snap : List SnapPart
  /-- link credit words of the last close, 4 for each port; 18 Table REG-6; reset none -/
  links : Bytes
  deriving DecidableEq, Repr

/-- Scrub and package telemetry (R254-R257, Table MSG-14). -/
structure Tele where
  /-- HBM_CORRECTED; 13 Table MSG-14; reset 0 -/
  hbmCorrected : Nat
  /-- frames read in this scrub pass; 09 R257; reset none -/
  scrubRead : List Nat
  /-- frames moved to the front of the scrub order; 09 R254; reset none -/
  scrubFront : List Nat
  /-- start of the scrub pass; 09 R257; reset 0 -/
  scrubStart : Nat
  /-- hub watchdog pairs that timed out; 15 R425; reset none -/
  watchdogs : List Nat
  deriving DecidableEq, Repr

/-- The package. -/
structure State where
  /-- fuses, boot, firmware, DTC; 17; reset as its fields -/
  boot : Boot
  /-- package state, first doubt, fault log; 15; reset as its fields -/
  flt : Flt
  /-- pins, alignment, thermal, VCORE; 14, 19; reset as its fields -/
  pins : Pins
  /-- Power Governor and power domains; 14; reset as its fields -/
  gov : Gov
  /-- functions, windows, bus; 12; reset as its fields -/
  host : HostIf
  /-- 8 partitions; 10 R266; reset as its fields -/
  parts : List Part
  /-- tenants, at most 1,024; 04 R102; reset none -/
  tenants : List Tenant
  /-- adapters registered; 03 R83; reset none -/
  adapters : List Adapter
  /-- registrations pending; 03 R78; reset none -/
  regs : List PendReg
  /-- requests not yet forgotten; 13 R387; reset none -/
  reqs : List Req
  /-- HBM frames that are not plain free, by ascending number; 09 R243; reset none -/
  frames : List Frame
  /-- clusters in use, others idle and cleared; 08 R205; reset none -/
  clusters : List Cluster
  /-- 12 ports; 11 R301; reset as its fields -/
  ports : List Port
  /-- engine queues; 10 R285; reset as its fields -/
  served : Served
  /-- group identity; 11 R326; reset as its fields -/
  group : Group
  /-- what the members of the group have told of the partitions that span them; 10 R271, 03 R82 (log 24); reset none -/
  notices : List Notice
  /-- Ledger Unit; 15 R438; reset as its fields -/
  ledger : Ledger
  /-- telemetry and scrub; 09, 13; reset as its fields -/
  tele : Tele
  /-- the model's own counter of free values taken; log 3; reset 0 (design choice) -/
  freeCtr : Nat
  /-- commands waiting, first in first out; the model's own; reset none -/
  pending : List Instr
  deriving DecidableEq, Repr

/-! ### The state right after cold reset -/

/-- A zero SHA-256 output, as registers that hold no digest read. -/
def zeroDigest : Digest := List.replicate 32 0

/-- A register mailbox after reset (12 Table HST-8). -/
def Mbox.reset : Mbox :=
  { cmd := List.replicate 64 0, rsp := List.replicate 64 0, seq := 0, st := .idle, overrun := false, taken := false }

/-- An MSI-X vector after reset (18 Table REG-3). -/
def Vec.reset : Vec := { addr := 0, data := 0, masked := true, pending := false, holdoff := 0, running := none }

/-- A function after reset (18 Table REG-3, 12 R366). -/
def Fn.reset : Fn :=
  { mbox := .reset, sqs := [], cqs := [], vecs := List.replicate 128 .reset, causeMbox := false, causeState := false,
    causeSq := false, sqFaulted := 0, shadow := none, session := none, spdmPending := false, flr := none }

/-- The endpoint after reset. -/
def HostIf.reset : HostIf :=
  { fns := List.replicate 16 .reset, wins := [], vfs := 0, linkUp := false, bus := [], held := [], barriers := [],
    reads := [], nextTag := 0, lastAccept := 0, lastFn := none, sqTailInvalid := 0, cqHeadInvalid := 0, smbPtr := 0, smbData := [],
    readData := 0, forwarded := [] }

/-- Fuses, boot and clocks after cold reset (17 Table BRU-7, 18 Table REG-1; log 9 for what the spec does not give). -/
def Boot.reset : Boot :=
  { part := .swl9400, disabledDie := 0, romVersion := 0, keyHashes := List.replicate 4 zeroDigest, revoked := 0,
    minSvn := 0, deviceSecret := [], debugKeyHash := zeroDigest, lock := .locked, keyBar := false, pwrGood := false,
    perst := false, pllLocked := false, cold := true, dtc := 0, stage := .rom, booting := true, dir := none,
    ranSlot := 0, fallbackSlot := false, svn := 0, keySlot := 0, ifMajor := 0, ifMinor := 0, fwGen := 0,
    deviceId := zeroDigest, aliasFw := none, curFw := zeroDigest, prevFw := zeroDigest, epoch := 0, fwPhase := .idle,
    staged := none, flashOut := [], cfgIgnored := 0, extest := none }

/-- Package state after reset (18 Table REG-4). -/
def Flt.reset : Flt :=
  { pkg := .serving, firstDtc := 0, firstSource := 0, firstLevel := 0, firstPart := 0, firstUnit := 0, doubtCount := 0,
    log := [], logCount := 0, logClearedAt := 0, resetIgnored := 0, faultN := false, quietN := true, trip := false,
    tripHub := false, coolSince := none, dma := true, recStep := .idle, recCtx := none }

/-- Pins after reset (19 R502, R505, R507, R517). -/
def Pins.reset : Pins :=
  { mf := List.replicate 16 { fn := .gpioIn, arg := 0, arming := none, armAt := 0 }, filter := .unarmed,
    syncOutUntil := none, slew := 0, slewAt := 0, misalign := 0, lost := 0, lastMark := 0, coarseSet := false,
    throttle := false, throttleTicks := 0, throttleCount := 0, tMax := 0, vFuse := List.replicate 4 700,
    vReq := List.replicate 4 800, vHold := List.replicate 4 false }

/-- The Power Governor after reset (14 R409, R410). -/
def Gov.reset : Gov :=
  { limitW := 1600, g := 0, queue := [], arrivals := [], releases := 0, permits := [], bEffAt := 0, bEffLast := 2900,
    on := [], rising := [] }

/-- Table PAR-1's defaults. -/
def Items.default : Items :=
  { groups := 0, hbmBase := 0, hbmCount := 0, groupSize := 1, time := false, quantum := 500000, deadline := false,
    decay := 8, full := false, preempt := .auto, rowBudget := 8192, chunk := 512, fbTokens := 16, twin := 0, tail := 0,
    stage := 0, pool := 0, rates := List.replicate 4 (0, 4294967296) }

/-- A partition number that holds no partition (10 R297); its handle serial starts at 0 (13 R372). -/
def Part.reset : Part :=
  { st := .disabled, items := .default, pendItems := none, levels := List.replicate 4 0,
    roles := [.base, .fallback, .condenser, .spare], slots := List.replicate 4 none, serial := 0, freezeAt := none,
    lastFreeze := 0, attempt := none, lastFbOnly := false, protectNext := false, stepHeld := 0, turn := false, handed := [], grantNo := 0, handles := 0, replays := 0,
    submits := 0, outcomes := [], replayStats := [], replayEnds := 0, load := none, disable := none,
    resetting := false, resetWait := false, sems := [], probes := [], fetchQ := [], fetchWait := false, steps := 0, kills := 0, shelves := 0, downgrades := 0, turnWait := 0,
    deadlocks := 0, xpReruns := 0, csCorrected := 0, twinPairs := 0, twinShadowed := 0 }

/-- A VC of a port that has no peer (11 R313, R334). -/
def VcState.reset : VcState :=
  { credits := 0, outBy := [], rxUsed := 0, owed := 0, owedAt := 0, stream := [], msgs := [], txFlits := 0, rxCredits := 0,
    rxFlits := 0, txCredits := 0 }

/-- A lane after reset (11 R336). -/
def Lane.reset : Lane := { corr := 0, uncorr := 0, steers := 0, recals := 0, paused := 0, failed := false, errs := [] }

/-- A port after reset (11 R307, R336). -/
def Port.reset : Port :=
  { st := .disabled, reason := .none, lanes := List.replicate 5 .reset, spare := false, steered := none, recal := none, turned := [], asked := none,
    due := none, txSteers := [], since := 0, startAt := none, holdUntil := 0, back := .active, rxCount := 0, txStart := 0, lostCw := none,
    rtt := 0, pings := [], echoes := 0, limited := false, peer := none, txSeq := 0, rxSeq := 0, replay := [], txq := [],
    wire := [], served := none, vc1Next := false, naking := false, unacked := 0, sameReplays := 0, recoveries := [], vcs := List.replicate 4 .reset,
    permit := false, train := 0, leaving := none, disableSent := false, reclaimRx := [], holding := false, crcData := 0,
    crcCtrl := 0, nakSent := 0, nakRecv := 0, replayed := 0, recCount := 0, downs := 0, holds := 0 }

/-- The machine right after cold reset. -/
def State.reset : State :=
  { boot := .reset, flt := .reset, pins := .reset, gov := .reset, host := .reset, parts := List.replicate 8 .reset,
    tenants := [], adapters := [], regs := [], reqs := [], frames := [], clusters := [],
    ports := List.replicate 12 .reset, served := { hbm := none, sinter := none, dma := none }, group := { id := 0, size := 1, index := 0, lostKills := 0, reclaims := 0 }, notices := [],
    ledger := { seq := 0, balanced := 0, closes := 0, result := 0, snap := [], links := [] },
    tele := { hbmCorrected := 0, scrubRead := [], scrubFront := [], scrubStart := 0, watchdogs := [] },
    freeCtr := 0, pending := [] }

/-! ### The canonical form of a byte store -/

/-- Addresses strictly rising and no entry equal to what an unlisted byte of Cluster Store reads as, 0 (R270, R406). -/
def cellsFrom : Nat → List Host.Cell → Bool
  | _, [] => true
  | lo, (a, b) :: rest => decide (lo ≤ a) && decide (b ≠ 0) && cellsFrom (a + 1) rest

/-- A Cluster Store's list is in canonical form. -/
def cellsOk (m : List Host.Cell) : Bool := cellsFrom 0 m

/-- Every Cluster Store is in canonical form. -/
def Memory.wf (s : State) : Bool := s.clusters.all fun c => cellsOk c.cs

end Sys2Proof.Machine
end

