-- ==== Sys2Proof/Machine/Flags.lean ====
section
/-! DEFINITION. Status words and flag words: mailbox STATUS, INT_CAUSE, the ring record's HDR and the TOKEN FLAGS,
window CTRL, the semaphore owner tag, and the completion and terminal codes. -/

namespace Sys2Proof.Machine

/-- Completion codes (Table MSG-3). -/
inductive Code where
  | success
  | alreadyEnded
  | invalidOpcode
  | invalidField
  | notPermitted
  | wrongState
  | busy
  | conflict
  | noResource
  | descFault
  | tenantUnknown
  | unknownHandle
  | unknownReplay
  | stopped
  | indexInUse
  | adapterUnknown
  | adapterBad
  | adapterRetired
  | adapterModelMismatch
  | companionInvalid
  | companionInUse
  | homeFault
  | digestMismatch
  | imageInvalid
  | modelNotResident
  | layoutMismatch
  | parkFault
  | parkExpired
  | capsuleInvalid
  | sealMismatch
  | levelMismatch
  | keyInvalid
  | signatureInvalid
  | versionMismatch
  | queueFault
  | deviceQuarantined
  deriving DecidableEq, Repr

/-- The value of a completion code (Table MSG-3). -/
def codeVal : Code → Nat
  | .success => 0x0000
  | .alreadyEnded => 0x0001
  | .invalidOpcode => 0x0010
  | .invalidField => 0x0011
  | .notPermitted => 0x0012
  | .wrongState => 0x0013
  | .busy => 0x0014
  | .conflict => 0x0015
  | .noResource => 0x0016
  | .descFault => 0x0017
  | .tenantUnknown => 0x0018
  | .unknownHandle => 0x0019
  | .unknownReplay => 0x001A
  | .stopped => 0x001B
  | .indexInUse => 0x0020
  | .adapterUnknown => 0x0021
  | .adapterBad => 0x0022
  | .adapterRetired => 0x0023
  | .adapterModelMismatch => 0x0024
  | .companionInvalid => 0x0025
  | .companionInUse => 0x0026
  | .homeFault => 0x0030
  | .digestMismatch => 0x0031
  | .imageInvalid => 0x0032
  | .modelNotResident => 0x0033
  | .layoutMismatch => 0x0034
  | .parkFault => 0x0040
  | .parkExpired => 0x0041
  | .capsuleInvalid => 0x0050
  | .sealMismatch => 0x0051
  | .levelMismatch => 0x0052
  | .keyInvalid => 0x0060
  | .signatureInvalid => 0x0061
  | .versionMismatch => 0x0062
  | .queueFault => 0x0070
  | .deviceQuarantined => 0x00F0

/-- TERM codes (Table GEY-4). -/
def termVal : Term → Nat
  | .complete => 1
  | .cancelled => 2
  | .withheld => 3
  | .numericInvalid => 4
  | .deviceFault => 5
  | .expired => 6

/-- Package state codes (Table FLT-3). -/
def pkgVal : PkgState → Nat
  | .serving => 0
  | .entering => 1
  | .quarantined => 2
  | .recovering => 3
  | .uncontained => 4

/-- BOOT_STAGE codes (Table BRU-5). -/
def stageVal : BootStage → Nat
  | .rom => 0x01
  | .fwLoad => 0x02
  | .fwStart => 0x03
  | .hbmTrain => 0x04
  | .bist => 0x05
  | .kat => 0x06
  | .serving => 0x07
  | .fwActivating => 0x08
  | .noImage => 0x81
  | .pllFail => 0x82
  | .hbmFail => 0x83
  | .bistFail => 0x84
  | .katFail => 0x85
  | .stageTimeout => 0x86

/-- Whether a boot stage is a failure (Table BRU-5). -/
def bootFailed (st : BootStage) : Bool := decide (0x81 ≤ stageVal st)

/-- Whether a package state is harmless, so that STATUS[3] QUARANTINED reads 1 (Table HST-8, Table FLT-4). -/
def harmless : PkgState → Bool
  | .serving => false
  | _ => true

/-- The mailbox STATUS word (Table HST-8). -/
def statusWord (m : Mbox) (pkg : PkgState) : Nat :=
  m.seq * 65536 + b2n (harmless pkg) * 8 + b2n m.overrun * 4 +
    (match m.st with | .idle => 0 | .busy => 1 | .done => 2)

/-- The INT_CAUSE word (Table REG-3). -/
def causeWord (f : Fn) : Nat := f.sqFaulted * 65536 + b2n f.causeSq * 4 + b2n f.causeState * 2 + b2n f.causeMbox

/-- A window's CTRL word (Table HST-4a). -/
def ctrlWord (w : Win) (busy : Bool) : Nat := b2n w.error * 4 + b2n busy * 2 + b2n w.valid

/-- PHASE of record or entry number i in a ring of 2^log2 (Table GEY-4, R357). -/
def phaseBit (i log2 : Nat) : Nat := 1 - i / 2 ^ log2 % 2

/-- END_REASON codes (Table GEY-4). -/
inductive EndReason where
  | none
  | stop
  | limit
  | full
  deriving DecidableEq, Repr

/-- The value of an end reason (Table GEY-4). -/
def endVal : EndReason → Nat
  | .none => 0
  | .stop => 1
  | .limit => 2
  | .full => 3

/-- The flags a ring record carries (Table GEY-4). -/
structure RecFlags where
  resumed : Bool
  condensed : Bool
  dlMiss : Bool
  saturated : Bool
  fallback : Bool
  reason : EndReason
  turnEnd : Bool
  term : Nat
  tokenValid : Bool
  deriving DecidableEq, Repr

/-- The HDR word of record number i (Table GEY-4). -/
def hdrWord (f : RecFlags) (i log2 : Nat) : Nat :=
  b2n f.resumed * 2 ^ 12 + b2n f.condensed * 2 ^ 11 + b2n f.dlMiss * 2 ^ 10 + b2n f.saturated * 2 ^ 9 +
    b2n f.fallback * 2 ^ 8 + endVal f.reason * 2 ^ 6 + b2n f.turnEnd * 2 ^ 5 + f.term * 2 ^ 2 + b2n f.tokenValid * 2 +
    phaseBit i log2

/-- TOKEN FLAGS of a capsule entry (Table CAP-8). -/
def tokenFlags (f : RecFlags) : Nat :=
  b2n f.resumed * 32 + endVal f.reason * 8 + b2n f.turnEnd * 4 + b2n f.saturated * 2 + b2n f.fallback

/-- An owner tag (Table CLU-13). -/
def ownerTag (serial attempt member inv rank : Nat) : Nat :=
  serial % 4096 * 2 ^ 20 + attempt % 16 * 2 ^ 16 + member % 8 * 2 ^ 13 + inv % 4 * 2 ^ 11 + rank % 256

/-- STEP and ATTEMPT of an owner tag (Table CLU-13). -/
def tagAttempt (tag : Nat) : Nat := tag / 2 ^ 16

/-- MEMBER of an owner tag (Table CLU-13). -/
def tagMember (tag : Nat) : Nat := bits tag 15 13

/-- RANK of an owner tag (Table CLU-13). -/
def tagRank (tag : Nat) : Nat := tag % 256

/-- Codes of the harmless debug lock states (Table TRU-5, Table REG-1 DEBUG_LOCK). -/
def lockVal : DebugLock → Nat
  | .manufacturing => 0
  | .locked => 1
  | .debug => 2
  | .retired => 3

/-- Conversation state codes (Table CNV-2 order, Table MSG-14 page 0x03). -/
def convVal : Conv → Nat
  | .live => 0
  | .held => 1
  | .parking => 2
  | .parked => 3
  | .resuming => 4
  | .condensing => 5
  | .condensed => 6

/-- Adapter STATE of telemetry: Table ADP-6 order, PINNED counted apart (Table MSG-14 page 0x04). -/
def adVal (a : Adapter) : Nat :=
  match a.st with
  | .absent => 0
  | .fetching => 1
  | .resident => if a.pins = 0 then 2 else 3
  | .evicting => 4

/-- The HDR END_ACTION code of a capsule's SAMPLING entry (Table CAP-5). -/
def endActVal : EndAction → Nat
  | .finish => 0
  | .hold => 1
  | .park => 2
  | .condense => 3

/-- The default END_ACTION codes of TENANT_SET and REQUEST_SUBMIT (Table MSG-8, Table MSG-10). -/
def endActOf : Nat → EndAction
  | 2 => .hold
  | 3 => .park
  | 4 => .condense
  | _ => .finish

end Sys2Proof.Machine
end

