-- ==== Sys2Proof/Machine/Wire.lean ====
section
/-! DEFINITION. What a Noyldo port puts on the wire: flits, credits, acknowledgements, replay and message headers
(11 §4, §5). Every message starts in a flit of its own, the rest of its last flit being padding (R317; log 11). -/

namespace Sys2Proof.Machine

/-- A permit request that reaches the Governor in this tick, with its size (R411, R413). -/
def govAsk (g : Gov) (req : Nat) (cls : PClass) (du at_ : Nat) : Gov :=
  if (g.queue ++ g.arrivals).any (fun r => r.req == req && r.cls == cls) then g
  else { g with arrivals := g.arrivals ++ [{ req := req, cls := cls, du := du, admitted := 0, at_ := at_ }] }

/-- A requester's permit of a class released and its queued request withdrawn (R411, R413). -/
def govDrop (g : Gov) (req : Nat) (cls : PClass) : Gov :=
  let held := (g.permits.filter fun p => p.req == req && p.cls == cls).map (·.du)
  let adm := (g.queue.filter fun r => r.req == req && r.cls == cls).map (·.admitted)
  { g with permits := g.permits.filter fun p => !(p.req == req && p.cls == cls)
           queue := g.queue.filter fun r => !(r.req == req && r.cls == cls)
           arrivals := g.arrivals.filter fun r => !(r.req == req && r.cls == cls)
           releases := g.releases + sumNat held + sumNat adm }

/-- A flit's header word (Table LNK-4). -/
def flitHeader (seq ack vc ftype ackValid crVc crCount firstMsg : Nat) : Nat :=
  seq * 2 ^ 52 + ack * 2 ^ 40 + vc * 2 ^ 38 + ftype * 2 ^ 36 + ackValid * 2 ^ 35 + crVc * 2 ^ 33 + crCount * 2 ^ 24 +
    firstMsg * 2 ^ 16

/-- A flit from its header word and payload (Table LNK-3). -/
def flitBytes (hdr : Nat) (payload : Bytes) : Bytes :=
  let body := leBytes 8 hdr ++ slice payload 0 240
  body ++ leBytes 8 (crc64 body).toNat

/-- VC v of a port. -/
def vcOf (p : Port) (v : Nat) : VcState := p.vcs.getD v .reset

/-- VC v of a port changed. -/
def updVc (p : Port) (v : Nat) (f : VcState → VcState) : Port := { p with vcs := modAt p.vcs v f }

/-- The VC whose freed credits the next flit returns (R313): the first with any, and how many. -/
def creditReturn (p : Port) : Nat × Nat :=
  match ((p.vcs.zipIdx).filter fun e => decide (0 < e.1.owed)) with
  | e :: _ => (e.2, min 256 e.1.owed)
  | [] => (0, 0)

/-- One flit put on the wire, carrying ACK and credits (R313, R314). -/
def putFlit (p : Port) (seq vc ftype firstMsg : Nat) (payload : Bytes) : Port :=
  let cr := creditReturn p
  let ack := (p.rxSeq + 4095) % 4096
  let f := flitBytes (flitHeader seq ack vc ftype 1 cr.1 cr.2 firstMsg) payload
  let p := if cr.2 = 0 then p else updVc p cr.1 fun v => { v with owed := v.owed - cr.2, txCredits := (v.txCredits + cr.2) % 2 ^ 48 }
  { p with wire := p.wire ++ [f], unacked := 0 }

/-- An IDLE flit (R312, R314). -/
def putIdle (p : Port) : Port := putFlit p 0 0 1 0x1F []

/-- A NAK flit (R315). -/
def putNak (p : Port) : Port := { putFlit p 0 0 2 0x1F [] with nakSent := satAdd 32 p.nakSent 1, naking := true }

/-- Whether a port may send DATA flits of VC v (R307, R312, R316, R333). -/
def vcOpen (p : Port) (v : Nat) : Bool :=
  !p.holding && decide (p.replay.length < 512) && decide (0 < (vcOf p v).credits) &&
    (match p.st with
      | .active => v == 0 || v == 3 || (p.permit && decide (p.train < 4096))
      | .linkInit => v == 3
      | .rtt => v == 3
      | _ => false)

/-- The VC the transmitter takes its next DATA flit from: VC3, VC0, then VC2 and VC1 in turn (R312). -/
def nextVc (p : Port) : Option Nat :=
  let ready := fun v => p.txq.any (fun m => m.vc == v) && vcOpen p v
  if ready 3 then some 3
  else if ready 0 then some 0
  else if p.vc1Next then (if ready 1 then some 1 else if ready 2 then some 2 else none)
  else if ready 2 then some 2 else if ready 1 then some 1 else none

/-- The partition an engine queue serves next: the first from the one after the last served, cyclically, that f accepts (R285). -/
def nextServed (last : Option Nat) (f : Nat → Bool) : Option Nat :=
  ((List.range 8).map fun i => (match last with | some p => p + 1 + i | none => i) % 8).find? f

/-- The message that VC v takes its next flit from: one that has begun; else on VC1 and VC2 the oldest of the partition next in turn
(R285, R317), and otherwise the oldest. -/
def pickMsg (p : Port) (v : Nat) : Option TxMsg :=
  let ms := p.txq.filter fun m => m.vc == v
  match ms.find? (·.begun) with
  | some m => some m
  | none =>
    if v = 1 ∨ v = 2 then
      (match nextServed p.served fun x => ms.any fun m => m.part == x with
        | some x => ms.find? fun m => m.part == x
        | none => ms.head?)
    else ms.head?

/-- A message of a queue with 240 bytes less, removed when nothing is left. -/
def takeBytes (k : TxMsg) : List TxMsg → List TxMsg
  | [] => []
  | m :: ms => if m == k then (if m.bytes.length ≤ 240 then ms else { m with bytes := m.bytes.drop 240, begun := true } :: ms)
    else m :: takeBytes k ms

/-- DATA flits sent while one is eligible; the fuel bounds their number (R312-R315).
FIRST_MSG is 0 in a message's first flit. -/
def pumpFlits : Nat → Port → Port
  | 0, p => p
  | n + 1, p =>
    match nextVc p with
    | none => p
    | some v =>
      match pickMsg p v with
      | none => p
      | some m =>
        let payload := slice m.bytes 0 240
        let first := if m.begun then 0x1F else 0
        let q := putFlit p p.txSeq v 0 first payload
        let flit := q.wire.getLast?.getD []
        let q := updVc q v fun c => { c with credits := c.credits - 1, outBy := c.outBy ++ [m.part], txFlits := (c.txFlits + 1) % 2 ^ 48 }
        let rest := takeBytes m q.txq
        let q := if v = 1 ∨ v = 2 then { q with served := some m.part } else q
        pumpFlits n { q with txSeq := (q.txSeq + 1) % 4096, replay := q.replay ++ [{ seq := p.txSeq, vc := v, bytes := flit }]
                             txq := rest, vc1Next := if v = 2 then true else if v = 1 then false else q.vc1Next
                             train := if v = 1 ∨ v = 2 then q.train + 1 else q.train }

/-- A port after it has sent all it can. -/
def pumpPort (p : Port) : Port := pumpFlits (sumNat (p.txq.map fun m => m.bytes.length / 240 + 1)) p

/-- A port whose train has ended: the permit is no longer held (R316). -/
def endTrain (p : Port) : Port := { p with permit := false, train := 0 }

/-- Port n of a state pumped; VC1 and VC2 work asks for a LINK_TRAIN permit, and an empty queue or a full train returns it (R316). -/
def pumpState (s : State) (n : Nat) : State :=
  match s.ports[n]? with
  | none => s
  | some p =>
    let p := pumpPort p
    let bulk := p.txq.any fun m => m.vc == 1 || m.vc == 2
    let over_ := if bulk then p.permit && decide (4096 ≤ p.train) else p.permit || decide (0 < p.train)
    let p := if over_ then endTrain p else p
    let s := { s with ports := s.ports.set n p, gov := if over_ then govDrop s.gov (400 + n) .linkTrain else s.gov }
    if bulk && !p.permit then { s with gov := govAsk s.gov (400 + n) .linkTrain 3 s.boot.dtc } else s

/-- A message header (Table LNK-6). -/
def linkHeader (ty kind len part ch rank tag arg : Nat) : Bytes :=
  leBytes 1 ty ++ leBytes 1 kind ++ leBytes 2 len ++ leBytes 1 part ++ leBytes 1 ch ++ leBytes 2 rank ++ leBytes 4 tag ++ leBytes 4 arg

/-- A message queued on VC v of port n and sent as far as it can be (R317). -/
def portSend (s : State) (n v : Nat) (msg : Bytes) : State :=
  pumpState { s with ports := modAt s.ports n fun p => { p with txq := p.txq ++ [{ vc := v, part := rd msg 4 1, bytes := msg, begun := false }] } } n

/-- The link messages of a TYPE that wait in a port's receive buffers (R317). -/
def linkHead (p : Port) (ty : Nat) : List LinkMsg := p.vcs.flatMap fun v => (v.msgs.filter fun e => e.2.1 == ty).map (·.1)

/-- Receive flits freed on VC v (R313). -/
def freeRx (now k : Nat) (v : VcState) : VcState :=
  if k = 0 then v else { v with rxUsed := v.rxUsed - k, owed := v.owed + k, owedAt := if v.owed = 0 then now else v.owedAt }

/-- A message taken out of the receive buffer it waits in, its flits freed (R313); a message that waits in none is the one the
row brings (log 11). -/
def takeLink (s : State) (n ty : Nat) (f : LinkMsg → Bool) : State :=
  { s with ports := modAt s.ports n fun p =>
    { p with vcs := p.vcs.map fun v =>
        match v.msgs.find? fun e => e.2.1 == ty && f e.1 with
        | some e => freeRx s.boot.dtc e.2.2 { v with msgs := v.msgs.erase e }
        | none => v } }

/-- The ACTIVE ports to group index i, ascending (R329). -/
def bondPorts (s : State) (i : Nat) : List Nat :=
  ((s.ports.zipIdx).filter fun e => e.1.st == .active && e.1.leaving.isNone &&
    (match e.1.peer with | some id => id.groupIndex == i | none => false)).map (·.2)

/-- The block of members a partition of size g spans: group index i of the package's member number within it, and the
package index of block member k (R327). -/
def blockMember (s : State) (g k : Nat) : Nat := s.group.index / g * g + k

/-- This package's group index within a partition of size g (R327). -/
def ownIndex (s : State) (g : Nat) : Nat := s.group.index % g

/-- A VC0 or VC3 message to block member k of a partition of size g, on the lowest port of the bond (R329). -/
def sendMember (s : State) (g k v : Nat) (msg : Bytes) : State :=
  match bondPorts s (blockMember s g k) with
  | n :: _ => portSend s n v msg
  | [] => s

/-- A message to every other member of a partition of size g. -/
def sendOthers (s : State) (g v : Nat) (msg : Bytes) : State :=
  (List.range g).foldl (fun t k => if k == ownIndex t g then t else sendMember t g k v msg) s

/-- FORMED (R326): every other index below GROUP_SIZE is reached by an ACTIVE port. -/
def groupFormed (s : State) : Bool :=
  (List.range s.group.size).all fun i => i == s.group.index || !(bondPorts s i).isEmpty

end Sys2Proof.Machine
end

