-- ==== Sys2Proof/Machine/Ops.lean ====
section
/-! DEFINITION. Operations every family shares: looking units up, the bus, vectors, taking and answering messages,
frames of HBM, Cluster Store bytes. -/

namespace Sys2Proof.Machine

/-- What a meaning answers. -/
abbrev Out := Host.Outcome State Fault Refusal

/-- A command that names unit n of a kind that has bound of them (log 2). -/
def inRange (n bound : Nat) (t : State) : Out := if n < bound then .next t else .fault .noSuchUnit

/-- A command with no effect in UNCONTAINED (R436, R488). -/
def guarded (s t : State) : State := if s.flt.pkg == .uncontained then s else t

/-! ### Units -/

/-- Enabled clusters (R13, R17). -/
def nClusters (s : State) : Nat := match s.boot.part with | .swl9400 => 192 | .swl9300 => 144

/-- Enabled compute dies (R13, R17). -/
def nDies (s : State) : Nat := nClusters s / 48

/-- Enabled stacks (R13, R17). -/
def nStacks (s : State) : Nat := 2 * nDies s

/-- HBM frames (R237). -/
def nFrames (s : State) : Nat := nStacks s * 589824

/-- HBM granules (R238). -/
def nGranules (s : State) : Nat := nFrames s / 16384

/-- Enabled cluster groups (R14). -/
def nGroups (s : State) : Nat := nClusters s / 8

/-! ### Reading and changing one unit -/

/-- Function n. -/
def fnOf (s : State) (n : Nat) : Fn := s.host.fns.getD n .reset

/-- Function n changed. -/
def updFn (s : State) (n : Nat) (f : Fn → Fn) : State := { s with host := { s.host with fns := modAt s.host.fns n f } }

/-- Partition p. -/
def partOf (s : State) (p : Nat) : Part := s.parts.getD p .reset

/-- Partition p changed. -/
def updPart (s : State) (p : Nat) (f : Part → Part) : State := { s with parts := modAt s.parts p f }

/-- Port n. -/
def portOf (s : State) (n : Nat) : Port := s.ports.getD n .reset

/-- Port n changed. -/
def updPort (s : State) (n : Nat) (f : Port → Port) : State := { s with ports := modAt s.ports n f }

/-- The request with handle h. -/
def reqOf (s : State) (h : Nat) : Option Req := s.reqs.find? fun q => q.h == h

/-- The request with handle h changed. -/
def updReq (s : State) (h : Nat) (f : Req → Req) : State :=
  { s with reqs := s.reqs.map fun q => if q.h == h then f q else q }

/-- The tenant with an id. -/
def tenantOf (s : State) (id : Nat) : Option Tenant := s.tenants.find? fun t => t.id == id

/-- The tenant with an id changed. -/
def updTenant (s : State) (id : Nat) (f : Tenant → Tenant) : State :=
  { s with tenants := s.tenants.map fun t => if t.id == id then f t else t }

/-- The adapter at an index of a partition. -/
def adapterOf (s : State) (p i : Nat) : Option Adapter := s.adapters.find? fun a => a.part == p && a.idx == i

/-- The adapter at an index of a partition changed. -/
def updAdapter (s : State) (p i : Nat) (f : Adapter → Adapter) : State :=
  { s with adapters := s.adapters.map fun a => if a.part == p && a.idx == i then f a else a }

/-- A cluster with nothing in it (R406). -/
def idleCluster (c : Nat) : Cluster :=
  { no := c, holder := none, invs := [], cs := [], tags := [], queues := List.replicate 4 [], twinQ := [],
    twinTurns := [0, 0, 0], twinArea := [], todo := [],
    routes := [], phase := 0, chans := [], unret := [], ears := [], halves := [[], []], ports := [], layers := 0,
    lastRetire := 0, atCheap := none, finished := false }

/-- Cluster c. -/
def clusterOf (s : State) (c : Nat) : Cluster := (s.clusters.find? fun x => x.no == c).getD (idleCluster c)

/-- Cluster x kept under its number. -/
def putCluster (s : State) (x : Cluster) : State :=
  { s with clusters := insertBy (·.no) x (s.clusters.filter fun y => y.no != x.no) }

/-- Cluster c changed. -/
def updCluster (s : State) (c : Nat) (f : Cluster → Cluster) : State := putCluster s (f (clusterOf s c))

/-- Cluster c idle again, with its store as it is (R270: the map of written granules is cleared at the next grant). -/
def dropCluster (s : State) (c : Nat) : State := { s with clusters := s.clusters.filter fun y => y.no != c }

/-- A count or stamp the spec leaves open (log 3), and the state that has used it up. -/
def freeVal (s : State) : Nat × State := (Config.freeNat s.freeCtr, { s with freeCtr := s.freeCtr + 1 })

/-- A DTC the spec only bounds from below (log 3). -/
def freeStamp (s : State) (lo : Nat) : Nat × State :=
  let v := freeVal s
  (max lo v.1, v.2)

/-! ### Cluster Store bytes (R208, R270) -/

/-- A byte of a canonical store; an unlisted one reads zero. -/
def csGet (m : List Host.Cell) (a : Nat) : Byte :=
  match m with
  | [] => 0
  | (b, v) :: rest => if b = a then v else if a < b then 0 else csGet rest a

/-- A store with byte a written; zero is not listed. -/
def csSet (m : List Host.Cell) (a : Nat) (v : Byte) : List Host.Cell :=
  match m with
  | [] => if v = 0 then [] else [(a, v)]
  | (b, w) :: rest =>
    if a < b then (if v = 0 then (b, w) :: rest else (a, v) :: (b, w) :: rest)
    else if a = b then (if v = 0 then rest else (a, v) :: rest)
    else (b, w) :: csSet rest a v

/-- n bytes of a store from address a. -/
def csRead (m : List Host.Cell) (a n : Nat) : Bytes := (List.range n).map fun i => csGet m (a + i)

/-- A store with a byte string written from address a, within 4 MiB. -/
def csWrite (m : List Host.Cell) (a : Nat) : Bytes → List Host.Cell
  | [] => m
  | b :: bs => csWrite (if a < 4194304 then csSet m a b else m) (a + 1) bs

/-! ### The bus (R338, R340, R359) -/

/-- Whether a write of a kind may still be issued: nothing in UNCONTAINED, nothing but MSI-X once DMA has stopped, and
nothing through a function in reset (R364, R428, R430, R436). -/
def mayIssue (s : State) (w : BusWrite) : Bool :=
  s.flt.pkg != .uncontained && (s.flt.dma || w.kind == .msix) && (fnOf s w.fn).flr.isNone

/-- One posted write issued; while the link is down it is held in order (R340). -/
def issue (s : State) (w : BusWrite) : State :=
  if !mayIssue s w then s
  else if s.host.linkUp then { s with host := { s.host with bus := s.host.bus ++ [w] } }
  else { s with host := { s.host with held := s.host.held ++ [w] } }

/-- Vector v of function fn. -/
def vecOf (s : State) (fn v : Nat) : Vec := (fnOf s fn).vecs.getD v .reset

/-- Vector v of function fn changed. -/
def updVec (s : State) (fn v : Nat) (f : Vec → Vec) : State := updFn s fn fun x => { x with vecs := modAt x.vecs v f }

/-- The MSI-X message of a vector sent if it is pending, unmasked and no holdoff runs (R362, R363). In a harmless state
only vector 0 sends (Table FLT-4). -/
def trySend (s : State) (fn v : Nat) : State :=
  let x := vecOf s fn v
  if x.pending && !x.masked && x.running.isNone && (v == 0 || s.flt.pkg == .serving) && s.flt.pkg != .uncontained then
    let s := issue s { fn := fn, kind := .msix, addr := x.addr, data := leBytes 4 x.data }
    updVec s fn v fun y => { y with pending := false, running := if y.holdoff = 0 then none else some (s.boot.dtc + y.holdoff) }
  else s

/-- A source signals a vector (R362). 0xFFFF names none. -/
def signal (s : State) (fn v : Nat) : State :=
  if v < 128 ∧ s.flt.pkg ≠ .uncontained then trySend (updVec s fn v fun y => { y with pending := true }) fn v else s

/-- Whether function n is enabled: the PF, or a VF below VF Enable's number (R346, R365). -/
def fnEnabled (s : State) (n : Nat) : Bool := decide (n ≤ s.host.vfs)

/-- A change of package state or BOOT_STAGE: the cause bit and vector 0 of every enabled function (R427, R493). -/
def stateChanged (s : State) : State :=
  (List.range 16).foldl (fun t n =>
    if fnEnabled t n then signal (updFn t n fun f => { f with causeState := true }) n 0 else t) s

/-- A new boot stage (R493). -/
def setStage (s : State) (st : BootStage) : State :=
  stateChanged { s with boot := { s.boot with stage := st } }

/-- A new package state (R427): from UNCONTAINED on nothing is signalled. -/
def setPkg (s : State) (p : PkgState) : State :=
  let t := { s with flt := { s.flt with pkg := p } }
  if p == .uncontained then t else stateChanged t

/-! ### Messages (R350-R357) -/

/-- Whether firmware takes messages (R353, R473, R477, R483). -/
def fwServes (s : State) : Bool :=
  match s.boot.stage with
  | .fwStart => true
  | .hbmTrain => true
  | .bist => true
  | .kat => true
  | .serving => true
  | _ => false

/-- The submission queue q of a function. -/
def sqOf (s : State) (fn q : Nat) : Option Sq := (fnOf s fn).sqs.find? fun x => x.qid == q

/-- The submission queue q of a function changed. -/
def updSq (s : State) (fn q : Nat) (f : Sq → Sq) : State :=
  updFn s fn fun x => { x with sqs := x.sqs.map fun y => if y.qid == q then f y else y }

/-- The completion queue q of a function. -/
def cqOf (s : State) (fn q : Nat) : Option Cq := (fnOf s fn).cqs.find? fun x => x.qid == q

/-- The completion queue q of a function changed. -/
def updCq (s : State) (fn q : Nat) (f : Cq → Cq) : State :=
  updFn s fn fun x => { x with cqs := x.cqs.map fun y => if y.qid == q then f y else y }

/-- The message that waits at a function's mailbox or at the head of a queue's fetched entries (R350, R356, R377). -/
def waitingMsg (s : State) (fn : Nat) (via : Via) : Option Bytes :=
  if !fwServes s || (fnOf s fn).flr.isSome then none
  else match via with
  | .mailbox =>
    let m := (fnOf s fn).mbox
    if m.st == .busy && !m.taken then some m.cmd else none
  | .sq q =>
    match sqOf s fn q with
    | some x => if s.flt.pkg == .serving then x.fetched.head? else none
    | none => none

/-- Where messages of a function may wait: its mailbox, then its submission queues in ascending id (R356). -/
def viasOf (s : State) (fn : Nat) : List Via := .mailbox :: (fnOf s fn).sqs.map fun x => .sq x.qid

/-- Where a function's next message waits (R356). -/
def firstVia (s : State) (fn : Nat) : Option Via := (viasOf s fn).find? fun v => (waitingMsg s fn v).isSome

/-- The function that firmware serves next: the first with a message waiting after the one served last, cyclically (R356). -/
def fnTurn (s : State) : Option Nat :=
  ((List.range 16).map fun i => (match s.host.lastFn with | some f => f + 1 + i | none => i) % 16).find? fun n => (firstVia s n).isSome

/-- The message firmware takes next, if it waits there: functions are served round-robin, and within one the mailbox comes before the
queues (R356). -/
def frontMsg (s : State) (fn : Nat) (via : Via) : Option Bytes :=
  if fnTurn s = some fn ∧ firstVia s fn = some via then waitingMsg s fn via else none

/-- A message after it has been taken: its bytes and its context (R350). -/
structure Taken where
  cmd : Bytes
  ctx : MsgCtx
  /-- the function that sent it -/
  fn : Nat
  deriving DecidableEq, Repr

/-- ACCEPT_DTC: the DTC, or one above the last one given (R350). -/
def acceptStamp (s : State) : Nat := max s.boot.dtc (s.host.lastAccept + 1)

/-- The context of a 64-byte command from an origin (Table HST-6). -/
def ctxOf (o : Origin) (cmd : Bytes) (accept : Nat) : MsgCtx :=
  { origin := o, opcode := rd cmd 0 2, cid := rd cmd 2 2, accept := accept, tenant := rd cmd 4 2, part := rd cmd 6 1 }

/-- The front message of a function taken: it leaves its slot or queue and gets its ACCEPT_DTC (R350). -/
def takeMsg (s : State) (fn : Nat) (via : Via) (cmd : Bytes) : State × Taken :=
  let a := acceptStamp s
  let t := { s with host := { s.host with lastAccept := a, lastFn := some fn } }
  match via with
  | .mailbox =>
    (updFn t fn fun f => { f with mbox := { f.mbox with taken := true } }, { cmd := cmd, ctx := ctxOf (.mbox fn) cmd a, fn := fn })
  | .sq q =>
    let cq := match sqOf s fn q with | some x => x.cqid | none => 0
    (updSq t fn q fun x => { x with fetched := x.fetched.drop 1 }, { cmd := cmd, ctx := ctxOf (.queue fn q cq) cmd a, fn := fn })

/-- A response (Table HST-7). -/
def respBytes (ctx : MsgCtx) (code sqid phase sqHead : Nat) (body : Bytes) : Bytes :=
  leBytes 2 ctx.opcode ++ leBytes 2 ctx.cid ++ leBytes 2 code ++ leBytes 1 sqid ++ leBytes 1 phase ++ leBytes 8 ctx.accept ++
    leBytes 4 sqHead ++ zeroBytes 4 ++ slice body 0 40

/-- A completion entry written into a CQ: the entry, PIDX, the vector (R357). -/
def cqPost (s : State) (fn cq : Nat) (entry : Nat → Bytes) : State :=
  match cqOf s fn cq with
  | none => s
  | some c =>
    let i := c.pidx
    let s := issue s { fn := fn, kind := .cqEntry, addr := c.base + 64 * (i % 2 ^ c.log2), data := entry (phaseBit i c.log2) }
    let s := issue s { fn := fn, kind := .cqPidx, addr := c.ctrl, data := leBytes 4 ((i + 1) % 2 ^ 32) }
    signal (updCq s fn cq fun x => { x with pidx := (i + 1) % 2 ^ 32, reserved := x.reserved - 1 }) fn c.vector

/-- A response written to the register mailbox: RSP, then STATE DONE, then vector 0 (R353). -/
def mboxRespond (s : State) (fn : Nat) (rsp : Bytes) : State :=
  signal (updFn s fn fun f => { f with mbox := { f.mbox with rsp := rsp, st := .done, taken := false }, causeMbox := true }) fn 0

/-- A message completes with a code's value and a body (R351, R377, R364). -/
def respondNum (s : State) (ctx : MsgCtx) (code : Nat) (body : Bytes) : State :=
  match ctx.origin with
  | .mbox fn =>
    if (fnOf s fn).flr.isSome then s else mboxRespond s fn (respBytes ctx code 0xFF 0 0 body)
  | .queue fn q cq =>
    if s.flt.pkg != .serving || (fnOf s fn).flr.isSome then s
    else
      let head := match sqOf s fn q with | some x => x.head | none => 0
      cqPost s fn cq fun ph => respBytes ctx code q ph (head % 2 ^ 32) body
  | .link port fn =>
    portSend s port 0 (linkHeader 0x05 0x01 72 0xFF 0 0 0 0 ++ leBytes 2 fn ++ zeroBytes 6 ++
      respBytes ctx code 0xFF 0 0 body)
  | .board => s

/-- A message completes with a code and a body (R351). -/
def respond (s : State) (ctx : MsgCtx) (code : Code) (body : Bytes) : State := respondNum s ctx (codeVal code) body

/-- A response without a body. -/
def refuse (s : State) (ctx : MsgCtx) (code : Code) : State := respond s ctx code []

/-- A message class of Table HST-2. -/
inductive MsgClass where
  | queue
  | attestation
  | tenant
  | admin
  deriving DecidableEq, Repr

/-- The class of an opcode (Table HST-2, Table MSG-1). -/
def classOf : Nat → Option MsgClass
  | 0x0001 => some .queue
  | 0x0002 => some .queue
  | 0x0010 => some .admin
  | 0x0011 => some .admin
  | 0x0012 => some .admin
  | 0x0013 => some .admin
  | 0x0014 => some .admin
  | 0x0020 => some .tenant
  | 0x0021 => some .tenant
  | 0x0030 => some .admin
  | 0x0031 => some .tenant
  | 0x0040 => some .tenant
  | 0x0041 => some .tenant
  | 0x0050 => some .tenant
  | 0x0051 => some .tenant
  | 0x0052 => some .tenant
  | 0x0053 => some .tenant
  | 0x0060 => some .tenant
  | 0x0061 => some .tenant
  | 0x0062 => some .tenant
  | 0x0070 => some .tenant
  | 0x0071 => some .tenant
  | 0x0080 => some .admin
  | 0x0081 => some .admin
  | 0x0082 => some .admin
  | 0x0083 => some .admin
  | 0x0090 => some .attestation
  | _ => none

/-- Whether the PARTITION field of an opcode names a partition (Table HST-6, Table MSG-1). -/
def partScoped (op : Nat) : Bool := decide (0x0010 ≤ op ∧ op ≤ 0x0071) && op != 0x0014 && op != 0x0070

/-- Whether a message is taken before SERVING (R477). -/
def bootOk (op : Nat) : Bool :=
  op == 0x0001 || op == 0x0002 || op == 0x0090 || op == 0x0070 || op == 0x0014 || op == 0x0081 || op == 0x0080

/-- The tenant bound to a VF (R341). -/
def boundTenant (s : State) (fn : Nat) : Option Tenant :=
  if fn = 0 then none else s.tenants.find? fun t => t.vf == fn

/-- Checks 1 to 4 of R350, then R477: the code of the first that fails. -/
def gateCode (s : State) (m : Taken) : Option Code :=
  let op := m.ctx.opcode
  match classOf op with
  | none => some .invalidOpcode
  | some cls =>
    let b := boundTenant s m.fn
    let tenantBad := match cls with
      | .tenant => (match b with | some t => m.ctx.tenant != t.id | none => false)
      | _ => m.ctx.tenant != 0
    let partBad :=
      if partScoped op then (match cls, b with
        | .tenant, some t => m.ctx.part != t.part
        | _, _ => decide (7 < m.ctx.part))
      else m.ctx.part != 0
    let permitted := match cls with
      | .queue => true
      | .attestation => true
      | .tenant => m.fn == 0 || b.isSome
      | .admin => m.fn == 0
    let qOk := m.fn == 0 && (op == 0x0083 || op == 0x0081 || op == 0x0080) || (op == 0x0062 && rd m.cmd 16 8 == 0)
    if rd m.cmd 7 1 != 0 || tenantBad || partBad then some .invalidField
    else if !permitted then some .notPermitted
    else if s.flt.pkg != .serving && !qOk then some .deviceQuarantined
    else if s.boot.stage != .serving && s.flt.pkg == .serving && !bootOk op then some .wrongState
    else none

/-- A message of an opcode (and, where it distinguishes rows, a sub-opcode) taken and run: its core decides what follows
the checks of R350. Where no such message is at the front, nothing happens (log 2). -/
def withMsg (s : State) (fn : Nat) (via : Via) (isRow : Bytes → Bool) (core : State → Taken → State) : State :=
  match frontMsg s fn via with
  | none => s
  | some cmd =>
    if !isRow cmd then s
    else
      let t := takeMsg s fn via cmd
      match gateCode t.1 t.2 with
      | some c => refuse t.1 t.2.ctx c
      | none => core t.1 t.2

/-- The opcode of a command. -/
def isOp (op : Nat) (cmd : Bytes) : Bool := rd cmd 0 2 == op

/-- The opcode of a command and a byte of its body. -/
def isOp2 (op off v : Nat) (cmd : Bytes) : Bool := rd cmd 0 2 == op && rd cmd off 1 == v

/-- A message row: its meaning on the state, with no effect in UNCONTAINED. -/
def msgRow (s : State) (fn : Nat) (via : Via) (isRow : Bytes → Bool) (core : State → Taken → State) : Out :=
  inRange fn 16 (guarded s (withMsg s fn via isRow core))

/-- Whether every byte of a command's body outside the fields listed is zero (R371). -/
def bodyZero (cmd : Bytes) (fields : List (Nat × Nat)) : Bool :=
  (List.range 56).all fun i => cmd.getD (8 + i) 0 == 0 || fields.any fun f => decide (f.1 ≤ 8 + i ∧ 8 + i < f.1 + f.2)

/-! ### HBM frames (R133, R238, R243) -/

/-- The partition a frame's granule is assigned to. -/
def frameIn (it : Items) (n : Nat) : Bool := decide (16384 * it.hbmBase ≤ n ∧ n < 16384 * (it.hbmBase + it.hbmCount))

/-- The entries of a partition's frames that are not plain free. -/
def framesOf (s : State) (p : Nat) : List Frame :=
  let it := (partOf s p).items
  if (partOf s p).st == .disabled then [] else s.frames.filter fun f => frameIn it f.no

/-- Frames of a partition in a class other than free (R133). -/
def classCount (s : State) (p : Nat) (c : FrameClass) : Nat := ((framesOf s p).filter fun f => f.cls == c).length

/-- Quota frames reserved and not taken (R132). -/
def quotaCount (s : State) (p : Nat) : Nat := sumNat ((s.reqs.filter fun q => q.part == p).map (·.quota))

/-- The frames of a partition (R238). -/
def frameTotal (s : State) (p : Nat) : Nat := if (partOf s p).st == .disabled then 0 else 16384 * (partOf s p).items.hbmCount

/-- Frames of the free class, unusable ones included (R133, R255). -/
def freeCount (s : State) (p : Nat) : Nat :=
  frameTotal s p - ((framesOf s p).filter fun f => f.cls != .free).length - quotaCount s p

/-- Usable free frames (R255). -/
def usableFree (s : State) (p : Nat) : Nat :=
  freeCount s p - ((framesOf s p).filter fun f => f.cls == .free && f.unusable).length

/-- Frame entry f kept in order. -/
def putFrame (s : State) (f : Frame) : State :=
  { s with frames := insertBy (·.no) f (s.frames.filter fun g => g.no != f.no) }

/-- Frame n changed. -/
def updFrame (s : State) (n : Nat) (f : Frame → Frame) : State :=
  { s with frames := s.frames.map fun g => if g.no == n then f g else g }

/-- The entry of frame n. -/
def frameOf (s : State) (n : Nat) : Option Frame := s.frames.find? fun f => f.no == n

/-- The first usable free frame at or above n; the fuel is the number of frames left (log 12). -/
def firstFree (fs : List Frame) : Nat → Nat → Option Nat
  | 0, _ => none
  | k + 1, n => if fs.any fun f => f.no == n && (f.cls != .free || f.unusable) then firstFree fs k (n + 1) else some n

/-- One usable free frame of a partition opened for an owner in a class, in transit until sealed (R133, R243, R244). -/
def openFrame (s : State) (p : Nat) (cls : FrameClass) (o : Owner) : Option (Nat × State) :=
  let it := (partOf s p).items
  let fs := framesOf s p
  match firstFree fs (min (16384 * it.hbmCount) (fs.length + 1)) (16384 * it.hbmBase) with
  | some n =>
    if n < 16384 * (it.hbmBase + it.hbmCount) then
      let seen := match frameOf s n with | some f => f.corrected | none => 0
      some (n, putFrame s { no := n, cls := cls, owner := o, sealed := false, written := 0, digest := [], corrected := seen, unusable := false })
    else none
  | none => none

/-- k frames opened, or none of them. -/
def openFrames (s : State) (p : Nat) (cls : FrameClass) (o : Owner) : Nat → Option (List Nat × State)
  | 0 => some ([], s)
  | k + 1 =>
    match openFrame s p cls o with
    | none => none
    | some (n, t) =>
      match openFrames t p cls o k with
      | none => none
      | some (ns, u) => some (n :: ns, u)

/-- A frame sealed with its bytes' digest, and moved to its class (R243, R245). -/
def sealFrame (s : State) (n : Nat) (cls : FrameClass) (bs : Bytes) : State :=
  updFrame s n fun f => { f with cls := cls, sealed := true, written := 128, digest := sha256 (slice bs 0 65536) }

/-- A frame open again with its first k granules written (R150; a park given up, log 75). -/
def reopenFrame (s : State) (n k : Nat) (cls : FrameClass) : State :=
  updFrame s n fun f => { f with cls := cls, sealed := false, written := k, digest := [] }

/-- A frame back on the free list; one found bad, or with corrected errors in 3 words within a pass, is unusable (R247, R255,
R256). A frame that is free already stays as it is. -/
def freeFrame (s : State) (n : Nat) : State :=
  match frameOf s n with
  | none => s
  | some f =>
    if f.cls == .free then s
    else if f.unusable || decide (3 ≤ f.corrected) then
      updFrame s n fun g =>
        { g with cls := .free, owner := .nobody, sealed := false, written := 0, digest := [], corrected := 0, unusable := true }
    else { s with frames := s.frames.filter fun g => g.no != n }

/-- The stack of a frame (R237). -/
def stackOf (s : State) (f : Nat) : Nat := f % nStacks s

/-- What a Device Physical Address names (Table MEM-1). -/
inductive Place where
  /-- a cluster and a byte of its store -/
  | clusterStore (c off : Nat)
  | hubStore (off : Nat)
  /-- a stack, a frame of it, and a byte of the frame (R237) -/
  | hbm (stack frame off : Nat)
  /-- a window descriptor and a byte of the window (R239) -/
  | window (d off : Nat)
  deriving DecidableEq, Repr

/-- The place of a Device Physical Address; none is refused: a reserved range, or that of a die or stack the part does not have
(R236). -/
def placeOf (s : State) (a : Nat) : Option Place :=
  if a < 0x30000000 then (if a / 0x400000 < nClusters s then some (.clusterStore (a / 0x400000) (a % 0x400000)) else none)
  else if a < 0x34000000 then some (.hubStore (a - 0x30000000))
  else if a < 0x1000000000 then none
  else if a < 0x5800000000 then
    (let f := (a - 0x1000000000) / 65536
     if f < nFrames s then some (.hbm (stackOf s f) (f / nStacks s) ((a - 0x1000000000) % 65536)) else none)
  else if a < 0x100000000000 then none
  else if a < 0x300000000000 then some (.window ((a - 0x100000000000) / 2 ^ 36) ((a - 0x100000000000) % 2 ^ 36))
  else none

/-- The address of a frame (R237). -/
def frameDpa (f : Nat) : Nat := 0x1000000000 + 65536 * f

/-- A command that names an HBM frame: its effect with the frame's stack, and a fault where the part has no such frame (R236, R237;
log 2). -/
def onFrame (s : State) (f : Nat) (t : Nat → State) : Out :=
  match placeOf s (frameDpa f) with
  | some (.hbm h _ _) => .next (t h)
  | _ => .fault .noSuchUnit

/-- Whether a stack has work for the Sinter Engine: granules handed over, a frame in transit that is not sealed, or a transfer whose
frames are not known yet (R244, R245). -/
def sealWaits (s : State) (h : Nat) : Bool :=
  s.parts.any (fun p => p.load.any (fun l => !l.ready) || p.handed.any fun r => stackOf s r.frame == h) ||
    s.frames.any (fun f => !f.sealed && (f.cls == .transit || f.written == 128) && stackOf s f.no == h) ||
    s.reqs.any fun q => q.conv == .resuming && q.outcome.isNone

/-- A Sinter run on a stack ends: its permit goes back unless another whole frame of the stack waits (R245). -/
def runEnds (s : State) (h : Nat) : State :=
  if sealWaits s h || !s.gov.permits.any (fun p => p.req == 392 + h && p.cls == .sinter && p.delivered) then s
  else { s with gov := govDrop s.gov (392 + h) .sinter }

/-- The Sinter runs on the stacks of some frames end (R245). -/
def endRuns (s : State) (ns : List Nat) : State := ((ns.map (stackOf s)).eraseDups).foldl runEnds s

/-- Frames back on the free list; granules handed over for them are not written any more, and a Sinter run that filled them ends
(R246). -/
def freeFrames (s : State) (ns : List Nat) : State :=
  let s := { s with parts := s.parts.map fun p : Part => { p with handed := p.handed.filter fun r => !ns.contains r.frame } }
  endRuns (ns.foldl freeFrame s) ns

/-- A Sinter run on a frame's stack asks for its permit (R245, R411). -/
def askSinter (s : State) (f : Nat) : State :=
  if s.gov.permits.any (fun p => p.req == 392 + stackOf s f && p.cls == .sinter) then s
  else { s with gov := govAsk s.gov (392 + stackOf s f) .sinter 4 s.boot.dtc }

/-- Every stack's Sinter Engine asks for its permit: a transfer whose frames are taken as it goes on. -/
def askStacks (s : State) : State := (List.range (nStacks s)).foldl askSinter s

/-- Granules of a partition handed to the Sinter Engine, in order (R128, R129, R293). -/
def handRuns (s : State) (p : Nat) (rs : List Run) : State :=
  rs.foldl (fun t r => askSinter t r.frame) (updPart s p fun x => { x with handed := x.handed ++ rs })

/-- The runs that fill some frames from their first granule to their last. -/
def wholeRuns (ns : List Nat) : List Run := ns.map fun n => { frame := n, upto := 128, layer := none }

/-- Every frame of an owner in a partition freed. -/
def freeOwner (s : State) (p : Nat) (o : Owner) : State :=
  freeFrames s (((framesOf s p).filter fun f => f.owner == o).map (·.no))

/-! ### Partitions -/

/-- The clusters of a partition's set, ascending (R14, R266). -/
def clusterSet (it : Items) : List Nat := (List.range 192).filter fun c => bit it.groups (c / 8)

/-- Clusters per member. -/
def partClusters (it : Items) : Nat := (clusterSet it).length

/-- The slot that has a role. -/
def slotOf (p : Part) (r : Role) : Option Nat := (p.roles.zipIdx.find? fun e => e.1 == r).map (·.2)

/-- The model in a slot. -/
def modelAt (p : Part) (i : Nat) : Option Model := (p.slots.getD i none)

/-- The model that holds a role. -/
def modelOf (p : Part) (r : Role) : Option Model :=
  match slotOf p r with
  | some i => modelAt p i
  | none => none

/-- The slot that holds a bound model (R273). -/
def slotOfKey (p : Part) (k : ModelKey) : Option Nat :=
  (p.slots.zipIdx.find? fun e => match e.1 with | some m => m.key == k | none => false).map (·.2)

/-- The bound model, if it is still resident (R273). -/
def modelOfKey (p : Part) (k : ModelKey) : Option Model :=
  match slotOfKey p k with
  | some i => modelAt p i
  | none => none

/-- The model in a slot changed. -/
def updModel (s : State) (p i : Nat) (f : Model → Model) : State :=
  updPart s p fun x => { x with slots := modAt x.slots i fun m => m.map f }

/-- Whether this package leads a partition: it is block member 0 (R21). -/
def leads (s : State) (p : Nat) : Bool := ownIndex s (partOf s p).items.groupSize == 0

/-- Whether a partition spans other members. -/
def spans (s : State) (p : Nat) : Bool := decide (1 < (partOf s p).items.groupSize)

/-- A conversation state that holds a reference on its models (R273); a park or resume under way holds one (log 25). A request whose
outcome is fixed holds it until it is released (R180). -/
def refsModel (q : Req) : Bool :=
  match q.conv with
  | .parked => false
  | .condensed => false
  | _ => true

/-- The reference count of a model (R273, R276). -/
def modelRefs (s : State) (p : Nat) (k : ModelKey) : Nat :=
  (s.reqs.filter fun q => q.part == p && refsModel q && (q.base == k || q.fb == some k)).length

/-- An UNLOADING model with no reference leaves its slot and its frames are freed (R276). -/
def reapModels (s : State) (p : Nat) : State :=
  (List.range 4).foldl (fun t i =>
    match modelAt (partOf t p) i with
    | some m =>
      if m.unloading && modelRefs t p m.key == 0 then
        updPart (freeOwner t p (.model i)) p fun x => { x with slots := x.slots.set i none }
      else t
    | none => t) s

end Sys2Proof.Machine
end

