-- ==== Sys2Proof/Machine/Notices.lean ====
section
/-! DEFINITION. What the members of a partition that spans them tell one another, so that the leader and the others can compare what
the spec has them compare: items, registrations, models, keys, and how a conversation's transfer ended on each member (03 R82, R89, R100;
05 R151; 10 R271, R300; 13 R368 E, R381; 16 R453; log 24). -/

namespace Sys2Proof.Machine

/-- The function id that marks a FORWARD as one member's notice to another (log 24). -/
def noticeFn : Nat := 0xFFFE

/-- What a notice is about. -/
inductive NoticeKind where
  /-- the partition: its state and items -/
  | part
  /-- an adapter by its index -/
  | adapter
  /-- the model of a slot -/
  | model
  /-- a tenant key by tenant and generation -/
  | key
  /-- the transfer of a park or resume, by handle -/
  | work
  /-- a request ended out of a step by the leader, by handle -/
  | ended
  /-- a tensor that a model of the partition now reduces with XP96 (R48) -/
  | tensor
  /-- a member asks the leader to pre-empt the partition's attempt for FW_ACTIVATE (R291) -/
  | quiesce
  /-- every rank of a member stands at its cheap point and the report is CLEAN (R293), by attempt -/
  | cheap
  /-- a request cut at a stamp by the function-level reset of its ring's owner, by handle (R364) -/
  | cut
  /-- a partition reset: asked of the leader (key 0), or relayed by it with its stamp (key 1) (R481) -/
  | reset
  deriving DecidableEq, Repr

/-- The code of a kind on the link (log 24). -/
def NoticeKind.code : NoticeKind → Nat
  | .part => 1
  | .adapter => 2
  | .model => 3
  | .key => 4
  | .work => 5
  | .ended => 6
  | .tensor => 7
  | .quiesce => 8
  | .cheap => 9
  | .cut => 10
  | .reset => 11

/-- A notice sent to every other member of a partition that spans g of them. -/
def tell (s : State) (p g : Nat) (k : NoticeKind) (key : Nat) (body : Bytes) : State :=
  sendOthers s g 0 (linkHeader 0x05 0x01 72 p 0 0 0 0 ++ leBytes 2 noticeFn ++ leBytes 1 body.length ++ zeroBytes 4 ++
    leBytes 1 k.code ++ leBytes 8 key ++ slice body 0 56)

/-- A notice in place of an earlier one about the same object. -/
def hear (s : State) (n : Notice) : State :=
  let rest := s.notices.filter fun o => !(o.member == n.member && o.part == n.part && o.kind == n.kind && o.key == n.key)
  { s with notices := if n.body.isEmpty then rest else rest ++ [n] }

/-- What the member with a group index last told about an object. -/
def told (s : State) (member p : Nat) (k : NoticeKind) (key : Nat) : Option Bytes :=
  (s.notices.find? fun o => o.member == member && o.part == p && o.kind == k.code && o.key == key).map (·.body)

/-- This member's own state of an object told to the others, unless they know it. -/
def announce (s : State) (p g : Nat) (k : NoticeKind) (key : Nat) (body : Bytes) : State :=
  if told s s.group.index p k key == (if body.isEmpty then none else some body) then s
  else tell (hear s { member := s.group.index, part := p, kind := k.code, key := key, body := body }) p g k key body

/-- Whether every other member of a partition's block has told something that f accepts. -/
def othersTold (s : State) (p : Nat) (k : NoticeKind) (key : Nat) (f : Bytes → Bool) : Bool :=
  let g := (partOf s p).items.groupSize
  (List.range g).all fun j => j == ownIndex s g ||
    (match told s (blockMember s g j) p k key with | some b => f b | none => false)

/-- What the leader of a block of size g has told about an object; none at the leader itself. -/
def leaderTold (s : State) (p g : Nat) (k : NoticeKind) (key : Nat) : Option Bytes :=
  if ownIndex s g = 0 then none else told s (blockMember s g 0) p k key

/-! ### What is compared -/

/-- The items of a partition that every member must hold alike, and its cluster and granule counts (R271). -/
def itemBytes (it : Items) : Bytes :=
  leBytes 1 it.groupSize ++ leBytes 1 (b2n it.time) ++ leBytes 8 it.quantum ++ leBytes 1 (b2n it.deadline) ++ leBytes 1 it.decay ++
    leBytes 1 (b2n it.full) ++ leBytes 1 (match it.preempt with | .kill => 0 | .shelve => 1 | .auto => 2) ++ leBytes 4 it.rowBudget ++
    leBytes 4 it.chunk ++ leBytes 4 it.fbTokens ++ leBytes 4 it.twin ++ leBytes 4 it.tail ++ leBytes 4 it.stage ++ leBytes 8 it.pool ++
    it.rates.flatMap (fun r => leBytes 8 r.1 ++ leBytes 8 r.2) ++ leBytes 1 (partClusters it) ++ leBytes 2 it.hbmCount

/-- The items a partition has, or will have from its next freeze instant. -/
def upcoming (x : Part) : Items := match x.pendItems with | some it => it | none => x.items

/-- The code of a partition's state (Table REG-7). -/
def partVal : PartState → Nat
  | .disabled => 0
  | .active => 1
  | .draining => 2
  | .aborting => 3

/-- The code of a role. -/
def roleVal : Role → Nat
  | .base => 0
  | .fallback => 1
  | .condenser => 2
  | .spare => 3

/-- What is told of a partition: state (4 for a member that has finished disabling it), block size, the digest of its items, its roles. -/
def partBody (x : Part) : Bytes :=
  leBytes 1 (if x.disable.any (·.done) then 4 else partVal x.st) ++ leBytes 1 x.items.groupSize ++ sha256 (itemBytes (upcoming x)) ++ x.roles.flatMap fun r => leBytes 1 (roleVal r)

/-- What is told of an adapter: resident, RETIRING and BAD, then Owner, Companion and Digest (R82, R89, R90, R100). -/
def adapterBody (a : Adapter) : Bytes :=
  leBytes 1 (b2n (a.st == .resident) + 2 * b2n a.retiring + 4 * b2n a.bad) ++ leBytes 2 a.owner ++ leBytes 2 (a.companion.getD 0xFFFF) ++ a.digest

/-- What is told of a model: its digests and level (R381). -/
def keyBody (k : ModelKey) : Bytes :=
  sha256 (k.weights ++ k.program ++ leBytes 1 (match k.level with | .nlX1 => 1 | .nlT1 => 2))

/-- KCV of a tenant key (R453). -/
def kcv (k : Bytes) : Bytes := slice (hmac k (ascii "SWKC")) 0 8

/-- The key under which a tenant key is told. -/
def keyKey (tenant gen : Nat) : Nat := tenant * 2 ^ 32 + gen

/-- Everything this member tells of a partition that spans others. -/
def tellings (s : State) (p : Nat) : List (NoticeKind × Nat × Bytes) :=
  let x := partOf s p
  [(.part, 0, partBody x)] ++ ((s.adapters.filter fun a => a.part == p).map fun a => (.adapter, a.idx, adapterBody a)) ++
    ((x.slots.zipIdx).filterMap fun e => e.1.map fun m => (.model, e.2, keyBody m.key)) ++
    (s.tenants.filter fun t => t.part == p).flatMap fun t => t.keys.map fun k => (.key, keyKey t.id k.gen, kcv k.key)

/-- What this member has told of a partition and what is no longer so. -/
def untold (s : State) (p : Nat) (now : List (NoticeKind × Nat × Bytes)) : List (NoticeKind × Nat) :=
  [NoticeKind.part, .adapter, .model, .key].flatMap fun k =>
    ((s.notices.filter fun o => o.member == s.group.index && o.part == p && o.kind == k.code).map fun o => (k, o.key)).filter fun e =>
      !now.any fun n => n.1 == e.1 && n.2.1 == e.2

/-- Every change of a partition told to the members it spans; of one that is gone, that it is gone. -/
def announcePart (s : State) (p : Nat) : State :=
  let x := partOf s p
  if x.st != .disabled && spans s p then
    let now := tellings s p
    let s := (untold s p now).foldl (fun t e => announce t p x.items.groupSize e.1 e.2 []) s
    now.foldl (fun t e => announce t p x.items.groupSize e.1 e.2.1 e.2.2) s
  else match told s s.group.index p .part 0 with
    | some b => (untold s p []).foldl (fun t e => announce t p (rd b 1 1) e.1 e.2 []) s
    | none => s

/-- Every change of the partitions that span members told to them. -/
def announceAll (s : State) : State := (List.range 8).foldl announcePart s

/-- A member's notices forgotten (R326, R333). -/
def forgetMember (s : State) (i : Nat) : State := { s with notices := s.notices.filter fun o => o.member != i }

/-- What this member has told of its partitions forgotten, so that it is told again to a member that can be reached anew (R326). -/
def retell (s : State) : State := { s with notices := s.notices.filter fun o => !(o.member == s.group.index && decide (o.kind ≤ 4)) }

/-! ### Comparisons of the leader and of a member -/

/-- Whether some items differ from those the leader of the partition has told (R268 check 6, R271). -/
def itemsDiffer (s : State) (p : Nat) (it : Items) : Bool :=
  match leaderTold s p it.groupSize .part 0 with
  | some b => slice b 2 32 != sha256 (itemBytes it)
  | none => false

/-- Whether every member holds a partition ACTIVE, or drains it, with the leader's items (R271, R298). -/
def heldByAll (s : State) (p : Nat) : Bool :=
  !spans s p || othersTold s p .part 0 fun b => (rd b 0 1 == 1 || rd b 0 1 == 2) && slice b 2 32 == sha256 (itemBytes (upcoming (partOf s p)))

/-- Whether every other member that a partition spans has finished disabling it (R300). -/
def othersFinished (s : State) (p : Nat) : Bool :=
  let g := (partOf s p).items.groupSize
  !spans s p || (List.range g).all fun j => j == ownIndex s g ||
    (match told s (blockMember s g j) p .part 0 with | some b => rd b 0 1 == 4 | none => true)

/-- Whether a registration differs in Digest, Owner or Companion from the leader's (R82). -/
def adapterDiffers (s : State) (p i owner : Nat) (companion : Option Nat) (d : Digest) : Bool :=
  match leaderTold s p (partOf s p).items.groupSize .adapter i with
  | some b => slice b 1 36 != leBytes 2 owner ++ leBytes 2 (companion.getD 0xFFFF) ++ slice d 0 32
  | none => false

/-- Whether every other member of a spanning partition has an adapter registered as here, resident and not RETIRING (R82, R89, R100). -/
def adapterEverywhere (s : State) (p : Nat) (a : Adapter) : Bool :=
  !spans s p || othersTold s p .adapter a.idx fun b => rd b 0 1 == 1 && slice b 1 36 == slice (adapterBody a) 1 36

/-- Whether every other member of a spanning partition holds a model, in whichever slot (R381). -/
def modelEverywhere (s : State) (p : Nat) (k : ModelKey) : Bool :=
  let g := (partOf s p).items.groupSize
  !spans s p || (List.range g).all fun j => j == ownIndex s g ||
    (List.range 4).any fun i => told s (blockMember s g j) p .model i == some (keyBody k)

end Sys2Proof.Machine
end

