-- ==== Sys2Proof/Machine/Geyser.lean ====
section
/-! DEFINITION. Geyser rings and capsule journals: entries, records, indexes, interrupts, and the terminal writes of a
request (06, 07). -/

namespace Sys2Proof.Machine

/-! ### Indexes (R162, R166, R187) -/

/-- Entries in use of a ring with p written: p less its last valid CIDX (R166). -/
def ringUsed (r : Ring) (p : Nat) : Nat := (p + (2 ^ 32 - r.cidx % 2 ^ 32)) % 2 ^ 32

/-- The free count of a ring with p entries written (R166). -/
def ringFree (r : Ring) (p : Nat) : Nat := 2 ^ r.log2 - ringUsed r p

/-- Whether a CIDX value read from host memory is valid (R166). -/
def cidxOk (r : Ring) (v : Nat) : Bool :=
  let m := 2 ^ 32
  decide ((r.pidx + (m - v % m)) % m ≤ 2 ^ r.log2) &&
    decide ((v + (m - r.cidx % m)) % m ≤ (r.pidx + (m - r.cidx % m)) % m)

/-- The free count of a request's ring (R166). -/
def recFree (q : Req) : Nat := ringFree q.ring q.ring.pidx

/-- The free count of a request's journal (R187). -/
def jrnFree (q : Req) : Nat := ringFree q.jrn.ring q.jrn.seq

/-! ### Journal entries (R185, R191, R193) -/

/-- A journal entry (Table CAP-3): TYPE, LEN, SEQ, then the payload padded to 56 bytes. -/
def entryBytes (ty len seq : Nat) (body : Bytes) : Bytes :=
  leBytes 2 ty ++ leBytes 2 len ++ leBytes 4 seq ++ slice body 0 56

/-- A DIGEST entry's payload (Table CAP-5, Table CAP-6). -/
def digestEntry (kind : Nat) (d : Digest) : Bytes := leBytes 1 kind ++ zeroBytes 7 ++ slice d 0 32

/-- An EVENT entry's payload (Table CAP-5, Table CAP-7). -/
def eventEntry (kind st arg0 index dtc arg1 : Nat) : Bytes :=
  leBytes 1 kind ++ leBytes 1 st ++ zeroBytes 2 ++ leBytes 4 arg0 ++ leBytes 8 index ++ leBytes 8 dtc ++ leBytes 8 arg1

/-- The SEAL payload for a journal with its present entries (Table CAP-5, R193). -/
def sealEntry (j : Journal) (dtc : Nat) : Bytes :=
  leBytes 4 j.seq ++ zeroBytes 4 ++ leBytes 8 j.tokens ++ leBytes 8 dtc ++ shaFinish j.sha [] (64 * j.seq)

/-- A journal after an entry's bytes. -/
def jrnPush (j : Journal) (ty : Nat) (e : Bytes) : Journal :=
  { j with seq := j.seq + 1, tokens := j.tokens + b2n (ty == 6), sha := shaBlock j.sha e }

/-- Whether a request has a ring and a journal: it is no replay (R199). Every member of a group keeps its counts; the
ring owner alone issues the writes (R160). -/
def writesFor (q : Req) : Bool := q.replay.isNone

/-- A write of a request's ring or journal, issued by the ring owner (R160). -/
def issueFor (s : State) (q : Req) (w : BusWrite) : State := if q.ownsRing then issue s w else s

/-- One entry written to a request's journal (R185). -/
def jrnWrite (s : State) (h ty len : Nat) (body : Bytes) : State :=
  match reqOf s h with
  | none => s
  | some q =>
    if !writesFor q then s
    else
      let e := entryBytes ty len q.jrn.seq body
      let s := issueFor s q { fn := q.fn, kind := .jrnEntry
                              addr := q.jrn.ring.addr + 64 * (q.jrn.seq % 2 ^ q.jrn.ring.log2), data := e }
      updReq s h fun q => { q with jrn := jrnPush q.jrn ty e }

/-- A SEAL written with a write DTC; its SEQ and digest are kept (R193). -/
def jrnSeal (s : State) (h dtc : Nat) : State :=
  match reqOf s h with
  | none => s
  | some q =>
    let j := q.jrn
    updReq (jrnWrite s h 9 56 (sealEntry j dtc)) h fun q =>
      { q with jrn := { q.jrn with lastSeal := some (j.seq, shaFinish j.sha [] (64 * j.seq)) } }

/-- The journal's PIDX written, if entries stand above it (R188). -/
def jrnPidx (s : State) (h : Nat) : State :=
  match reqOf s h with
  | none => s
  | some q =>
    if !writesFor q || q.jrn.ring.pidx == q.jrn.seq % 2 ^ 32 then s
    else
      let p := q.jrn.seq % 2 ^ 32
      let s := issueFor s q { fn := q.fn, kind := .jrnPidx, addr := q.jrn.ring.ctrl, data := leBytes 4 p }
      updReq s h fun q => { q with jrn := { q.jrn with ring := { q.jrn.ring with pidx := p } } }

/-! ### Seals asked for by CAPSULE_EXPORT (R195, R392) -/

/-- The response body of CAPSULE_EXPORT from a request's last SEAL (Table MSG-13). -/
def exportBody (q : Req) : Bytes :=
  match q.jrn.lastSeal with
  | some (n, d) => leBytes 4 n ++ leBytes 4 q.jrn.tokens ++ d
  | none => []

/-- Every CAPSULE_EXPORT pending for a request completed with its last SEAL (R195, R392). -/
def answerExports (s : State) (h : Nat) : State :=
  match reqOf s h with
  | none => s
  | some q =>
    let s := updReq s h fun x => { x with exports := [] }
    q.exports.foldl (fun t c => respond t c .success (exportBody q)) s

/-! ### Out-of-step entries (R187, R189) -/

/-- A bounded free count: lo plus at most w (log 3). -/
def freeWithin (s : State) (lo w : Nat) : Nat × State :=
  let v := freeVal s
  (lo + v.1 % (w + 1), v.2)

/-- The write DTC of an out-of-step write: at most 500 ticks from now, or any later DTC while the link is down (R179,
R189, R340; log 3). -/
def writeStamp (s : State) : Nat × State :=
  if s.host.linkUp then freeWithin s s.boot.dtc 500 else freeStamp s s.boot.dtc

/-- One waiting entry written if that leaves at least 3 free (R187); a SEAL takes its content as it is written. -/
def drainOne (s : State) (h : Nat) (w : WaitEntry) : State :=
  if w.ty == 9 then
    let d := writeStamp s
    answerExports (jrnSeal d.2 h d.1) h
  else jrnWrite s h w.ty w.len w.body

/-- Waiting entries written in cause order while space allows; the fuel is their number. -/
def drainFuel : Nat → State → Nat → State
  | 0, s, _ => s
  | n + 1, s, h =>
    match reqOf s h with
    | none => s
    | some q =>
      match q.jrn.waiting with
      | [] => s
      | w :: ws =>
        if jrnFree q < 4 then s
        else drainFuel n (drainOne (updReq s h fun x => { x with jrn := { x.jrn with waiting := ws } }) h w) h

/-- A request's waiting journal entries written as space allows, then PIDX (R187, R189). -/
def jrnDrain (s : State) (h : Nat) : State :=
  match reqOf s h with
  | none => s
  | some q => jrnPidx (drainFuel q.jrn.waiting.length s h) h

/-- Out-of-step entries of a request joined to those that wait, and written as space allows. -/
def jrnOut (s : State) (h : Nat) (ws : List WaitEntry) : State :=
  jrnDrain (updReq s h fun q => { q with jrn := { q.jrn with waiting := q.jrn.waiting ++ ws } }) h

/-! ### Ring records (R163, R168, R171) -/

/-- A ring record (Table GEY-3). -/
def recordBytes (hdr token next stamp detail cancel : Nat) (d : Digest) (h : Nat) : Bytes :=
  leBytes 4 hdr ++ leBytes 4 token ++ leBytes 8 next ++ leBytes 8 stamp ++ leBytes 4 detail ++ zeroBytes 4 ++
    leBytes 8 cancel ++ slice d 0 16 ++ leBytes 8 h

/-- The interrupt rule of R171 for a ring that has just had records written. -/
def ringIrq (s : State) (h : Nat) (urgent : Bool) : State :=
  match reqOf s h with
  | none => s
  | some q =>
    if q.ownsRing && decide (q.vector < 128) && (urgent || (q.irqRecords != 0 && decide (q.irqRecords ≤ q.irqPend))) then
      signal (updReq s h fun x => { x with irqPend := 0 }) q.fn q.vector
    else s

/-- One record written to a request's ring, then PIDX, then the interrupt (R168, R171); the flags that mark the first
record after something are used up. -/
def ringWrite (s : State) (h : Nat) (f : RecFlags) (token stamp detail cancel : Nat) : State :=
  match reqOf s h with
  | none => s
  | some q =>
    let used := fun x : Req => { x with saturated := false, resumed := false }
    if !writesFor q then updReq s h used
    else
      let i := q.ring.pidx
      let p := (i + 1) % 2 ^ 32
      let s := issueFor s q { fn := q.fn, kind := .ringRecord, addr := q.ring.addr + 64 * (i % 2 ^ q.ring.log2)
                              data := recordBytes (hdrWord f i q.ring.log2) token q.next stamp detail cancel q.digest h }
      let s := issueFor s q { fn := q.fn, kind := .ringPidx, addr := q.ring.ctrl, data := leBytes 4 p }
      let s := updReq s h fun x =>
        { used x with ring := { x.ring with pidx := p }, irqPend := x.irqPend + 1
                      irqFirst := if x.irqPend = 0 then s.boot.dtc else x.irqFirst }
      ringIrq s h (f.turnEnd || f.term != 0)

/-! ### Terminal writes (R173, R179, R188, R189) -/

/-- The record flags of a terminal record without a token (Table GEY-4, R164). -/
def termFlags (q : Req) (t : Term) : RecFlags :=
  { resumed := q.resumed, condensed := q.condensed, dlMiss := false, saturated := q.saturated, fallback := false
    reason := .none, turnEnd := false, term := termVal t, tokenValid := false }

/-- A TERMINAL entry's payload (Table CAP-5). -/
def terminalEntry (q : Req) (t : Term) (detail stamp cancel : Nat) (cut sat : Bool) : Bytes :=
  leBytes 1 (termVal t) ++ leBytes 1 (b2n cut * 4 + b2n sat * 2) ++ zeroBytes 2 ++ leBytes 4 detail ++ leBytes 8 q.next ++
    leBytes 8 stamp ++ leBytes 8 cancel

/-- TERMINAL, final digest and SEAL, with waiting entries cut (R187, R188, R194); exports are answered by that SEAL. -/
def jrnEnd (s : State) (h : Nat) (t : Term) (detail stamp cancel sealDtc : Nat) (sat : Bool) : State :=
  match reqOf s h with
  | none => s
  | some q =>
    let cut := !q.jrn.waiting.isEmpty
    let s := updReq s h fun x => { x with jrn := { x.jrn with waiting := [] } }
    let s := jrnWrite s h 8 32 (terminalEntry q t detail stamp cancel cut sat)
    let s := jrnWrite s h 2 40 (digestEntry 8 q.digest)
    answerExports (jrnPidx (jrnSeal s h sealDtc) h) h

/-- The pending conversation message of a request completed STOPPED (R375). -/
def stopWant (s : State) (h : Nat) : State :=
  match reqOf s h with
  | none => s
  | some q =>
    let s := updReq s h fun x => { x with want := none, wantCtx := none }
    match q.wantCtx with
    | some c => refuse s c .stopped
    | none => s

/-- The retained outcome of a request (R373), newest first, at most 16,384 per partition. -/
def retain (s : State) (h : Nat) (t : Term) (detail : Nat) : State :=
  match reqOf s h with
  | none => s
  | some q =>
    let (n, d) := q.jrn.lastSeal.getD (0, [])
    let e : Ended := { h := h, tenant := q.tenant, term := termVal t, detail := detail, next := q.next
                       cancelAt := q.cancelAt, own := q.ownsRing
                       entries := n, tokens := q.jrn.tokens, digest := d }
    updPart s q.part fun p => { p with outcomes := (e :: p.outcomes).take 16384 }

/-- A tenant's ENDED when a request of it ends (Table PAR-3). -/
def countEnd (s : State) (q : Req) : State := updTenant s q.tenant fun t => { t with ended := satAdd 64 t.ended 1 }

/-- A request's outcome fixed: TERM and DETAIL, its pending message STOPPED (R173, R375). -/
def fixOutcome (s : State) (h : Nat) (t : Term) (detail : Nat) : State :=
  match reqOf s h with
  | none => s
  | some q =>
    if q.outcome.isSome then s
    else stopWant (countEnd (updReq s h fun x => { x with outcome := some (t, detail), queuedAt := none, idleAt := none }) q) h

/-- The CANCEL_STAMP of a request's end (R173). -/
def cancelStamp (q : Req) (t : Term) : Nat :=
  match t, q.cancel with
  | .cancelled, some (st, _) => st
  | _, _ => 0

/-- A request ended out of a step: outcome, journal entries, then its terminal record, all with one write DTC at most
500 ticks after the cause (R178, R179, R189). -/
def endOut (s : State) (h : Nat) (t : Term) (detail : Nat) : State :=
  match reqOf s h with
  | none => s
  | some q =>
    if q.outcome.isSome then s
    else
      let s := fixOutcome s h t detail
      let w := writeStamp s
      let cs := cancelStamp q t
      let s := jrnEnd w.2 h t detail w.1 cs w.1 q.saturated
      let s := ringWrite s h (termFlags q t) 0 w.1 detail cs
      retain s h t detail

/-- A request ended without a terminal record or journal entry (R176, R194). -/
def endSilent (s : State) (h : Nat) : State :=
  match reqOf s h with
  | none => s
  | some q =>
    if q.outcome.isSome then s
    else
      stopWant (countEnd (updReq s h fun x =>
        { x with outcome := some (.withheld, 0), queuedAt := none, idleAt := none, record := none, parking := none
                 jrn := { x.jrn with waiting := [] } }) q) h

/-- A request ended out of a step: its ring's owner writes the record, and every member retains the outcome (R160, R173, R373). Its park
or resume is over. -/
def endHere (s : State) (h : Nat) (t : Term) (detail : Nat) : State :=
  match reqOf s h with
  | none => s
  | some q =>
    if q.outcome.isSome then s
    else
      let s := updReq s h fun x => { x with parking := none, record := none }
      if q.ownsRing then endOut s h t detail
      else
        let s := updReq (fixOutcome s h t detail) h fun x => { x with jrn := { x.jrn with waiting := [] } }
        retain s h t detail

/-- The other members told that the leader ends a request out of a step (log 24). -/
def tellEnd (s : State) (h : Nat) (t : Term) (detail : Nat) : State :=
  match reqOf s h with
  | none => s
  | some q =>
    if spans s q.part && leads s q.part && q.outcome.isNone then
      tell s q.part (partOf s q.part).items.groupSize .ended h (leBytes 1 (termVal t) ++ leBytes 4 detail)
    else s

/-- A request that the leader of its partition ends out of a step, and tells the other members so (R160, R173; log 24). -/
def endTold (s : State) (h : Nat) (t : Term) (detail : Nat) : State := endHere (tellEnd s h t detail) h t detail

/-- Whether a request is live or paused: it has no fixed outcome (R173). -/
def living (q : Req) : Bool := q.outcome.isNone

end Sys2Proof.Machine
end

