-- ==== Sys2Proof/Machine/Numerics.lean ====
section
/-! DEFINITION. Formats, decoding, images, the EAR, rounding, conversions and tile layouts (02 §2-§8, 09 §5). -/

namespace Sys2Proof.Machine

/-- A decoded operand: (−1)^neg × m × 2^x, an infinity, or NaN (R26, R28). -/
inductive FVal where
  | nan
  | inf (neg : Bool)
  | fin (neg : Bool) (m : Nat) (x : Int)
  deriving DecidableEq, Repr

/-- e, w and bias of a floating-point format (Table NUM-1). -/
structure FShape where
  e : Nat
  w : Nat
  b : Int
  deriving DecidableEq, Repr

/-- The shape of each floating-point element format; MX formats take their element's shape (R25, R29). -/
def fshape : Fmt → FShape
  | .fp32 => ⟨8, 23, 127⟩
  | .bf16 => ⟨8, 7, 127⟩
  | .fp16 => ⟨5, 10, 15⟩
  | .e4m3 => ⟨4, 3, 7⟩
  | .mxe4m3 => ⟨4, 3, 7⟩
  | .e5m2 => ⟨5, 2, 15⟩
  | .mxe5m2 => ⟨5, 2, 15⟩
  | .mxfp4 => ⟨2, 1, 1⟩
  | .mxint8 => ⟨0, 7, 0⟩
  | .int8 => ⟨0, 7, 0⟩
  | .int4 => ⟨0, 3, 0⟩

/-- The format a code of Table CLU-15 names. -/
def fmtOfCode : Nat → Option Fmt
  | 0x01 => some .fp32
  | 0x02 => some .bf16
  | 0x03 => some .fp16
  | 0x04 => some .e4m3
  | 0x05 => some .e5m2
  | 0x11 => some .mxfp4
  | 0x12 => some .mxe4m3
  | 0x13 => some .mxe5m2
  | 0x14 => some .mxint8
  | 0x21 => some .int8
  | 0x22 => some .int4
  | _ => none

/-- Whether a format is a block format with E8M0 scales (R29). -/
def isMx : Fmt → Bool
  | .mxfp4 => true
  | .mxe4m3 => true
  | .mxe5m2 => true
  | .mxint8 => true
  | _ => false

/-- The element width in bits (Table MEM-3). -/
def fmtWidth : Fmt → Nat
  | .fp32 => 32
  | .bf16 => 16
  | .fp16 => 16
  | .mxfp4 => 4
  | .int4 => 4
  | _ => 8

/-- The value of an element encoding (R26, R29, R30), block scale not applied. -/
def decode (f : Fmt) (v : Nat) : FVal :=
  match f with
  | .int8 => let i := signed 8 v; .fin (decide (i < 0)) i.natAbs 0
  | .int4 => let i := signed 4 v; .fin (decide (i < 0)) i.natAbs 0
  | .mxint8 => let i := signed 8 v; .fin (decide (i < 0)) i.natAbs (-6)
  | _ =>
    let p := fshape f
    let s := bit v (p.e + p.w)
    let e := v / 2 ^ p.w % 2 ^ p.e
    let m := v % 2 ^ p.w
    let top := 2 ^ p.e - 1
    let special := match f with
      | .e4m3 => e == top && m == 7
      | .mxe4m3 => e == top && m == 7
      | .mxfp4 => false
      | _ => e == top
    let isInf := match f with
      | .e4m3 => false
      | .mxe4m3 => false
      | _ => m == 0
    if special then (if isInf then .inf s else .nan)
    else if e == 0 then .fin s m (1 - p.b - p.w)
    else .fin s (2 ^ p.w + m) (e - p.b - p.w)

/-- An element of a block whose scale byte is x8 (R29). -/
def applyScale (x8 : Nat) (v : FVal) : FVal :=
  if x8 == 0xFF then .nan
  else match v with
    | .fin s m x => .fin s m (x + ((x8 : Int) - 127))
    | v => v

/-- p, emin and the largest finite magnitude as m × 2^q (Table NUM-2). -/
structure OShape where
  p : Nat
  emin : Int
  maxM : Nat
  maxQ : Int
  deriving DecidableEq, Repr

/-- The rounding parameters of an output format (Table NUM-2); the element grid of an MX format (R33). -/
def oshape : Fmt → OShape
  | .fp32 => ⟨24, -126, 2 ^ 24 - 1, 104⟩
  | .bf16 => ⟨8, -126, 255, 120⟩
  | .fp16 => ⟨11, -14, 2047, 5⟩
  | .e4m3 => ⟨4, -6, 14, 5⟩
  | .mxe4m3 => ⟨4, -6, 14, 5⟩
  | .e5m2 => ⟨3, -14, 7, 13⟩
  | .mxe5m2 => ⟨3, -14, 7, 13⟩
  | .mxfp4 => ⟨2, 0, 3, 1⟩
  | .mxint8 => ⟨7, 0, 127, -6⟩
  | .int8 => ⟨7, 6, 127, 0⟩
  | .int4 => ⟨3, 2, 7, 0⟩

/-- The largest finite encoding of an output format with a sign (Table NUM-1). -/
def maxEnc (f : Fmt) (neg : Bool) : Nat :=
  let s := b2n neg
  match f with
  | .fp32 => s * 2 ^ 31 + 0x7F7FFFFF
  | .bf16 => s * 2 ^ 15 + 0x7F7F
  | .fp16 => s * 2 ^ 15 + 0x7BFF
  | .e4m3 => s * 2 ^ 7 + 0x7E
  | .mxe4m3 => s * 2 ^ 7 + 0x7E
  | .e5m2 => s * 2 ^ 7 + 0x7B
  | .mxe5m2 => s * 2 ^ 7 + 0x7B
  | .mxfp4 => s * 8 + 7
  | _ => if neg then 129 else 127

/-- The canonical NaN of a format (Table NUM-1). -/
def nanEnc : Fmt → Nat
  | .fp32 => 0x7FC00000
  | .bf16 => 0x7FC0
  | .fp16 => 0x7E00
  | .e4m3 => 0x7F
  | .e5m2 => 0x7E
  | _ => 0

/-- An infinity of a format that has one (Table NUM-1). -/
def infEnc (f : Fmt) (neg : Bool) : Nat :=
  let s := b2n neg
  match f with
  | .fp32 => s * 2 ^ 31 + 0x7F800000
  | .bf16 => s * 2 ^ 15 + 0x7F80
  | .fp16 => s * 2 ^ 15 + 0x7C00
  | .e5m2 => s * 2 ^ 7 + 0x7C
  | _ => maxEnc f neg

/-- bitlength (R43). -/
def bitLen (n : Nat) : Nat := if n = 0 then 0 else Nat.log2 n + 1

/-- mg × 2^a rounded to nearest, ties to even, at precision p and lowest exponent emin: m and the weight q (R43). -/
def roundMag (p : Nat) (emin : Int) (mg : Nat) (a : Int) : Nat × Int :=
  let e : Int := (bitLen mg : Int) - 1 + a
  let q := max e emin - ((p : Int) - 1)
  if q ≤ a then (mg * 2 ^ (a - q).toNat, q)
  else
    let k := (q - a).toNat
    let m := mg / 2 ^ k
    let r := mg % 2 ^ k
    let h := 2 ^ (k - 1)
    if r > h || (r == h && m % 2 == 1) then (m + 1, q) else (m, q)

/-- Whether m × 2^q exceeds mm × 2^mq. -/
def magGt (m : Nat) (q : Int) (mm : Nat) (mq : Int) : Bool :=
  if mq ≤ q then decide (m * 2 ^ (q - mq).toNat > mm) else decide (m > mm * 2 ^ (mq - q).toNat)

/-- The encoding of m × 2^q, a value of the grid of f (R26). -/
def encodeMag (f : Fmt) (neg : Bool) (m : Nat) (q : Int) : Nat :=
  let o := oshape f
  let s := fshape f
  match f with
  | .mxint8 => if neg then toBits 8 (-(m : Int)) else m
  | _ =>
    let sg := b2n neg * 2 ^ (s.e + s.w)
    -- a carry out of the significand moves to the next exponent
    let m' := if m ≥ 2 ^ o.p then m / 2 else m
    let q' := if m ≥ 2 ^ o.p then q + 1 else q
    if m' < 2 ^ (o.p - 1) then sg + m'
    else sg + (q' + ((o.p : Int) - 1) + s.b).toNat * 2 ^ s.w + (m' - 2 ^ (o.p - 1))

/-- (−1)^neg × mg × 2^a to format f under R31 and R43, with the SATURATED flag. -/
def roundTo (f : Fmt) (neg : Bool) (mg : Nat) (a : Int) : Nat × Bool :=
  if mg = 0 then (encodeMag f neg 0 0, false)
  else
    let o := oshape f
    let r := roundMag o.p o.emin mg a
    if magGt r.1 r.2 o.maxM o.maxQ then (maxEnc f neg, true) else (encodeMag f neg r.1 r.2, false)

/-- round_out of R43 on a sum of images. -/
def roundOut (f : Fmt) (sum : Int) (a : Int) : Nat × Bool :=
  if sum = 0 then (0, false) else roundTo f (decide (sum < 0)) sum.natAbs a

/-- The image of a finite product against anchor a (R36). -/
def image (neg : Bool) (m : Nat) (x a : Int) : Int :=
  let k := x - a
  if 0 ≤ k then (if neg then -((m * 2 ^ k.toNat : Nat) : Int) else ((m * 2 ^ k.toNat : Nat) : Int))
  else
    let d := 2 ^ (-k).toNat
    let q := m / d
    if neg then (if m % d = 0 then -(q : Int) else -((q : Int) + 1)) else (q : Int)

/-- An EAR with nothing in it (R37). -/
def EarEl.clear : EarEl := { sum := 0, ind := 0, scale := none, terms := [] }

/-- A finite product's image added under anchor a, or its indicator set (R37). -/
def earAdd (a : Int) (e : EarEl) (neg : Bool) (m : Nat) (x : Int) : EarEl :=
  let i := image neg m x a
  if (2 : Int) ^ 74 ≤ |i| then { e with ind := setBit e.ind (if neg then 1 else 0) } else { e with sum := e.sum + i }

/-- Two sign bits as a product's sign (R35). -/
def sgn2 (a b : Bool) : Bool := a != b

/-- One product of two operands into an EAR (R37). With no anchor yet (SCALE-DERIVED) a finite product is kept. -/
def earProduct (a : Option Int) (e : EarEl) (u v : FVal) : EarEl :=
  match u, v with
  | .nan, _ => { e with ind := setBit e.ind 2 }
  | _, .nan => { e with ind := setBit e.ind 2 }
  | .inf s, .inf t => { e with ind := setBit e.ind (if sgn2 s t then 1 else 0) }
  | .inf s, .fin t m _ => if m = 0 then { e with ind := setBit e.ind 2 } else { e with ind := setBit e.ind (if sgn2 s t then 1 else 0) }
  | .fin s m _, .inf t => if m = 0 then { e with ind := setBit e.ind 2 } else { e with ind := setBit e.ind (if sgn2 s t then 1 else 0) }
  | .fin s m x, .fin t n y =>
    match a with
    | some a => earAdd a e (sgn2 s t) (m * n) (x + y)
    | none => { e with terms := e.terms ++ [(sgn2 s t, m * n, x + y)] }

/-- The anchor of a SCALE-DERIVED element (R42 step 3). -/
def scaleAnchor (m delta : Int) : Int := max (-32768) (min 32767 (m + delta))

/-- An element whose anchor is now known: the kept products enter (R42). -/
def earSettle (a : Int) (e : EarEl) : EarEl :=
  e.terms.foldl (fun acc t => earAdd a acc t.1 t.2.1 t.2.2) { e with terms := [] }

/-- The result of an EAR in format f (R39). -/
def earResult (f : Fmt) (a : Int) (e : EarEl) : Nat × Bool :=
  if bit e.ind 2 || (bit e.ind 0 && bit e.ind 1) then (nanEnc f, false)
  else if bit e.ind 0 then (maxEnc f false, true)
  else if bit e.ind 1 then (maxEnc f true, true)
  else roundOut f e.sum a

/-! ### Conversions -/

/-- An FP32 value converted to a narrower format (R32). -/
def convert (f : Fmt) (v : W32) : Nat × Bool :=
  match decode .fp32 v.toNat with
  | .nan => (nanEnc f, false)
  | .inf s => match f with
    | .e4m3 => (maxEnc .e4m3 s, true)
    | f => (infEnc f s, false)
  | .fin s m x => roundTo f s m x

/-- The exact product of two values rounded to f (R523). -/
def roundProduct (f : Fmt) (u v : FVal) : Nat × Bool :=
  match u, v with
  | .nan, _ => (nanEnc f, false)
  | _, .nan => (nanEnc f, false)
  | .inf s, .inf t => match f with
    | .e4m3 => (maxEnc f (sgn2 s t), true)
    | f => (infEnc f (sgn2 s t), false)
  | .inf s, .fin t m _ => if m = 0 then (nanEnc f, false) else match f with
    | .e4m3 => (maxEnc f (sgn2 s t), true)
    | f => (infEnc f (sgn2 s t), false)
  | .fin s m _, .inf t => if m = 0 then (nanEnc f, false) else match f with
    | .e4m3 => (maxEnc f (sgn2 s t), true)
    | f => (infEnc f (sgn2 s t), false)
  | .fin s m x, .fin t n y => roundTo f (sgn2 s t) (m * n) (x + y)

/-- floor(log2 of the magnitude) of a finite non-zero value. -/
def expOf (m : Nat) (x : Int) : Int := (bitLen m : Int) - 1 + x

/-- emax of an MX element format (R33 step 2). -/
def mxEmax : Fmt → Int
  | .mxfp4 => 2
  | .mxe4m3 => 8
  | .mxe5m2 => 15
  | _ => 0

/-- A block of FP32 values converted to an MX format: scale byte and element encodings (R33). -/
def mxConvert (f : Fmt) (vs : List W32) : Nat × List Nat :=
  let ds := vs.map fun v => decode .fp32 v.toNat
  if ds.any fun d => match d with | .fin _ _ _ => false | _ => true then (0xFF, vs.map fun _ => 0)
  else
    let exps := ds.filterMap fun d => match d with
      | .fin _ m x => if m = 0 then none else some (expOf m x)
      | _ => none
    let xx := match exps with
      | [] => 0
      | e :: es => max (-127) (min 127 (es.foldl max e - mxEmax f))
    let el := ds.map fun d => match d with
      | .fin s m x => if f == .mxint8 && m == 0 then 0 else (roundTo f s m (x - xx)).1
      | _ => 0
    ((xx + 127).toNat, el.map fun v => if f == .mxint8 && v == 128 then 0 else v)

/-! ### Exact partials (R47-R50) -/

/-- The word of an exact partial of w bits: 96 or 64 (R47, R48). -/
def partialEnc (w : Nat) (e : EarEl) : Nat :=
  if bit e.ind 2 || (bit e.ind 0 && bit e.ind 1) then 2 ^ (w - 1)
  else if bit e.ind 0 then 2 ^ (w - 2)
  else if bit e.ind 1 then 2 ^ (w - 1) + 2 ^ (w - 2)
  else toBits w e.sum

/-- The EAR state an exact partial of w bits stands for (R47, R48). -/
def partialDec (w v : Nat) : EarEl :=
  if v = 2 ^ (w - 1) then { EarEl.clear with ind := 4 }
  else if v = 2 ^ (w - 2) then { EarEl.clear with ind := 1 }
  else if v = 2 ^ (w - 1) + 2 ^ (w - 2) then { EarEl.clear with ind := 2 }
  else { EarEl.clear with sum := signed w v }

/-- Two EAR states combined (R49). -/
def earJoin (a b : EarEl) : EarEl :=
  { sum := a.sum + b.sum, ind := Nat.lor a.ind b.ind, scale := a.scale, terms := a.terms ++ b.terms }

/-! ### Tiles (R249-R252) -/

/-- Rows of a tile (Table MEM-3). -/
def tileRows (f : Fmt) : Nat :=
  match fmtWidth f with
  | 4 => 32
  | 32 => 8
  | _ => 16

/-- Columns of a tile (Table MEM-3). -/
def tileCols (f : Fmt) : Nat :=
  match fmtWidth f with
  | 4 => 32
  | 8 => 32
  | _ => 16

/-- Bytes per tile row (Table MEM-3). -/
def tileRowBytes (f : Fmt) : Nat := tileCols f * fmtWidth f / 8

/-- The encoding at row r, column c of a granule (R250). -/
def tileGet (f : Fmt) (g : Bytes) (r c : Nat) : Nat :=
  let base := r * tileRowBytes f
  if fmtWidth f = 4 then
    let b := rd g (base + c / 2) 1
    if c % 2 = 0 then b % 16 else b / 16
  else rd g (base + c * (fmtWidth f / 8)) (fmtWidth f / 8)

/-- The scale byte of tile row r of data granule g, in the scale granules sc (R252). -/
def scaleOf (f : Fmt) (sc : Bytes) (g r : Nat) : Nat :=
  let n := if fmtWidth f = 4 then 2 else 4
  rd sc (64 * (g / n) + (g % n) * (64 / n) + r) 1

/-- Scale granules of D data granules (R252). -/
def scaleGranules (f : Fmt) (d : Nat) : Nat :=
  if isMx f then ceilDiv d (if fmtWidth f = 4 then 2 else 4) else 0

/-- Row r of a run of n data granules whose scales follow them in sc: its values, and each one's block scale exponent
where the format has one (R42). -/
def runRow (f : Fmt) (data sc : Bytes) (n r : Nat) : List (FVal × Option Nat) :=
  (List.range n).flatMap fun g =>
    let gr := (data.drop (512 * g)).take 512
    let x8 := scaleOf f sc g r
    (List.range (tileCols f)).map fun c =>
      let v := decode f (tileGet f gr r c)
      if isMx f then (applyScale x8 v, some x8) else (v, none)

/-- Element encodings, row by row of cols each, as the granules of a tensor (R250, R251). -/
def packTensor (f : Fmt) (rows cols : Nat) (v : Nat → Nat → Nat) : Bytes :=
  let tr := tileRows f
  let tc := tileCols f
  let get := fun r c => if r < rows ∧ c < cols then v r c else 0
  (List.range (ceilDiv rows tr)).flatMap fun i => (List.range (ceilDiv cols tc)).flatMap fun j =>
    (List.range tr).flatMap fun r =>
      if fmtWidth f = 4 then
        (List.range (tc / 2)).map fun c =>
          BitVec.ofNat 8 (get (i * tr + r) (j * tc + 2 * c) + 16 * get (i * tr + r) (j * tc + 2 * c + 1))
      else (List.range tc).flatMap fun c => leBytes (fmtWidth f / 8) (get (i * tr + r) (j * tc + c))

end Sys2Proof.Machine
end

