-- ==== Sys2Proof/Machine/Image.lean ====
section
/-! DEFINITION. Image layouts and their checks: weights (R258), step programs (R209-R218, R224, R524-R526) and
adapters (R72-R74). Each parser answers none for a malformed image. -/

namespace Sys2Proof.Machine

/-- Whether a code may name an operand or tensor format (Table CLU-15). -/
def isOperandFmt (c : Nat) : Bool := (fmtOfCode c).isSome

/-- Granules of a tensor of r rows and k columns (R251). -/
def tensorGranules (f : Fmt) (r k : Nat) : Nat := ceilDiv r (tileRows f) * ceilDiv k (tileCols f)

/-! ### Weights images -/

/-- A tensor entry (Table MEM-5). -/
def readTensor (e : Bytes) : Tensor :=
  { id := rd e 0 4, layer := rd e 4 2, fmt := rd e 6 1, rows := rd e 8 4, cols := rd e 12 4, frame := rd e 16 4,
    frames := rd e 20 4, scaleGran := rd e 24 4 }

/-- Whether a tensor entry is well formed beside the layer count (R258, R524, R251). -/
def tensorOk (layers : Nat) (e : Bytes) : Bool :=
  let t := readTensor e
  match fmtOfCode t.fmt with
  | none => false
  | some f =>
    let d := tensorGranules f t.rows t.cols
    let c := scaleGranules f d
    zeros e 7 1 && zeros e 28 4 && (t.layer == 0xFFFF || decide (t.layer < layers)) &&
      (!isMx f || t.cols % 32 == 0) && t.frames == ceilDiv (512 * d + 64 * c) 65536 &&
      t.scaleGran == (if isMx f then d else 0)

/-- Sort key of tensor entries: non-layer tensors first, then by layer (R258). -/
def tensorKey (t : Tensor) : Nat := if t.layer == 0xFFFF then 0 else t.layer + 1

/-- Whether regions lie end to end from frame f and entries are in order (R258). -/
def tensorsChain : Nat → Nat → List Tensor → Bool
  | _, _, [] => true
  | f, k, t :: ts => t.frame == f && decide (k ≤ tensorKey t) && tensorsChain (f + t.frames) (tensorKey t) ts

/-- Whether the bytes of a region after its granules are zero (R258). -/
def regionPadOk (bs : Bytes) (t : Tensor) : Bool :=
  match fmtOfCode t.fmt with
  | none => false
  | some f =>
    let d := tensorGranules f t.rows t.cols
    let used := 512 * d + 64 * scaleGranules f d
    zeros bs (65536 * t.frame + used) (65536 * t.frames - used)

/-- The layer count and tensor table of a well-formed weights image (R258). -/
def parseWeights (bs : Bytes) : Option (Nat × List Tensor) :=
  let n := rd bs 8 4
  let layers := rd bs 6 2
  let table := (List.range n).map fun i => slice bs (64 + 32 * i) 32
  let ts := table.map readTensor
  let head := ceilDiv (64 + 32 * n) 65536
  if bs.take 4 == ascii "SWWI" && rd bs 4 2 == 1 && zeros bs 12 4 && zeros bs 24 40 &&
      rd bs 16 8 == bs.length && bs.length == 65536 * (head + sumNat (ts.map (·.frames))) &&
      zeros bs (64 + 32 * n) (65536 * head - (64 + 32 * n)) &&
      table.all (tensorOk layers) && tensorsChain head 0 ts && ts.all (regionPadOk bs) then
    some (layers, ts)
  else none

/-- Frames of the header and non-layer tensors, N (R260). -/
def weightsFixed (ts : List Tensor) : Nat :=
  ceilDiv (64 + 32 * ts.length) 65536 + sumNat ((ts.filter fun t => t.layer == 0xFFFF).map (·.frames))

/-- Frames of layer l, f_l (R260). -/
def layerFrames (ts : List Tensor) (l : Nat) : Nat := sumNat ((ts.filter fun t => t.layer == l).map (·.frames))

/-! ### Step programs -/

/-- A directory entry (Table CLU-3): type, layout, count, first byte, length. -/
structure Section_ where
  ty : Nat
  layout : Nat
  count : Nat
  start : Nat
  len : Nat
  deriving DecidableEq, Repr

/-- The directory of a program image (Table CLU-3). -/
def readDir (bs : Bytes) : List Section_ :=
  (List.range (rd bs 54 2)).map fun i =>
    let o := 256 + 16 * i
    { ty := rd bs o 2, layout := rd bs (o + 2) 2, count := rd bs (o + 4) 4, start := 64 * rd bs (o + 8) 4,
      len := rd bs (o + 12) 4 }

/-- The sections of a type and layout. -/
def sectionsOf (dir : List Section_) (ty layout : Nat) : List Section_ :=
  dir.filter fun d => d.ty == ty && d.layout == layout

/-- The records, of n bytes, of the one section of a type and layout; none of them where there is no such section. -/
def records (bs : Bytes) (dir : List Section_) (ty layout n : Nat) : List Bytes :=
  match sectionsOf dir ty layout with
  | d :: _ => (List.range d.count).map fun i => slice bs (d.start + n * i) n
  | [] => []

/-- The record size of a section type, 0 for CHEAP_POINTS (Table CLU-4). -/
def recSize : Nat → Option Nat
  | 0x0001 => some 16
  | 0x0002 => some 16
  | 0x0003 => some 8
  | 0x0004 => some 32
  | 0x0010 => some 32
  | 0x0011 => some 8
  | 0x0012 => some 8
  | 0x0013 => some 8
  | 0x0014 => some 0
  | 0x0015 => some 24
  | _ => none

/-- Whether a directory entry is well formed (R209, Table CLU-4). -/
def sectionOk (imageLen nLayouts : Nat) (d : Section_) : Bool :=
  match recSize d.ty with
  | none => false
  | some n =>
    (if d.ty < 0x10 then d.layout == 0xFFFF else decide (d.layout < nLayouts)) &&
      (n == 0 || d.len == n * d.count) && decide (d.start + d.len ≤ imageLen)

/-- An anchor record (Table CLU-5). -/
def readAnchor (e : Bytes) : Anchor :=
  { tensor := rd e 0 4, mode := rd e 4 1, outFmt := rd e 5 1, xp := rd e 6 1, flags := rd e 7 1,
    value := signed 16 (rd e 8 2), kDecl := rd e 12 4 }

/-- Whether an anchor record is well formed and within R212. -/
def anchorOk (ctx : Nat) (e : Bytes) : Bool :=
  let a := readAnchor e
  let k := (if bit a.flags 0 then a.kDecl * ctx else a.kDecl) + (if bit a.flags 1 then 512 else 0)
  decide (a.mode ≤ 1) && decide (1 ≤ a.outFmt ∧ a.outFmt ≤ 5) && decide (1 ≤ a.xp ∧ a.xp ≤ 2) &&
    decide (a.flags < 4) && zeros e 10 2 && decide (a.kDecl ≠ 0) && decide (k ≤ 1048576)

/-- An adaptation-point record (Table CLU-6). -/
def readPoint (e : Bytes) : AdaptPoint :=
  { layer := rd e 0 2, point := rd e 2 1, dIn := rd e 4 4, dOut := rd e 8 4, uAnchor := rd e 12 2, outAnchor := rd e 14 2 }

/-- The anchors whose TENSOR_ID has these low 16 bits (R525). -/
def anchorsLow (as : List Anchor) (v : Nat) : List Anchor := as.filter fun a => a.tensor % 65536 == v

/-- Whether an adaptation-point record is well formed (Table CLU-6, R525). -/
def pointOk (layers : Nat) (as : List Anchor) (e : Bytes) : Bool :=
  let p := readPoint e
  zeros e 3 1 && decide (p.layer < layers) && decide (p.point < 16) && (anchorsLow as p.uAnchor).length == 1 &&
    (match anchorsLow as p.outAnchor with
      | [a] => bit a.flags 1
      | _ => false)

/-- A VECTOR_OPS record (R213). -/
def readVop (e : Bytes) : VOp := { op := rd e 0 1, fmt := rd e 1 1, dst := rd e 2 2, src0 := rd e 4 2, src1 := rd e 6 2 }

/-- Whether a VECTOR_OPS record is well formed (R213, R524). -/
def vopOk (e : Bytes) : Bool :=
  let v := readVop e
  if v.op == 0x0C then decide (1 ≤ v.fmt ∧ v.fmt ≤ 5)
  else if v.op == 0x0D then decide (0x11 ≤ v.fmt ∧ v.fmt ≤ 0x14)
  else decide (1 ≤ v.op ∧ v.op ≤ 0x0B) && v.fmt == 0

/-- A command (Table CLU-9). -/
def readCmd (e : Bytes) : Cmd :=
  { op := rd e 0 1, queue := rd e 1 1, flags := rd e 2 2, wait := rd e 4 2, signal := rd e 6 2, aux := rd e 8 4,
    a := rd e 12 4, b := rd e 16 4, d := rd e 20 4, len := rd e 24 4, fmt := rd e 28 2 }

/-- The queue of an opcode (R206). -/
def queueOf : Nat → Nat
  | 0x01 => 0
  | 0x02 => 1
  | 0x03 => 2
  | 0x0E => 2
  | _ => 3

/-- A tag number or 0xFFFF (R207). -/
def tagOk (t : Nat) : Bool := decide (t < 1024) || t == 0xFFFF

/-- Whether a command follows Table CLU-9, Table CLU-16 and the ranges its fields name (R216, R524, R526). -/
def cmdOk (layers nPoints nOps phases sems : Nat) (as : List Anchor) (cheap : List CheapPt) (e : Bytes) : Bool :=
  let c := readCmd e
  let common := c.queue == queueOf c.op && tagOk c.wait && tagOk c.signal && zeros e 30 2
  let fl := fun m => decide (Nat.land c.flags (0xFFFF - m) = 0)
  let fmts := isOperandFmt (c.fmt % 256) && isOperandFmt (c.fmt / 256)
  let noA := c.a == 0
  let noB := c.b == 0
  let noD := c.d == 0
  let noLen := c.len == 0
  let noFmt := c.fmt == 0
  common && match c.op with
  | 0x01 => fl 7 && as.any (fun a => a.tensor == c.aux) && fmts
  | 0x02 => fl 7 && decide (c.aux < nPoints) && fmts
  | 0x03 => fl 5 && decide (c.aux < nOps) && fmts
  | 0x04 => fl 4 && noB && noFmt
  | 0x05 => fl 4 && decide (c.aux < 16) && noB && noD && noFmt
  | 0x06 => fl 4 && decide (c.aux < 256) && decide (c.aux / 16 ≤ 5) && noA && noB && (noD || decide (4 ≤ c.aux / 16)) && noFmt
  | 0x07 => fl 4 && c.aux / 256 % 256 == 0 && decide (c.aux % 256 < sems) && noA && noB && noD && noLen && noFmt
  | 0x08 => fl 4 && c.aux / 256 % 256 == 0 && decide (c.aux % 256 < sems) && noA && noB && noD && noLen && noFmt
  | 0x09 => fl 4 && decide (c.aux < sems) && noA && noB && noD && noLen && noFmt
  | 0x0A => fl 4 && decide (c.aux < sems) && noA && noB && noD && noLen && noFmt
  | 0x0B => fl 4 && decide (c.aux < phases) && noA && noB && noD && noLen && noFmt
  | 0x0C => fl 4 && cheap.any (fun p => p.id == c.aux) && noA && noB && noD && noLen && noFmt
  | 0x0D => fl 4 && decide (c.aux < 2 ^ 17) && decide (c.aux % 65536 < layers) && noB && noD && noFmt
  | 0x0E => fl 4 && c.aux == 0 && noB && noD && noFmt
  | 0x0F => fl 4 && c.aux == 0 && noA && noB && noD && noLen && noFmt
  | _ => false

/-- A COMMANDS section split into rank streams: each ends with its STEP_END (R210 Table CLU-4, R216; log 10). -/
def splitStreams : List Cmd → List Cmd → List (List Cmd)
  | [], [] => []
  | [], acc => [acc.reverse]
  | c :: cs, acc => if c.op == 0x0F then (c :: acc).reverse :: splitStreams cs [] else splitStreams cs (c :: acc)

/-- A route entry (Table CLU-10). -/
def readRoute (e : Bytes) : Route := { dest := rd e 0 2, member := rd e 2 1, ch := rd e 3 1, port := rd e 4 1, esc := rd e 5 1 }

/-- Whether a route entry is well formed (Table CLU-10, R526). -/
def routeOk (groupSize : Nat) (esc : Bool) (e : Bytes) : Bool :=
  let r := readRoute e
  decide (r.member < groupSize) && decide (r.ch < 16) && decide (r.port ≤ 5) && (esc || r.esc == 0) && zeros e 6 2

/-- Cheap-point records, of the section's bytes; the fuel is the count (Table CLU-8). -/
def readCheap : Nat → Bytes → Option (List CheapPt × Bytes)
  | 0, bs => some ([], bs)
  | n + 1, bs =>
    let k := rd bs 4 4
    if bs.length < 16 + 16 * k then none
    else
      let rs := (List.range k).map fun i => slice bs (16 + 16 * i) 16
      if rs.all fun r => zeros r 2 2 && zeros r 12 4 && rd r 8 4 % 512 == 0 then
        let ranges := rs.map fun r => { rank := rd r 0 2, off := rd r 4 4, len := rd r 8 4 : CpRange }
        let p : CheapPt := { id := rd bs 0 2, layer := rd bs 2 2, live := rd bs 8 8, ranges := ranges }
        match readCheap n (bs.drop (16 + 16 * k)) with
        | some (ps, rest) => some (p :: ps, rest)
        | none => none
      else none

/-- The route phase of each command of a stream (R218): the latest ROUTE_LOAD before it, none before the first. -/
def streamPhases : Option Nat → List Cmd → List (Option Nat)
  | _, [] => []
  | p, c :: cs => p :: streamPhases (if c.op == 0x0B then some c.aux else p) cs

/-- The layer of each command of a stream: LAYER_END flags before it (Table CLU-9). -/
def streamLayers : Nat → List Cmd → List Nat
  | _, [] => []
  | l, c :: cs => l :: streamLayers (if bit c.flags 2 then l + 1 else l) cs

/-- The route entry for a phase, rank and channel (R218; log 10). -/
def routeAt (clusters : Nat) (rs : List Route) (phase rank ch : Nat) : Option Route :=
  match rs[(phase * clusters + rank) * 16 + ch]? with
  | some r => if r.dest < clusters then some r else none
  | none => none

/-- A command with where it stands: rank, position, phase, layer. -/
structure Node where
  rank : Nat
  idx : Nat
  phase : Nat
  loaded : Bool
  layer : Nat
  cmd : Cmd
  deriving DecidableEq, Repr

/-- Every command of a layout with where it stands. -/
def nodesOf (streams : List (List Cmd)) : List Node :=
  (streams.zipIdx).flatMap fun sr =>
    let ph := streamPhases none sr.1
    let ly := streamLayers 0 sr.1
    (sr.1.zipIdx).map fun ci =>
      { rank := sr.2, idx := ci.2, phase := (ph.getD ci.2 none).getD 0, loaded := (ph.getD ci.2 none).isSome,
        layer := ly.getD ci.2 0, cmd := ci.1 }

/-- Where a SEND's messages land under a route table: rank and inbound channel. -/
def sendTarget (clusters : Nat) (rs : List Route) (n : Node) : Option Route :=
  if n.cmd.op == 0x05 ∧ n.loaded then routeAt clusters rs n.phase n.rank (n.cmd.aux % 16) else none

/-- Every SEND has a valid route, and sends equal receive capacity on every channel of every phase (R218). -/
def balanced (clusters phases : Nat) (rs : List Route) (ns : List Node) : Bool :=
  ns.all (fun n => n.cmd.op != 0x05 || (sendTarget clusters rs n).isSome) &&
  (List.range phases).all fun p => (List.range clusters).all fun r => (List.range 16).all fun ch =>
    let sent := sumNat ((ns.filter fun n => n.phase == p && (match sendTarget clusters rs n with
      | some t => t.dest == r && t.ch == ch
      | none => false)).map fun n => n.cmd.len)
    let taken := sumNat ((ns.filter fun n =>
      n.cmd.op == 0x06 && n.phase == p && n.rank == r && n.cmd.aux % 16 == ch).map fun n => n.cmd.len)
    sent == taken

/-- Whether SEND m's messages go to the channel BIND b takes from, in its phase (R218). -/
def feeds (clusters : Nat) (rs : List Route) (b m : Node) : Bool :=
  match sendTarget clusters rs m with
  | some t => m.phase == b.phase && t.dest == b.rank && t.ch == b.cmd.aux % 16
  | none => false

/-- Messages of a list of commands. -/
def lenSum (ns : List Node) : Nat := sumNat (ns.map (·.cmd.len))

/-- Whether BIND b takes messages of SEND m. From one sender a channel's messages arrive in the order sent (R217), so the BINDs divide them
in order; from several senders the order is open, and b may take any. -/
def takes (clusters : Nat) (rs : List Route) (ns : List Node) (b m : Node) : Bool :=
  feeds clusters rs b m &&
    let ss := ns.filter (feeds clusters rs b)
    let src := fun (n : Node) => (n.rank, (sendTarget clusters rs n).map (·.member))
    let m0 := lenSum (ss.filter fun n => decide (n.idx < m.idx))
    let b0 := lenSum (ns.filter fun n =>
      n.cmd.op == 0x06 && n.rank == b.rank && n.phase == b.phase && n.cmd.aux % 16 == b.cmd.aux % 16 && decide (n.idx < b.idx))
    ss.any (fun n => src n != src m) || decide (m0 < b0 + b.cmd.len ∧ b0 < m0 + m.cmd.len)

/-- Whether command m is a direct dependence of command n (R224): ahead of it in its queue, signals the tag it waits for, sends what it
takes, or signals or releases its semaphore in its layer. -/
def dependsOn (clusters : Nat) (esc : List Route) (ns : List Node) (n m : Node) : Bool :=
  (n.rank == m.rank && n.cmd.queue == m.cmd.queue && decide (m.idx < n.idx)) ||
  (n.rank == m.rank && n.cmd.wait != 0xFFFF && m.cmd.signal == n.cmd.wait) ||
  (n.cmd.op == 0x06 && takes clusters esc ns n m) ||
  ((n.cmd.op == 0x08 || n.cmd.op == 0x09) && (m.cmd.op == 0x07 || m.cmd.op == 0x0A) && n.layer == m.layer &&
    m.cmd.aux % 256 == n.cmd.aux % 256)

/-- The commands a set depends on, transitively; the fuel is the number of commands. -/
def closure (dep : Node → Node → Bool) (ns : List Node) : Nat → List Node → List Node → List Node
  | 0, _, seen => seen
  | f + 1, front, seen =>
    let next := ns.filter fun m => !seen.contains m && front.any fun n => dep n m
    if next.isEmpty then seen else closure dep ns f next (seen ++ next)

/-- R224: no BIND that takes messages of rank r depends on another SEND of its layer of rank r or below. -/
def escapeOk (clusters : Nat) (esc : List Route) (ns : List Node) : Bool :=
  let dep := dependsOn clusters esc ns
  (ns.filter fun n => n.cmd.op == 0x06).all fun b =>
    let own := ns.filter (takes clusters esc ns b)
    let below := (closure dep ns ns.length [b] []).filter fun m => m.layer == b.layer && !own.contains m
    own.all fun o => match sendTarget clusters esc o with
      | none => true
      | some t => below.all fun m => match sendTarget clusters esc m with
        | none => true
        | some u => decide (t.esc < u.esc)

/-- A cost record (Table CLU-4). -/
def readCost (e : Bytes) : Cost :=
  { twin := rd e 0 1, fixed := rd e 4 4, perRow := rd e 8 4, perKpos := rd e 12 4, perSeg := rd e 16 4, perPass := rd e 20 4 }

/-- A KV_MAP record (Table CLU-4). -/
def readKv (e : Bytes) : KvEnt := { rank := rd e 0 2, layer := rd e 2 2, head := rd e 4 1, stream := rd e 5 1 }

/-- Whether a KV_MAP holds each (LAYER, KV_HEAD, STREAM) exactly once and in range (R526). -/
def kvMapOk (clusters layers heads : Nat) (es : List Bytes) : Bool :=
  let ks := es.map readKv
  es.all (fun e => zeros e 6 2) &&
  ks.all (fun k => decide (k.rank < clusters ∧ k.layer < layers ∧ k.head < heads ∧ k.stream < 2)) &&
  ks.length == layers * heads * 2 &&
  (List.range layers).all fun l => (List.range heads).all fun h => (List.range 2).all fun st =>
    ks.any fun k => k.layer == l && k.head == h && k.stream == st

/-- Whether the ids of a list stand in strictly rising order. -/
def rising : List Nat → Bool
  | a :: b :: rest => decide (a < b) && rising (b :: rest)
  | _ => true

/-- Whether cheap points stand under rising CP_IDs, and in each stream's program order (Table CLU-8, R526). -/
def cheapOrdered (cheap : List CheapPt) (streams : List (List Cmd)) : Bool :=
  rising (cheap.map (·.id)) && streams.all fun st => rising ((st.filter fun c => c.op == 0x0C).map (·.aux))

/-- What a layout is parsed with: the shared parts of its image. -/
structure Shared where
  layers : Nat
  kvHeads : Nat
  anchors : List Anchor
  nPoints : Nat
  nOps : Nat
  deriving DecidableEq, Repr

/-- Layout number i of an image, with its checks (R214, R216-R218, R224, R526). -/
def parseLayout (bs : Bytes) (dir : List Section_) (sh : Shared) (i : Nat) (e : Bytes) : Option Layout :=
  let gs := rd e 0 1
  let cl := rd e 2 2
  let phases := rd e 16 2
  let heads := rd e 20 2
  let cheapS := sectionsOf dir 0x14 i
  let cheap := match cheapS with
    | [] => some []
    | d :: _ => match readCheap d.count (slice bs d.start d.len) with
      | some (ps, []) => some ps
      | _ => none
  match cheap with
  | none => none
  | some cheap =>
    let cmdE := records bs dir 0x10 i 32
    let streams := splitStreams (cmdE.map readCmd) []
    let rE := records bs dir 0x11 i 8
    let xE := records bs dir 0x12 i 8
    let routes := rE.map readRoute
    let esc := xE.map readRoute
    let kvE := records bs dir 0x13 i 8
    let costE := records bs dir 0x15 i 24
    let ns := nodesOf streams
    let ok :=
      (gs == 1 || gs == 2 || gs == 4 || gs == 8) && zeros e 1 1 && zeros e 22 10 && decide (0 < cl) && cl % 8 == 0 &&
      rd e 8 4 % 65536 == 0 && decide (rd e 18 2 ≤ 256) && decide (1 ≤ heads) && decide (sh.kvHeads ≤ heads * gs) &&
      [0x10, 0x11, 0x12, 0x13, 0x14, 0x15].all (fun t => decide ((sectionsOf dir t i).length ≤ 1)) &&
      streams.length == cl && streams.all (fun st => (st.getLast?.map (·.op)) == some 0x0F) &&
      cmdE.all (cmdOk sh.layers sh.nPoints sh.nOps phases (rd e 18 2) sh.anchors cheap) &&
      routes.length == phases * cl * 16 && esc.length == phases * cl * 16 &&
      rE.all (routeOk gs false) && xE.all (routeOk gs true) &&
      kvMapOk cl sh.layers heads kvE &&
      cheap.all (fun p => p.live == sumNat (p.ranges.map (·.len)) && p.ranges.all fun r => decide (r.rank < cl)) &&
      cheapOrdered cheap streams && costE.length == 5 && costE.all (fun c => zeros c 1 3) &&
      (List.range 5).all (fun t => costE.any fun c => rd c 0 1 == t) &&
      balanced cl phases routes ns && balanced cl phases esc ns && escapeOk cl esc ns
    if ok then
      some { groupSize := gs, clusters := cl, stagingRows := rd e 4 4, work := rd e 8 4, workTwin := rd e 12 4,
             phases := phases, sems := rd e 18 2, kvLocal := heads, cmds := streams, routes := routes, esc := esc,
             kvMap := kvE.map readKv, cheap := cheap, cost := costE.map readCost }
    else none

/-- Whether no two of a list are related. -/
def pairwiseNot {α : Type} (r : α → α → Bool) : List α → Bool
  | [] => true
  | a :: as => as.all (fun b => !r a b) && pairwiseNot r as

/-- Whether byte i lies in the header, the directory or a section. -/
def covered (dir : List Section_) (i : Nat) : Bool :=
  decide (i < 256 + 16 * dir.length) || dir.any fun d => decide (d.start ≤ i ∧ i < d.start + d.len)

/-- All results or none. -/
def allSome {α : Type} : List (Option α) → Option (List α)
  | [] => some []
  | none :: _ => none
  | some a :: as => match allSome as with
    | some l => some (a :: l)
    | none => none

/-- A program image after check 2 of Table CLU-11; none where it is not well formed. -/
def parseProgram (bs : Bytes) : Option Program :=
  let dir := readDir bs
  let kind := rd bs 6 1
  let ctx := rd bs 48 4
  let layers := rd bs 52 2
  let anchorE := records bs dir 1 0xFFFF 16
  let anchors := anchorE.map readAnchor
  let pointE := records bs dir 2 0xFFFF 16
  let opE := records bs dir 3 0xFFFF 8
  let layE := records bs dir 4 0xFFFF 32
  let headOk :=
    bs.take 4 == ascii "SWSP" && rd bs 4 2 == 1 && (kind == 1 || kind == 2) && zeros bs 7 1 && rd bs 8 8 == bs.length &&
    decide (256 + 16 * dir.length ≤ bs.length) && zeros bs 72 152 && decide (1 ≤ layers) && decide (1 ≤ ctx) &&
    decide (1 ≤ rd bs 64 2) && decide (1 ≤ rd bs 66 2) && decide (1 ≤ rd bs 68 4) &&
    (if kind == 1 then decide (1 ≤ rd bs 56 4) && rd bs 60 2 == 0 && rd bs 62 2 == 0
     else rd bs 56 4 == 0 && decide (1 ≤ rd bs 60 2) && decide (1 ≤ rd bs 62 2 ∧ rd bs 62 2 ≤ 512))
  let dirOk :=
    dir.all (sectionOk bs.length layE.length) && dir.all (fun d => decide (256 + 16 * dir.length ≤ d.start)) &&
    [1, 2, 3, 4].all (fun t => decide ((sectionsOf dir t 0xFFFF).length ≤ 1)) &&
    pairwiseNot (fun a b => decide (a.start < b.start + b.len ∧ b.start < a.start + a.len)) dir &&
    (bs.zipIdx).all fun e => e.1 == 0 || covered dir e.2
  let recOk :=
    anchorE.all (anchorOk ctx) && pairwiseNot (fun a b => a.tensor == b.tensor) anchors &&
    pointE.all (pointOk layers anchors) && opE.all vopOk &&
    pairwiseNot (fun a b => rd a 0 1 == rd b 0 1 && rd a 2 2 == rd b 2 2) layE
  if headOk && dirOk && recOk then
    let sh : Shared := { layers := layers, kvHeads := rd bs 64 2, anchors := anchors, nPoints := pointE.length, nOps := opE.length }
    match allSome ((layE.zipIdx).map fun e => parseLayout bs dir sh e.2 e.1) with
    | none => none
    | some lays =>
      some { kind := kind, modelDigest := slice bs 16 32, ctxLimit := ctx, layers := layers, vocab := rd bs 56 4,
             condDiv := rd bs 60 2, condMax := rd bs 62 2, kvHeads := rd bs 64 2, headWidth := rd bs 66 2,
             modelWidth := rd bs 68 4, anchors := anchors, points := pointE.map readPoint, ops := opE.map readVop,
             layouts := lays }
  else none

/-- The program image digest (R210). -/
def programDigest (bs : Bytes) : Digest := sha256 (patch bs 224 (zeroBytes 32))

/-- The layout for a group size and cluster count (R215 check 4). -/
def layoutFor (p : Program) (groupSize clusters : Nat) : Option Layout :=
  p.layouts.find? fun l => l.groupSize == groupSize && l.clusters == clusters

/-! ### Adapter images -/

/-- A point entry (Table ADP-3). -/
structure AdPoint where
  layer : Nat
  point : Nat
  dIn : Nat
  dOut : Nat
  aOff : Nat
  bOff : Nat
  aSoff : Nat
  bSoff : Nat
  deriving DecidableEq, Repr

/-- An adapter image (R72). -/
structure AdImage where
  rank : Nat
  aFmt : Fmt
  bFmt : Fmt
  scale : W32
  model : Digest
  points : List AdPoint
  deriving DecidableEq, Repr

/-- The format codes of Table ADP-2. -/
def adFmt : Nat → Option Fmt
  | 1 => some .bf16
  | 2 => some .mxe4m3
  | 3 => some .mxe5m2
  | _ => none

/-- A point entry (Table ADP-3). -/
def readAdPoint (e : Bytes) : AdPoint :=
  { layer := rd e 0 2, point := rd e 2 1, dIn := rd e 4 4, dOut := rd e 8 4, aOff := rd e 12 4, bOff := rd e 16 4,
    aSoff := rd e 20 4, bSoff := rd e 24 4 }

/-- Whether matrices and scales lie as R74 says: data from byte pos on, with zero bytes between matrices, scales from 64-byte unit sp on. The
end of the data and of the scales. -/
def adLayout (bs : Bytes) (rank : Nat) (fa fb : Fmt) : Nat → Nat → List AdPoint → Option (Nat × Nat)
  | pos, sp, [] => some (pos, sp)
  | pos, sp, p :: ps =>
    let ga := tensorGranules fa rank p.dIn
    let gb := tensorGranules fb p.dOut rank
    let sa := scaleGranules fa ga
    let sb := scaleGranules fb gb
    if pos ≤ 512 * p.aOff ∧ 512 * (p.aOff + ga) ≤ 512 * p.bOff ∧ zeros bs pos (512 * p.aOff - pos) = true ∧
        zeros bs (512 * (p.aOff + ga)) (512 * p.bOff - 512 * (p.aOff + ga)) = true ∧
        p.aSoff = (if isMx fa then sp else 0) ∧ p.bSoff = (if isMx fb then sp + sa else 0) ∧
        (isMx fa = false ∨ p.dIn % 32 = 0) then
      adLayout bs rank fa fb (512 * (p.bOff + gb)) (sp + sa + sb) ps
    else none

/-- An adapter image that satisfies R66-R74; none where it does not. Its three parts are consecutive: the first matrix follows the padded
table, and the scale region the last matrix. DESIGN CHOICE: SCALE_OFF of an image without scales is not looked at (R72, R74; log 64). -/
def parseAdapter (bs : Bytes) : Option AdImage :=
  let rank := rd bs 6 2
  let n := rd bs 8 2
  let table := (List.range n).map fun i => slice bs (64 + 32 * i) 32
  let ps := table.map readAdPoint
  let headEnd := 512 * ceilDiv (64 + 32 * n) 512
  match adFmt (rd bs 10 1), adFmt (rd bs 11 1) with
  | some fa, some fb =>
    let scale : W32 := BitVec.ofNat 32 (rd bs 12 4)
    let finite := match decode .fp32 scale.toNat with
      | .fin _ _ _ => true
      | _ => false
    let ordered := pairwiseNot (fun a b => decide (b.layer < a.layer ∨ (b.layer = a.layer ∧ b.point ≤ a.point))) ps
    let so := rd bs 56 4
    match adLayout bs rank fa fb headEnd (so * 8) ps with
    | none => none
    | some (dEnd, sEnd) =>
      let mx := isMx fa || isMx fb
      let lenOk := if mx then dEnd == 512 * so && bs.length == 64 * sEnd
        else bs.length == dEnd
      if bs.take 4 == ascii "SWAI" && ps.head?.map (fun p => 512 * p.aOff) == some headEnd && rd bs 4 2 == 1 && decide (4 ≤ rank ∧ rank ≤ 256) && rank % 4 == 0 && decide (1 ≤ n) &&
          finite && rd bs 48 8 == bs.length && zeros bs 60 4 && zeros bs (64 + 32 * n) (headEnd - (64 + 32 * n)) &&
          table.all (fun e => zeros e 3 1 && zeros e 28 4) && ps.all (fun p => decide (p.point < 16)) &&
          ordered && (!isMx fb || rank % 32 == 0) && lenOk then
        some { rank := rank, aFmt := fa, bFmt := fb, scale := scale, model := slice bs 16 32, points := ps }
      else none
  | _, _ => none

/-- Whether every entry of an adapter matches its model's program (R69). -/
def adapterFits (ad : AdImage) (prog : Program) : Bool :=
  decide (ad.points.length ≤ 16 * prog.layers) &&
  ad.points.all fun p => prog.points.any fun q =>
    q.layer == p.layer && q.point == p.point && q.dIn == p.dIn && q.dOut == p.dOut

/-- The data and scale bytes of a matrix of an adapter entry: A where a is true, else B (R74). -/
def adMatrix (bs : Bytes) (ad : AdImage) (p : AdPoint) (a : Bool) : Fmt × Bytes × Bytes :=
  if a then
    let g := tensorGranules ad.aFmt ad.rank p.dIn
    (ad.aFmt, slice bs (512 * p.aOff) (512 * g), slice bs (64 * p.aSoff) (64 * scaleGranules ad.aFmt g))
  else
    let g := tensorGranules ad.bFmt p.dOut ad.rank
    (ad.bFmt, slice bs (512 * p.bOff) (512 * g), slice bs (64 * p.bSoff) (64 * scaleGranules ad.bFmt g))

/-- The element of a stored tensor of k columns at row r, column c, scale applied (R251, R252). -/
def tensorAt (f : Fmt) (data sc : Bytes) (k r c : Nat) : FVal :=
  let g := r / tileRows f * ceilDiv k (tileCols f) + c / tileCols f
  let v := decode f (tileGet f ((data.drop (512 * g)).take 512) (r % tileRows f) (c % tileCols f))
  if isMx f then applyScale (scaleOf f sc g (r % tileRows f)) v else v

end Sys2Proof.Machine
end

