-- ==== Sys2Proof/Machine/Plan.lean ====
section
/-! DEFINITION. Plan assembly: refill, candidates, row counts, segments, predicted length, the Deadline Monitor, and the
freeze of a plan (03 R89, R91-R94, R96; 04 R101-R119; 10 R274, R283, R284, R289; 01 R21). -/

namespace Sys2Proof.Machine

/-! ### Deadlines and keys (R114, R119, R283, R284) -/

/-- Whether a request carries a deadline; a replay carries none (R114, R199). -/
def hasDl (q : Req) : Bool := q.replay.isNone && (q.firstDl != 0 || q.tokDl != 0)

/-- The deadline of token t (R114). -/
def deadlineOf (q : Req) (t : Nat) : Nat :=
  if t ≤ q.tStart then q.accept + q.firstDl
  else max (q.accept + q.firstDl + (t - q.tStart) * q.tokDl) (q.lastC + q.tokDl)

/-- The next-token deadline, 2^64 - 1 without one (R283). -/
def nextDl (q : Req) : Nat := if hasDl q then deadlineOf q q.next else 2 ^ 64 - 1

/-- The key of R109: the next-token deadline or the tenant's weighted engine time (R283, R284). -/
def candKey (s : State) (it : Items) (q : Req) : Nat :=
  if it.deadline then nextDl q
  else match tenantOf s q.tenant with
    | some t => t.et * 65536 / t.weight
    | none => 0

/-! ### Buckets (R103-R106) -/

/-- Bucket units in a token (R103). -/
def tokenUnits : Int := 100000000

/-- One tenant's refill at freeze instant f, the previous one being g; a change that waits takes effect after the old
RATE has refilled, and limits the balance (R101, R104). -/
def refillTenant (f g : Nat) (t : Tenant) : Tenant :=
  let nr := (t.pend.getD (t.rate, t.burst)).1
  let nb := (t.pend.getD (t.rate, t.burst)).2
  let bal := if t.rate = 0 ∧ nr = 0 then t.bal else min (t.bal + (t.rate : Int) * ((f : Int) - g)) ((nb : Int) * tokenUnits)
  { t with rate := nr, burst := nb, pend := none, bal := bal, flow := t.flow + (bal - t.bal) }

/-- The free tokens of a tenant; none is unlimited (R105). -/
def freeTokens (t : Tenant) (taken : Nat) : Option Nat :=
  if t.rate = 0 then none else some (((t.bal - t.res) / tokenUnits - (taken : Int)).toNat)

/-! ### Positions and rows (R109, R111, R116, R153, R156) -/

/-- Positions of the base stream. -/
def posBase (q : Req) : Nat := q.kvBase.kv.length

/-- Positions of the fallback stream. -/
def posFb (q : Req) : Nat := q.kvFb.kv.length

/-- Positions pending in a stream that holds pos of them: catch-up, condensed vectors and input tokens. -/
def pendingFrom (q : Req) (pos : Nat) : Nat := q.condIn + (q.history.length - pos) + q.input.length

/-- Whether base rows of a request get shadow rows: it has a deadline and a fallback stream (R116, R125). -/
def shadowsOn (q : Req) : Bool := q.canFall && hasDl q && q.fb.isSome

/-- Condenser rows left (R153). -/
def condLeft (q : Req) : Nat := match q.cond with | some c => c.s - c.vecs.length | none => 0

/-- What a request's rows may reference: slot 0, slot 1 and companions in use (R85). -/
def adRefs (q : Req) : List Nat := [q.ad0, q.ad1, q.comp0, q.comp1].filterMap id

/-- The adapters of a row by slot: companions for fallback and shadow rows (R70, R91). -/
def rowAds (q : Req) (r : PlanRow) : Option Nat × Option Nat :=
  if r.fb || r.shadow then (q.comp0, q.comp1) else (q.ad0, q.ad1)

/-- The class of a request that may have rows (R109; log 13): NEW until admitted; PREFILL until it has emitted in this turn;
then DECODE. -/
def classOfReq (q : Req) : RowClass :=
  if q.conv == .condensing then .prefill
  else if !q.admitted then .new
  else if q.turnTokens = 0 then .prefill
  else .decode

/-! ### Replays: the next recorded entry (R199) -/

/-- TYPE of a capsule entry. -/
def entTy (e : Bytes) : Nat := rd e 0 2

/-- The replay's capsule entry number n. -/
def entAt (r : ReplayRun) (n : Nat) : Option Bytes := r.entries[n]?

/-- The next entry to compare that is no SEAL and no PARK event; the fuel is the number of entries. -/
def skipSeals (r : ReplayRun) : Nat → Nat → Nat
  | 0, n => n
  | f + 1, n =>
    match entAt r n with
    | some e => if entTy e == 9 || (entTy e == 7 && rd e 8 1 == 4) then skipSeals r f (n + 1) else n
    | none => n

/-- P of the CONDENSE event that a replay reaches next, before any other token (R153, R199). -/
def condenseAt (q : Req) : Option Nat :=
  match q.replay with
  | none => none
  | some r =>
    match entAt r (skipSeals r r.entries.length r.next) with
    | some e => if entTy e == 7 && rd e 8 1 == 3 then some (rd e 12 4) else none
    | none => none

/-- Whether a replay in fallback mode has still to write base positions that the CONDENSE event it reaches next covers: the original had
them from a prefill or catch-up that a switch cut short (R153, R199, R203). -/
def condCatchUp (q : Req) : Bool :=
  q.fbMode && (match condenseAt q with | some p => decide (posBase q < p ∧ p ≤ q.history.length) | none => false)

/-- Whether a request's next rows run in the fallback invocation (R116). -/
def runsFb (q : Req) : Bool := q.fbMode && !condCatchUp q

/-- Whether a replay's capsule has a CONDENSE event at a token index (R140, R199). -/
def condenseEvent (q : Req) (t : Nat) : Bool :=
  match q.replay with
  | none => false
  | some r => r.entries.any fun e => entTy e == 7 && rd e 8 1 == 3 && rd e 16 8 == t

/-- Whether a replay's capsule ends COMPLETE after t tokens (R140, R199). -/
def completeEvent (q : Req) (t : Nat) : Bool :=
  match q.replay with
  | none => false
  | some r => r.entries.any fun e => entTy e == 8 && rd e 8 1 == 1 && rd e 16 8 == t

/-- The most positions the next chunk may hold: the context limit, and the two free ring slots of R167. A chunk that would emit into
a ring with fewer free slots is one position shorter, so that nothing of it emits. DESIGN CHOICE: R110 and R167 do not say whether
such a request gets a shorter chunk or none (log 70). -/
def wantOf (q : Req) : Nat :=
  let pos := if runsFb q then posFb q else posBase q
  let total := pendingFrom q pos
  let lim := match condenseAt q with | some p => min q.samp.ctxMax p | none => q.samp.ctxMax
  let want := min total (lim - pos)
  if want = total ∧ q.replay.isNone ∧ recFree q < 2 then want - 1 else want

/-- The largest n at most cap whose rows fit room. -/
def fitRows (q : Req) (cap room : Nat) : Nat :=
  if runsFb q || !shadowsOn q then min cap room
  else
    let d := posFb q - posBase q
    if room ≤ d then min cap room else min cap ((room + d) / 2)

/-- The slot of a request's base or fallback model. -/
def baseSlot (x : Part) (q : Req) : Nat := (slotOfKey x q.base).getD 0

/-- The slot of a request's fallback model. -/
def fbSlot (x : Part) (q : Req) : Nat := match q.fb with | some k => (slotOfKey x k).getD 1 | none => 1

/-- The shadow rows of n base rows: first position and count. A fallback stream behind the base stream is brought forward by them, at
most CHUNK rows at once and as far as the room left allows (R116; log 68). -/
def shadowSpan (x : Part) (q : Req) (n room : Nat) : Nat × Nat :=
  let b := posBase q
  let f := posFb q
  if b ≤ f then (f, n - (f - b)) else (f, min (n + (b - f)) (min x.items.chunk (room - n)))

/-- The plan rows of n positions of a request in a class, room rows being left. -/
def planRows (x : Part) (q : Req) (cls : RowClass) (n room : Nat) : List PlanRow :=
  if q.conv == .condensing then
    let first := match q.cond with | some c => c.vecs.length | none => 0
    let slot := match q.cond with | some c => (slotOfKey x c.key).getD 2 | none => 2
    [{ h := q.h, first := first, n := n, slot := slot, cls := cls, emits := false, shadow := false, catchUp := false
       cond := true, fb := false }]
  else if runsFb q then
    [{ h := q.h, first := posFb q, n := n, slot := fbSlot x q, cls := cls, emits := n == pendingFrom q (posFb q)
       shadow := false, catchUp := false, cond := false, fb := true }]
  else
    let first := posBase q
    let emits := n == pendingFrom q first && !condCatchUp q
    let base : PlanRow := { h := q.h, first := first, n := n, slot := baseSlot x q, cls := cls, emits := emits
                            shadow := false, catchUp := decide (first < posFb q), cond := false, fb := false }
    let sh := shadowSpan x q n room
    if shadowsOn q && decide (0 < sh.2) then
      [base, { base with first := sh.1, n := sh.2, slot := fbSlot x q, emits := false, shadow := true, catchUp := false }]
    else [base]

/-! ### Segments (R91, R92) -/

/-- The (slot, adapter) keys of plan rows, with the invocation. -/
def segKeys (reqs : List Req) (rows : List PlanRow) : List (Nat × Nat × Nat) :=
  (rows.flatMap fun r =>
    match reqs.find? fun q => q.h == r.h with
    | none => []
    | some q =>
      let a := rowAds q r
      (match a.1 with | some i => [(r.slot, 0, i)] | none => []) ++ (match a.2 with | some i => [(r.slot, 1, i)] | none => [])).eraseDups

/-- Plan rows with the index of their first row within the plan. -/
def indexRows : Nat → List PlanRow → List (Nat × PlanRow)
  | _, [] => []
  | i, r :: rs => (i, r) :: indexRows (i + r.n) rs

/-- The invocations of a plan: model slots in ascending order (R112, R275). -/
def invsOf (rows : List PlanRow) : List Nat := (List.range 4).filter fun i => rows.any fun r => r.slot == i

/-- The adapter segments of a plan (R91): by invocation, then slot, then adapter index; rows in plan order. -/
def segmentsOf (reqs : List Req) (rows : List PlanRow) : List Seg :=
  let keys := segKeys reqs rows
  let ix := indexRows 0 rows
  (invsOf rows).flatMap fun inv => [0, 1].flatMap fun sl =>
    let idxs := sortBy id ((keys.filter fun k => k.1 == inv && k.2.1 == sl).map (·.2.2))
    idxs.map fun i =>
      { inv := inv, slot := sl, idx := i
        rows := ix.flatMap fun e =>
          match reqs.find? fun q => q.h == e.2.h with
          | none => []
          | some q =>
            let a := rowAds q e.2
            let here := if sl = 0 then a.1 else a.2
            if e.2.slot == inv && here == some i then (List.range e.2.n).map fun j => e.1 + j else [] }

/-! ### The predicted length (R94, R115, R214) -/

/-- Bytes of an adapter at a point of a layer: A, B and their scales (R93). -/
def pointBytes (ad : AdImage) (layer point : Nat) : Nat :=
  sumNat ((ad.points.filter fun p => p.layer == layer && p.point == point).map fun p =>
    let ga := tensorGranules ad.aFmt ad.rank p.dIn
    let gb := tensorGranules ad.bFmt p.dOut ad.rank
    512 * (ga + gb) + 64 * (scaleGranules ad.aFmt ga + scaleGranules ad.bFmt gb))

/-- Passes beyond the first over the point ids of an invocation's segments (R94, R115). -/
def extraPasses (s : State) (p : Nat) (it : Items) (prog : Program) (segs : List Nat) : Nat :=
  let ads := segs.filterMap fun i => match adapterOf s p i with | some a => parseAdapter a.image | none => none
  let half := it.stage / 2
  let n := partClusters it
  sumNat ((List.range 16).map fun pt =>
    let np := (List.range prog.layers).foldl (fun m l => max m (sumNat (ads.map fun a => ceilDiv (pointBytes a l pt) n))) 0
    ceilDiv np half - 1)

/-- The layout a model's program has for a partition (R215 check 4). -/
def layoutIn (it : Items) (m : Model) : Option Layout := layoutFor m.prog it.groupSize (partClusters it)

/-- The Sinter limit of the part in bytes per tick (R290). -/
def sinterLimit (s : State) : Nat := match s.boot.part with | .swl9400 => 81920 | .swl9300 => 61440

/-- Layers of a model's weights image (Table MEM-4). -/
def imageLayers (m : Model) : Nat := rd m.image 6 2

/-- T_stream of an invocation of a STREAM model: its streamed bytes over the lower of the DMA rate and the Sinter share
(R264). -/
def streamTicks (s : State) (it : Items) (m : Model) : Nat :=
  if !m.stream then 0
  else
    let bytes := 65536 * sumNat ((List.range (imageLayers m)).map fun l => if m.resident ≤ l then layerFrames m.tensors l else 0)
    let wr := (it.rates.getD 1 (0, 0)).1
    let dma := (it.rates.getD 3 (0, 0)).1
    let share := if wr = 0 then sinterLimit s else min wr (sinterLimit s)
    bytes / (if dma = 0 then min 16000 share else min dma share)

/-- The last position of a plan row plus 1; condenser rows attend to the P positions of their conversation (R115, R153; log 13). -/
def keyPositions (s : State) (r : PlanRow) : Nat :=
  if r.cond then (match reqOf s r.h with | some q => (match q.cond with | some c => c.p | none => 0) | none => 0) else r.first + r.n

/-- The cost of one invocation of a plan (Table STP-2, R264). -/
def invCost (s : State) (p : Nat) (rows : List PlanRow) (keys : List (Nat × Nat × Nat)) (inv : Nat) : Nat :=
  let x := partOf s p
  match modelAt x inv with
  | none => 0
  | some m =>
    match layoutIn x.items m with
    | none => 0
    | some l =>
      match l.cost.find? fun c => c.twin == x.items.twin with
      | none => 0
      | some c =>
        let rs := rows.filter fun r => r.slot == inv
        let hs := (rs.map (·.h)).eraseDups
        let kpos := sumNat (hs.map fun h => (rs.filter fun r => r.h == h).foldl (fun a r => max a (keyPositions s r)) 0)
        let segs := (keys.filter fun k => k.1 == inv).map (·.2.2)
        max (c.fixed + c.perRow * sumNat (rs.map (·.n)) + c.perKpos * ceilDiv kpos 1024 + c.perSeg * segs.length +
          c.perPass * extraPasses s p x.items m.prog segs) (streamTicks s x.items m)

/-- T_pred of a plan's rows (R115). -/
def predict (s : State) (p : Nat) (rows : List PlanRow) : Nat :=
  let keys := segKeys s.reqs rows
  sumNat ((invsOf rows).map fun i => invCost s p rows keys i)

/-! ### Assembly (R111) -/

/-- A plan under construction. -/
structure Draft where
  rows : List PlanRow
  used : Nat
  taken : List (Nat × Nat)
  keys : List (Nat × Nat × Nat)
  /-- handles skipped because an adapter is not resident (R89) -/
  skipped : List Nat
  deriving DecidableEq, Repr

/-- Whether a request waits for its adapters' residency: NEW, or resumed without pins (R86, R89). -/
def needsPins (q : Req) : Bool := q.pins == .none && !(adRefs q).isEmpty

/-- Whether every adapter a request references is resident here, and as the leader knows on every other member (R89, R100). -/
def adsReady (s : State) (q : Req) : Bool :=
  (adRefs q).all fun i => match adapterOf s q.part i with
    | some a => a.st == .resident && (!leads s q.part || adapterEverywhere s q.part a)
    | none => false

/-- Whether a model can run rows: resident, as the leader knows on every other member too, and not stalled (R265, R381). -/
def modelRuns (s : State) (p : Nat) (k : ModelKey) : Bool :=
  match modelOfKey (partOf s p) k with | some m => !m.stalled && (!leads s p || modelEverywhere s p k) | none => false

/-- Whether a request may be a candidate at freeze instant f (R108, R110, R135, R140). -/
def candidate (p f : Nat) (q : Req) : Bool :=
  q.part == p && living q && decide (q.accept < f) && decide (q.issuedAt ≤ f) && q.cancel.isNone &&
    (q.conv == .live || (q.conv == .condensing && decide (0 < condLeft q))) &&
    (q.conv != .live || q.want.isNone)

/-- Whether the models a request's next rows need can run. -/
def modelsReady (s : State) (q : Req) : Bool :=
  let fb := match q.fb with | some k => modelRuns s q.part k | none => false
  if q.conv == .condensing then (match q.cond with | some c => modelRuns s q.part c.key | none => false)
  else if runsFb q then fb
  else modelRuns s q.part q.base && (!shadowsOn q || fb)

/-- Whether a request's journal lets it have rows: 8 free entries and no opening or RESUME entry waiting (R187). -/
def journalReady (q : Req) : Bool :=
  q.replay.isSome || (decide (8 ≤ jrnFree q) && !q.jrn.waiting.any fun w => w.kind == .opening || w.kind == .resume)

/-- One candidate considered (R110, R111). -/
def considerReq (s : State) (p : Nat) (d : Draft) (q : Req) : Draft :=
  let x := partOf s p
  let it := x.items
  if !journalReady q || !modelsReady s q then d
  else if needsPins q && !adsReady s q then { d with skipped := d.skipped ++ [q.h] }
  else
    let space := it.rowBudget - d.used
    let room := match tenantOf s q.tenant with
      | some t => (match freeTokens t (lookupD d.taken q.tenant 0) with | some k => min space k | none => space)
      | none => 0
    let want := if q.conv == .condensing then condLeft q else wantOf q
    let cap := min want it.chunk
    let n := if q.conv == .condensing then min cap room else fitRows q cap room
    if n = 0 ∨ n < min want 16 then d
    else
      let rows := planRows x q (classOfReq q) n room
      let keys := (d.keys ++ segKeys [q] rows).eraseDups
      if 4096 < keys.length then d
      else
        let k := sumNat (rows.map (·.n))
        { d with rows := d.rows ++ rows, used := d.used + k, keys := keys
                 taken := storeD d.taken q.tenant (lookupD d.taken q.tenant 0 + k) 0 }

/-- Candidates of a class in key order, ties by submit sequence number (R109). -/
def candidates (s : State) (p f : Nat) (c : RowClass) : List Req :=
  let it := (partOf s p).items
  sortBy (fun q => candKey s it q) (sortBy (·.seq) (s.reqs.filter fun q => candidate p f q && classOfReq q == c))

/-- The plan of R111 before the Deadline Monitor. -/
def assemble (s : State) (p f : Nat) : Draft :=
  ((candidates s p f .decode) ++ (candidates s p f .prefill) ++ (candidates s p f .new)).foldl (considerReq s p)
    { rows := [], used := 0, taken := [], keys := [], skipped := [] }

/-! ### The Deadline Monitor (R117) -/

/-- Whether a plan row is late when the step is predicted to end at e. -/
def lateRow (s : State) (e : Nat) (r : PlanRow) : Bool :=
  r.emits && (match reqOf s r.h with | some q => hasDl q && decide (deadlineOf q q.next < e) | none => false)

/-- Whether a plan has a late row. -/
def anyLate (s : State) (p f : Nat) (rows : List PlanRow) : Bool :=
  let e := f + predict s p rows
  rows.any (lateRow s e)

/-- Whether the chunk of request h is trimmable in a plan: PREFILL or NEW, without a late row. -/
def trimmable (s : State) (e : Nat) (rows : List PlanRow) (h : Nat) : Bool :=
  let rs := rows.filter fun r => r.h == h
  rs.all fun r => r.cls != .decode && !lateRow s e r

/-- A plan without its trimmable chunks. -/
def untrimmed (s : State) (p f : Nat) (rows : List PlanRow) : List PlanRow :=
  let e := f + predict s p rows
  rows.filter fun r => !trimmable s e rows r.h

/-- Whole trimmable chunks dropped from the end of plan order until no row is late; the fuel is the number of rows. Which chunks hold a
late row is judged anew under each new prediction. DEDUCED from "re-predicting after each" (R117; log 69). -/
def trim (s : State) (p f : Nat) : Nat → List PlanRow → List PlanRow
  | 0, rows => rows
  | n + 1, rows =>
    if !anyLate s p f rows then rows
    else
      let e := f + predict s p rows
      match (rows.reverse.find? fun r => trimmable s e rows r.h) with
      | none => rows
      | some r => trim s p f n (rows.filter fun x => x.h != r.h)

/-- Request q's base rows dropped and its shadow rows made fallback rows, the last of them emitting (R117; log 13). -/
def switchRows (x : Part) (q : Req) (rows : List PlanRow) : List PlanRow :=
  (rows.filter fun r => !(r.h == q.h && !r.shadow)).map fun r =>
    if r.h == q.h then { r with shadow := false, fb := true, slot := fbSlot x q, emits := true } else r

/-- Whether a request's shadow row in a plan reaches the last position of its base row, so that it can be its fallback row. -/
def shadowReaches (rows : List PlanRow) (h : Nat) : Bool :=
  rows.any fun b => b.h == h && !b.shadow && rows.any fun r => r.h == h && r.shadow && r.first + r.n == b.first + b.n

/-- Every request with a late row, a deadline and base mode switched, in (key, seq) order; the result does not depend on
the order, since every one of them is switched. One whose fallback stream has not come up to its present position stays in base mode
(log 68). -/
def switchLate (s : State) (p f : Nat) (rows : List PlanRow) : List PlanRow :=
  let x := partOf s p
  let e := f + predict s p rows
  let late := (rows.filter fun r => lateRow s e r && !r.fb).map (·.h)
  late.foldl (fun rs h =>
    match reqOf s h with
    | some q => if q.canFall && q.fb.isSome && !q.fbMode && shadowReaches rs h then switchRows x q rs else rs
    | none => rs) rows

/-- The rows the Deadline Monitor leaves, and whether the plan is fallback-only (R117). -/
def deadlineAdjust (s : State) (p f : Nat) (rows : List PlanRow) : List PlanRow × Bool :=
  if !anyLate s p f rows then (rows, false)
  else if !anyLate s p f (untrimmed s p f rows) then (trim s p f rows.length rows, false)
  else
    let rows := switchLate s p f rows
    if !anyLate s p f rows then (rows, false)
    else if !anyLate s p f (untrimmed s p f rows) then (trim s p f rows.length rows, false)
    else
      let e := f + predict s p rows
      if !(partOf s p).lastFbOnly && rows.any (fun r => r.fb && lateRow s e r) then (rows.filter (·.fb), true)
      else (rows, false)

/-! ### What takes effect at a freeze instant (R101, R104, R274, R289) -/

/-- A regulator's level carried over a change of its setting (R289). -/
def carryLevel (old new : Nat × Nat) (lv : Int) : Int :=
  if new.1 = 0 then 0 else if old.1 = 0 then (new.2 : Int) else min lv new.2

/-- Items of a MODIFY put in force (R267, R289). -/
def applyItems (x : Part) : Part :=
  match x.pendItems with
  | none => x
  | some it =>
    { x with items := it, pendItems := none
             levels := ((x.items.rates.zip it.rates).zip x.levels).map fun e => carryLevel e.1.1 e.1.2 e.2 }

/-- Two slots' roles exchanged. -/
def swapRoles (rs : List Role) (i j : Nat) : List Role := (rs.set i (rs.getD j .spare)).set j (rs.getD i .spare)

/-- The response body of MODEL_LOAD (Table MSG-7). -/
def loadBody (mode n short frames : Nat) : Bytes :=
  leBytes 1 mode ++ zeroBytes 1 ++ leBytes 2 n ++ leBytes 4 short ++ leBytes 4 frames

/-- A sealed swap-in's role exchange and the completion of its MODEL_LOAD (R274). -/
def swapIn (s : State) (p : Nat) : State :=
  match (partOf s p).load with
  | some l =>
    if l.ready then
      let s := updPart s p fun x => { x with roles := swapRoles x.roles l.slot l.into, load := none }
      respond s l.ctx .success (loadBody l.result.1 l.result.2.1 0 l.result.2.2)
    else s
  | none => s

/-- A tenant's RATE and BURST in force, at a member that keeps no buckets (R102). -/
def adoptRates (t : Tenant) : Tenant :=
  match t.pend with
  | some (r, b) => { t with rate := r, burst := b, pend := none }
  | none => t

/-- Everything that takes effect at freeze instant f before assembly; the leader alone keeps buckets (R102, R104, R267, R274). -/
def atFreeze (s : State) (p f : Nat) : State :=
  let g := (partOf s p).lastFreeze
  let refill := fun t => if leads s p then refillTenant f g t else adoptRates t
  let s := { s with tenants := s.tenants.map fun t => if t.part == p then refill t else t }
  swapIn (updPart s p fun x => { applyItems x with lastFreeze := f, freezeAt := none }) p

/-- NEW requests whose first-token deadline passed before f end EXPIRED (R119). -/
def expireNew (s : State) (p f : Nat) : State :=
  (s.reqs.filter fun q => candidate p f q && !q.admitted && hasDl q && decide (deadlineOf q q.next < f)).foldl
    (fun t q => endTold t q.h .expired 1) s

/-! ### Fetch demands (R96) -/

/-- Adapters of requests, in slot order, once each. -/
def demandsOf (qs : List Req) : List Nat := (qs.flatMap adRefs).eraseDups

/-- The fetch queue after a plan: fetches whose host read failed and is to be tried again (R90), demands of requests skipped under R89 by submit number, then those of the next 64
queued requests in admission order. DEDUCED: "in the same order" is read of the admission order just named, and of slot order within a
request (R96; log 67). -/
def fetchDemands (s : State) (p f : Nat) (skipped : List Nat) (rows : List PlanRow) : List (Nat × Bool) :=
  let open_ := fun i => match adapterOf s p i with | some a => a.st != .resident && !a.bad | none => false
  let plan := sortBy (·.seq) (s.reqs.filter fun q => skipped.contains q.h)
  let look := ((candidates s p f .new).filter fun q => !skipped.contains q.h && !rows.any fun r => r.h == q.h).take 64
  let again := (s.adapters.filter fun a => a.part == p && a.st == .absent && decide (0 < a.tries) && !a.bad && !a.retiring)
  let a := (demandsOf plan).filter fun i => open_ i && !again.any fun r => r.idx == i
  let b := (demandsOf look).filter fun i => open_ i && !a.contains i && !again.any fun r => r.idx == i
  again.map (fun a => (a.idx, a.byPlan)) ++ a.map (fun i => (i, true)) ++ b.map (fun i => (i, false))

/-- The candidates of a partition that wait for an adapter that is not resident here: the plan-driven demands of a member that assembles
no plan (R96; log 67). -/
def awaitingHere (s : State) (p f : Nat) : List Nat :=
  ((s.reqs.filter fun q => candidate p f q && needsPins q && !adsReady s q)).map (·.h)

/-- The fetch queue of a member that does not lead a partition, whose own directory fetches for itself (R82, R96; log 67). -/
def memberDemands (s : State) (p : Nat) (rows : List PlanRow) : State :=
  let f := s.boot.dtc + 1
  if leads s p then s else updPart s p fun x => { x with fetchQ := fetchDemands s p f (awaitingHere s p f) rows }

/-! ### Provisional pins (R85, SEGMENT_SORT) -/

/-- The pin counts of a partition's adapters changed by k for each reference of a request. -/
def addPins (s : State) (q : Req) (k : Int) : State :=
  (adRefs q).foldl (fun t i => updAdapter t q.part i fun a => { a with pins := ((a.pins : Int) + k).toNat }) s

/-- Provisional pins taken for the requests of a plan that hold none (R85, R86). -/
def takePins (s : State) (rows : List PlanRow) : State :=
  ((rows.map (·.h)).eraseDups).foldl (fun t h =>
    match reqOf t h with
    | some q => if q.pins == .none then addPins (updReq t h fun x => { x with pins := .provisional }) q 1 else t
    | none => t) s

/-! ### Freezing -/

/-- The entries of a plan as STEP_SYNC PLAN carries them (Table LNK-8). -/
def planEntry (r : PlanRow) : Bytes :=
  leBytes 8 r.h ++ leBytes 4 r.first ++ leBytes 2 r.n ++ leBytes 1 r.slot ++
    leBytes 1 (b2n r.cond * 8 + b2n r.catchUp * 4 + b2n r.shadow * 2 + b2n r.emits)

/-- A plan sent to every other member, in pieces of at most 255 entries (R21, R322). -/
def sendPlan (s : State) (p : Nat) (a : Attempt) : State :=
  let g := (partOf s p).items.groupSize
  let pieces := chunks 255 a.plan.rows
  let tag := ownerTag (partOf s p).serial a.no (ownIndex s g) 0 0
  (pieces.zipIdx).foldl (fun t e =>
    let body := e.1.flatMap planEntry
    sendOthers t g 0 (linkHeader 0x04 0x01 body.length p 0 0 tag (e.2 * 65536 + pieces.length) ++ body)) s

/-- An attempt of a plan, waiting for its clusters. -/
def newAttempt (plan : Plan) (no : Nat) (guarded : Bool) (dtc : Nat) (segs : List Seg) : Attempt :=
  { no := no, phase := .claim, plan := plan, pieces := [], escape := false, guarded := guarded, clusters := [], bonds := [],
    grantedAt := 0, claimAt := dtc, segs := segs, readyFrom := [], staged := [], sampled := [], twins := [],
    uSums := [], amRead := [],
    satRows := [], condVecs := [], shelveBy := 0, cheap := none, shelf := [], shelfFrames := [], shelfInvs := [], used := [], reclaims := [],
    rerun := .none }

/-- Whether a plan of a partition may be frozen here and now (R19, R21, R271, R340, R428, R477). -/
def canFreeze (s : State) (p : Nat) : Bool :=
  let x := partOf s p
  (x.st == .active || x.st == .draining) && !x.resetting && x.attempt.isNone && s.flt.pkg == .serving &&
    s.boot.stage == .serving && s.boot.fwPhase != .quiesce && s.host.linkUp && leads s p && (!spans s p || groupFormed s) &&
    heldByAll s p

/-- Rows reserved of a plan by tenant (R105). -/
def reservedOf (s : State) (rows : List PlanRow) : List (Nat × Nat) :=
  rows.foldl (fun acc r =>
    match reqOf s r.h with
    | some q => storeD acc q.tenant (lookupD acc q.tenant 0 + r.n) 0
    | none => acc) []

/-- A plan's reservations put on, or taken off, the buckets of tenants with a RATE (R105, R106). -/
def reserveAll (s : State) (rs : List (Nat × Nat)) (k : Int) : State :=
  rs.foldl (fun t e => updTenant t e.1 fun u =>
    if u.rate = 0 ∧ u.res = 0 then u else { u with res := u.res + k * (e.2 : Int) * tokenUnits }) s

/-- A plan frozen at instant f: refills, expiries, assembly, the Deadline Monitor, reservations, segments, pins and fetch
demands. An empty plan leaves the partition idle (R104-R119). -/
def freeze (s : State) (p f no : Nat) : State :=
  if !canFreeze s p then updPart s p fun x => { x with freezeAt := some f }
  else
    let s := expireNew (atFreeze s p f) p f
    let d := assemble s p f
    let (rows, fbOnly) := deadlineAdjust s p f d.rows
    let s := updPart s p fun x => { x with fetchQ := fetchDemands s p f d.skipped rows }
    if rows.isEmpty then s
    else
      let res := reservedOf s rows
      let plan : Plan := { rows := rows, fbOnly := fbOnly, tPred := predict s p rows, reserved := res }
      let s := takePins (reserveAll s res 1) rows
      let a := newAttempt plan no (partOf s p).protectNext s.boot.dtc (segmentsOf s.reqs rows)
      let s := updPart s p fun x => { x with attempt := some a, protectNext := false }
      if spans s p then sendPlan s p a else s

/-- An idle partition woken: its next freeze instant is 100 ticks after t, unless one is due sooner (R108, R169). -/
def wake (s : State) (p t : Nat) : State :=
  let x := partOf s p
  if x.attempt.isSome || !leads s p then s
  else updPart s p fun y => { y with freezeAt := some (match y.freezeAt with | some f => min f (t + 100) | none => t + 100) }

end Sys2Proof.Machine
end

