-- ==== Sys2Proof/Machine/Conv.lean ====
section
/-! DEFINITION. Conversation storage: KV geometry and frames, tail slots, quotas, parking entries, condensed states,
pins, and what a request gives back when it ends (05, 09 R253, 16 R455). -/

namespace Sys2Proof.Machine

/-! ### Adapters that retire (R84, R99, R100) -/

/-- Whether a frozen plan of a partition names adapter i (R84). -/
def planNames (s : State) (p i : Nat) : Bool :=
  match (partOf s p).attempt with
  | none => false
  | some a => a.plan.rows.any fun r => match reqOf s r.h with | some q => (adRefs q).contains i | none => false

/-- RETIRING adapters of a partition moved as far as Table ADP-7 lets them: RESIDENT without pins and named by no plan goes
EVICTING, ABSENT is unregistered. -/
def settleRetiring (s : State) (p : Nat) : State :=
  { s with adapters := (s.adapters.filter fun a => !(a.part == p && a.retiring && a.st == .absent)).map fun a =>
      if a.part == p && a.retiring && a.st == .resident && a.pins == 0 && !planNames s p a.idx then { a with st := .evicting } else a }

/-- A request's pins released (R85, R86). -/
def dropPins (s : State) (h : Nat) : State :=
  match reqOf s h with
  | none => s
  | some q =>
    if q.pins == .none then s
    else settleRetiring (addPins (updReq s h fun x => { x with pins := .none }) q (-1)) q.part

/-! ### KV geometry (R124, R126, R130, R132, R253) -/

/-- Layers, KV heads here, head width, page granules of a model's stream. -/
structure KvGeom where
  layers : Nat
  heads : Nat
  width : Nat
  deriving DecidableEq, Repr

/-- Granules of a page, G (R124, R253). -/
def KvGeom.page (g : KvGeom) : Nat := ceilDiv (32 * g.heads * g.width) 512

/-- The geometry of a bound model in a partition (R124). -/
def geomOf (x : Part) (k : ModelKey) : KvGeom :=
  match modelOfKey x k with
  | none => { layers := 0, heads := 0, width := 0 }
  | some m =>
    let h := match layoutIn x.items m with | some l => l.kvLocal | none => 0
    { layers := m.prog.layers, heads := h, width := m.prog.headWidth }

/-- Granules written by n positions (R130). -/
def kvGranules (g : KvGeom) (n : Nat) : Nat := n / 16 * g.layers * g.page

/-- Frames that n positions have taken (R130). -/
def kvFrames (g : KvGeom) (n : Nat) : Nat := ceilDiv (kvGranules g n) 128

/-- The frame quota of a stream of c positions (R132). -/
def quotaFor (g : KvGeom) (c : Nat) : Nat := ceilDiv (ceilDiv c 16 * g.layers * g.page) 128

/-- K or V of one head of a position in a layer; a position's bytes lie layer by layer, head by head, K before V. -/
def kvPart (g : KvGeom) (pos : Bytes) (l k v : Nat) : Bytes := slice pos (l * 2 * g.heads * g.width + (2 * k + v) * g.width) g.width

/-- A KV page: 16 positions of one layer (R253). -/
def kvPage (g : KvGeom) (ps : List Bytes) (l : Nat) : Bytes :=
  padTo ((List.range g.heads).flatMap fun k => [0, 1].flatMap fun v => ps.flatMap fun b => kvPart g b l k v) 512

/-- The whole pages of a stream in granule order (R130). -/
def kvBytes (g : KvGeom) (kv : List Bytes) : Bytes :=
  (List.range (kv.length / 16)).flatMap fun p =>
    let ps := (kv.drop (16 * p)).take 16
    (List.range g.layers).flatMap fun l => kvPage g ps l

/-- The bytes of frame f of a stream, unwritten granules zero (R130, R144). -/
def kvFrame (g : KvGeom) (kv : List Bytes) (f : Nat) : Bytes := slice (kvBytes g kv) (65536 * f) 65536

/-- The tail bytes of a stream: by layer, then position (R145). -/
def kvTail (g : KvGeom) (kv : List Bytes) : Bytes :=
  let ts := kv.drop (kv.length / 16 * 16)
  (List.range g.layers).flatMap fun l => ts.flatMap fun b => slice b (l * 2 * g.heads * g.width) (2 * g.heads * g.width)

/-- A position read back from pages (page bytes of its 16 positions, index within them). -/
def kvUnpack (g : KvGeom) (pages : Bytes) (i : Nat) : Bytes :=
  (List.range g.layers).flatMap fun l =>
    let pg := slice pages (512 * g.page * l) (512 * g.page)
    (List.range g.heads).flatMap fun k => [0, 1].flatMap fun v => slice pg ((2 * k + v) * 16 * g.width + i * g.width) g.width

/-- A stream's positions from its page bytes and tail bytes (R149). -/
def kvRestore (g : KvGeom) (n : Nat) (pages tail : Bytes) : List Bytes :=
  let full := n / 16
  let per := 512 * g.page * g.layers
  let t := n - 16 * full
  let row := 2 * g.heads * g.width
  ((List.range full).flatMap fun p => (List.range 16).map fun i => kvUnpack g (slice pages (per * p) per) i) ++
    (List.range t).map fun i => (List.range g.layers).flatMap fun l => slice tail ((l * t + i) * row) row

/-- Whether a request has a fallback stream (R125). -/
def hasFb (q : Req) : Bool := q.canFall && q.fb.isSome

/-- The geometry of a request's fallback stream. -/
def fbGeom (x : Part) (q : Req) : KvGeom := match q.fb with | some k => geomOf x k | none => { layers := 0, heads := 0, width := 0 }

/-- The frame quota of a request, for every stream it can have: a request bound to a fallback model may get a deadline with a later
CONV_RESUME, and then a fallback stream (R125, R132; log 68). -/
def reqQuota (x : Part) (q : Req) : Nat :=
  quotaFor (geomOf x q.base) q.samp.ctxMax + (if q.fb.isSome then quotaFor (fbGeom x q) q.samp.ctxMax else 0)

/-- Granules of a tail slot of a conversation bound to a base model and perhaps a fallback model. -/
def slotGranules (x : Part) (base : ModelKey) (fb : Option ModelKey) : Nat :=
  let one := fun k => let g := geomOf x k; g.layers * g.page
  one base + (match fb with | some k => one k | none => 0)

/-- The pairs of resident models a conversation of a partition can be bound to: the models that hold the roles, the one a load brings
into a role, and what the requests it has are bound to (R126, R273, R274). -/
def boundPairs (s : State) (p : Nat) : List (ModelKey × Option ModelKey) :=
  let x := partOf s p
  let fb := (modelOf x .fallback).map (·.key)
  (match modelOf x .base with | some m => [(m.key, fb)] | none => []) ++
    (match x.load with
      | some l => if !l.ready then [] else match modelAt x l.into, x.roles.getD l.slot .spare, modelOf x .base with
        | some m, .base, _ => [(m.key, fb)]
        | some m, .fallback, some b => [(b.key, some m.key)]
        | _, _, _ => []
      | none => []) ++
    (s.reqs.filter fun q => q.part == p && refsModel q).map fun q => (q.base, q.fb)

/-- The tail capacity of a partition in slots, for the largest slot its resident models need (R126). -/
def tailCapacity (s : State) (p : Nat) : Nat :=
  let x := partOf s p
  let slot := ((boundPairs s p).map fun e => slotGranules x e.1 e.2).foldl max 0
  let share := ceilDiv slot (partClusters x.items)
  if share = 0 then 0 else x.items.tail / (share * 512)

/-- Tail slots held or reserved in a partition. -/
def slotsHeld (s : State) (p : Nat) : Nat := (s.reqs.filter fun q => q.part == p && q.slot).length

/-- Whether a tail slot and a quota of k frames can be reserved (R132, R141). -/
def canReserve (s : State) (p k : Nat) : Bool :=
  decide (slotsHeld s p < tailCapacity s p) && decide (k ≤ usableFree s p)

/-! ### Regulators (R287) -/

/-- A transfer of b bytes charged to regulator i of a partition (0 HBM read, 1 HBM write, 2 link, 3 DMA). -/
def charge (s : State) (p i b : Nat) : State :=
  updPart s p fun x =>
    if (x.items.rates.getD i (0, 0)).1 = 0 then x else { x with levels := modAt x.levels i fun v => v - (b : Int) }

/-- Whether regulator i of a partition lets a transfer start (R287). -/
def mayStart (x : Part) (i : Nat) : Bool := (x.items.rates.getD i (0, 0)).1 == 0 || decide (0 < x.levels.getD i 0)

/-! ### Appending KV (R128, R130) -/

/-- Granules from a to b of a frame sequence as Sinter runs, a run ending with each frame. -/
def granuleRuns (fs : List Nat) (layer : Option Nat) (a b : Nat) : List Run :=
  (List.range (ceilDiv b 128 - a / 128)).filterMap fun i =>
    let f := a / 128 + i
    if b ≤ a then none else fs[f]?.map fun n => { frame := n, upto := min 128 (b - 128 * f), layer := layer }

/-- The pages that positions a to b of a stream complete, as Sinter runs in page and layer order (R128, R129, R130). -/
def pageRuns (g : KvGeom) (fs : List Nat) (a b : Nat) : List Run :=
  (List.range (b / 16 - a / 16)).flatMap fun i => (List.range g.layers).flatMap fun l =>
    let at_ := ((a / 16 + i) * g.layers + l) * g.page
    granuleRuns fs (some l) at_ (at_ + g.page)

/-- Frames opened for positions a to b of a stream, taken from the request's quota, and the pages they complete handed to the Sinter
Engine; a frame all of whose granules have been handed over is in transit (R128, R130, R133, R244). -/
def growStream (s : State) (h : Nat) (fb : Bool) (g : KvGeom) (a b : Nat) : State :=
  match reqOf s h with
  | none => s
  | some q =>
    let ga := kvGranules g a
    let gb := kvGranules g b
    let st := if fb then q.kvFb else q.kvBase
    let k := ceilDiv gb 128 - st.frames.length
    let s := updReq s h fun x => { x with quota := x.quota - k }
    match openFrames s q.part .kv (.stream h fb) k with
    | none => s
    | some (ns, s) =>
      let fs := st.frames ++ ns
      let s := updReq s h fun x => if fb then { x with kvFb := { x.kvFb with frames := fs } } else { x with kvBase := { x.kvBase with frames := fs } }
      let s := (fs.zipIdx).foldl (fun t e =>
        if ga < 128 * (e.2 + 1) && 128 * (e.2 + 1) ≤ gb then updFrame t e.1 fun f => { f with cls := .transit } else t) s
      handRuns s q.part (pageRuns g fs a b)

/-- KV rows appended to a stream (R128). -/
def appendKv (s : State) (h : Nat) (fb : Bool) (rows : List Bytes) : State :=
  match reqOf s h with
  | none => s
  | some q =>
    let x := partOf s q.part
    let g := if fb then fbGeom x q else geomOf x q.base
    let a := if fb then posFb q else posBase q
    let s := updReq s h fun y =>
      if fb then { y with kvFb := { y.kvFb with kv := y.kvFb.kv ++ rows } } else { y with kvBase := { y.kvBase with kv := y.kvBase.kv ++ rows } }
    growStream s h fb g a (a + rows.length)

/-! ### Giving back (R154, R158, R180, R273) -/

/-- A request's KV frames, quota and tail slot given back, and its streams emptied. -/
def dropKv (s : State) (h : Nat) : State :=
  match reqOf s h with
  | none => s
  | some q =>
    updReq (freeFrames s (q.kvBase.frames ++ q.kvFb.frames)) h fun x =>
      { x with kvBase := { kv := [], frames := [] }, kvFb := { kv := [], frames := [] }, quota := 0, slot := false }

/-- A request's condensed state given back. -/
def dropCond (s : State) (h : Nat) : State :=
  match reqOf s h with
  | none => s
  | some q =>
    match q.cond with
    | none => s
    | some c => updReq (freeFrames s c.frames) h fun x => { x with cond := none }

/-- Everything a request that has ended still holds given back, and the request forgotten (R180). -/
def releaseReq (s : State) (h : Nat) : State :=
  match reqOf s h with
  | none => s
  | some q =>
    let t := dropCond (dropKv (dropPins s h) h) h
    reapModels (settleRetiring { t with reqs := t.reqs.filter (fun x : Req => x.h != h) } q.part) q.part

/-- Every ended request of a partition that no frozen plan names released (R180). -/
def releaseEnded (s : State) (p : Nat) : State :=
  let busy : List Nat := match (partOf s p).attempt with | some a => a.plan.rows.map (·.h) | none => []
  (s.reqs.filter fun q => q.part == p && !living q && !busy.contains q.h).foldl (fun t q => releaseReq t q.h) s

/-! ### Windows (R239, R345-R348) -/

/-- Window descriptor d. -/
def winOf (s : State) (d : Nat) : Win :=
  (s.host.wins.find? fun w => w.d == d).getD
    { d := d, table := 0, length := 0, pageLog2 := 0, owner := 0, use := 0, valid := false, error := false, outstanding := 0 }

/-- Window descriptor kept. -/
def putWin (s : State) (w : Win) : State :=
  { s with host := { s.host with wins := insertBy (·.d) w (s.host.wins.filter fun v => v.d != w.d) } }

/-- Whether an access of n bytes at an offset of a window is within it, with a USE bit (0 READ, 1 WRITE), by a message of
a function (R239, R348). -/
def winOk (s : State) (fn d use off n : Nat) : Bool :=
  let w := winOf s d
  w.valid && bit w.use use && decide (off + n ≤ w.length) && (fn == 0 || w.owner == fn)

/-- The PARK window of a partition (R143, R346). -/
def parkWindow (s : State) (p : Nat) : Option Win :=
  s.host.wins.find? fun w => w.d / 64 == p && w.valid && bit w.use 2

/-- BUSY of a window: accesses under it are not complete, those of a park before its barrier and of a resume being such (R347, R361,
Table HST-4a). -/
def winBusy (s : State) (w : Win) : Bool :=
  decide (0 < w.outstanding) ||
    (bit w.use 2 && s.reqs.any fun q => q.part == w.d / 64 && q.outcome.isNone && (q.parking.any (fun k => !k.barrier) || q.conv == .resuming))

/-- The DPA of an offset of a window (R239). -/
def winAddr (d off : Nat) : Nat := 0x100000000000 + d * 2 ^ 36 + off

/-! ### Parking entries (R145, R146, R455) -/

/-- The tenant key of a generation. -/
def keyOf (s : State) (tenant gen : Nat) : Option TenantKey :=
  match tenantOf s tenant with
  | some t => t.keys.find? fun k => k.gen == gen
  | none => none

/-- The current key of a tenant. -/
def currentKey (s : State) (tenant : Nat) : Option TenantKey :=
  match tenantOf s tenant with
  | some t => t.keys.head?
  | none => none

/-- K_park (R455). -/
def parkKey (s : State) (k : TenantKey) : Digest := hmac k.key (ascii "SWPK" ++ s.boot.deviceId ++ leBytes 4 k.gen)

/-- The GCM IV of part n of an entry (R146, R455). -/
def partIv (ivBase n : Nat) : Bytes := leBytes 8 ivBase ++ leBytes 4 n

/-- The frames of a request's streams in entry order, as 64 KiB of bytes each (R144, R145). -/
def entryFrames (x : Part) (q : Req) : List Bytes :=
  let one := fun (g : KvGeom) (kv : List Bytes) => (List.range (kvFrames g kv.length)).map fun f => kvFrame g kv f
  one (geomOf x q.base) q.kvBase.kv ++ (if hasFb q then one (fbGeom x q) q.kvFb.kv else [])

/-- The clear header (Table CNV-5). -/
def parkHeader (s : State) (q : Req) (frames tail gen ivBase len parkedAt ttl : Nat) : Bytes :=
  let it := (partOf s q.part).items
  ascii "SWPK" ++ leBytes 2 1 ++ leBytes 2 q.tenant ++ leBytes 8 q.h ++ leBytes 1 it.groupSize ++
    leBytes 1 (ownIndex s it.groupSize) ++ leBytes 1 (if hasFb q then 2 else 1) ++ zeroBytes 1 ++ leBytes 4 frames ++
    leBytes 4 tail ++ leBytes 4 gen ++ leBytes 8 ivBase ++ leBytes 8 len ++ leBytes 8 parkedAt ++ leBytes 8 (parkedAt + ttl) ++
    zeroBytes 192

/-- The manifest before encryption (R145). -/
def parkManifest (x : Part) (q : Req) (frames : List Bytes) : Bytes :=
  let fbf := if hasFb q then kvFrames (fbGeom x q) (posFb q) else 0
  let fix := slice q.ident 0 32 ++ slice q.digest 0 32 ++ leBytes 8 q.next ++ leBytes 4 (posBase q) ++
    leBytes 4 (kvFrames (geomOf x q.base) (posBase q)) ++ q.base.weights ++
    (if hasFb q then leBytes 4 (posFb q) ++ leBytes 4 fbf ++ (match q.fb with | some k => k.weights | none => []) else zeroBytes 40) ++
    leBytes 1 (b2n q.fbMode) ++ leBytes 2 q.fbLeft
  slice fix 0 256 ++ frames.flatMap sha256

/-- The parts of an entry in order, each with its padding, its header's digest and its manifest tag (Table CNV-4). -/
def parkEntry (s : State) (q : Req) (k : TenantKey) (parkedAt ttl : Nat) : List Bytes × Digest × Bytes :=
  let x := partOf s q.part
  let fs := entryFrames x q
  let tail := kvTail (geomOf x q.base) q.kvBase.kv ++ (if hasFb q then kvTail (fbGeom x q) q.kvFb.kv else [])
  let man := parkManifest x q fs
  let manLen := ceilDiv (man.length + 16) 512 * 512
  let tailLen := if tail.isEmpty then 0 else ceilDiv (tail.length + 16) 512 * 512
  let len := 256 + manLen + 65552 * fs.length + tailLen
  let iv := s.boot.epoch * 2 ^ 32 + k.uses
  let hdr := parkHeader s q fs.length tail.length k.gen iv len parkedAt ttl
  let key := parkKey s k
  let sealPart := fun n (pt : Bytes) => gcmSeal key (partIv iv n) hdr pt
  let m := sealPart 0 man
  let parts := [hdr, padTo m 512] ++ ((fs.zipIdx 1).map fun e => sealPart e.2 e.1) ++
    (if tail.isEmpty then [] else [padTo (sealPart (fs.length + 1) tail) 512])
  (parts, sha256 hdr, m.drop man.length)

/-! ### Parking (R140, R144, R147) -/

/-- A completion barrier issued through a function (R361). -/
def issueBarrier (s : State) (fn : Nat) (why : BarrierFor) : State :=
  { s with host := { s.host with barriers := s.host.barriers ++ [{ tag := s.host.nextTag, fn := fn, why := why }]
                                 nextTag := s.host.nextTag + 1 } }

/-- Whether a park's next part is one whose write has failed. -/
def retrying (k : Parking) : Bool := decide (0 < k.tries) && k.failing == k.written

/-- A failed write of part i counted; the park goes on from that part (R144). -/
def Parking.fail (k : Parking) (i : Nat) : Parking :=
  { k with written := i, barrier := false, tries := if k.failing = i then k.tries + 1 else 1, failing := i }

/-- The DMA engine's next commands wait for their regulators and for the turn of their partition among those with a park that writes
(R279, R285, R287). -/
def dmaTurn (s : State) (p : Nat) : Bool :=
  let wants := fun x => mayStart (partOf s x) 3 && mayStart (partOf s x) 0 && s.reqs.any fun q => q.part == x && (match q.parking with
    | some k => decide (k.written < k.parts.length) && !retrying k
    | none => false)
  wants p && nextServed s.served.dma wants == some p

/-- Where part i of an entry starts in its window. -/
def partOffset (k : Parking) (i : Nat) : Nat := k.offset + sumNat ((k.parts.take i).map List.length)

/-- Whether part i of an entry is a frame record. -/
def frameRecord (b : Bytes) : Bool := b.length == 65552

/-- One part of an entry written to the window, its host write charged, and for a frame record its HBM read (R144 step 2, R287). -/
def writePart (s : State) (p : Nat) (w : Win) (off : Nat) (b : Bytes) : State :=
  let s := (chunks 512 b).zipIdx.foldl (fun t e =>
    issue t { fn := w.owner, kind := .park, addr := winAddr w.d (off + 512 * e.2), data := e.1 }) s
  let s := charge (if frameRecord b then charge s p 0 65536 else s) p 3 b.length
  { s with served := { s.served with dma := some p } }

/-- Whether every frame of a request's streams is sealed (R144 step 1). -/
def framesSealed (s : State) (q : Req) : Bool :=
  (q.kvBase.frames ++ q.kvFb.frames).all fun n => match frameOf s n with | some f => f.sealed | none => true

/-- The parts of a park's entry written one after another from the first that is not, and the barrier behind the last (R144 steps 2
and 3). A write that the window checks refuse is counted, and stops there (R348). The fuel is the number of parts and one. -/
def writeParts : Nat → State → Nat → State
  | 0, s, _ => s
  | n + 1, s, h =>
    match reqOf s h with
    | none => s
    | some q =>
      match q.parking with
      | none => s
      | some k =>
        let put := fun t (k : Parking) => updReq t h fun x => { x with parking := some k }
        let w := match parkWindow s q.part with | some w => w | none => winOf s 512
        match k.parts[k.written]? with
        | none =>
          if k.barrier || s.host.barriers.any (fun b => b.why == .park h) then s
          else issueBarrier s w.owner (.park h)
        | some b =>
          if !dmaTurn s q.part && !retrying k then s
          else if !winOk s 0 w.d 1 (partOffset k k.written) b.length then put s (k.fail k.written)
          else writeParts n (put (writePart s q.part w (partOffset k k.written) b) { k with written := k.written + 1 }) h

/-- A park's writes, once its frames are sealed (R144). -/
def parkWrites (s : State) (h : Nat) : State :=
  match reqOf s h with
  | none => s
  | some q => match q.parking with
    | some k => if framesSealed s q then writeParts (k.parts.length + 1) s h else s
    | none => s

/-- The write of part n of an entry has failed: after the second retry it stays failed, and before that the whole part is written again,
and then what follows it (R144). -/
def rewritePart (s : State) (h n : Nat) : State :=
  match reqOf s h with
  | none => s
  | some q => match q.parking with
    | none => s
    | some k =>
      let s := { s with host := { s.host with barriers := s.host.barriers.map fun b => if b.why == .park h then { b with why := .none } else b } }
      let s := updReq s h fun x => { x with parking := some (k.fail n) }
      if (k.fail n).tries < 3 then parkWrites s h else s

/-- A pause called for by an end or idle action that cannot proceed: HELD, counted, the idle clock restarted (R138). -/
def pauseFails (s : State) (h : Nat) : State :=
  updReq s h fun q => { q with conv := .held, pauseFails := satAdd 64 q.pauseFails 1, idleAt := some s.boot.dtc, want := none }

/-- A conversation's KV frames moved between classes (R133). -/
def kvClass (s : State) (q : Req) (a b : FrameClass) : State :=
  (q.kvBase.frames ++ q.kvFb.frames).foldl (fun t n => updFrame t n fun f => if f.cls == a then { f with cls := b } else f) s

/-- A pause that cannot begin: a message completes with a code and the conversation is as it was; an action's leaves it HELD
(R138, R390). -/
def pauseRefused (s : State) (h : Nat) (c : Code) : State :=
  match reqOf s h with
  | none => s
  | some q =>
    if q.want.isNone then pauseFails s h
    else
      let s := updReq s h fun x => { x with want := none, wantCtx := none }
      match q.wantCtx with
      | some x => refuse s x c
      | none => s

/-! #### Parks and resumes of a group (R151; log 24) -/

/-- How the transfer of a park or resume stands on a member, as it tells the others. -/
inductive WorkCode where
  | parked
  | parkFails
  | resumed
  | badDigest
  | otherLayout
  | readFails
  /-- the leader's: the park completes, is given up, the resume completes, or goes back to PARKED -/
  | parkEnds
  | parkGivenUp
  | resumeEnds
  | resumeBack
  deriving DecidableEq, Repr

/-- The code of a transfer's state on the link (log 24). -/
def WorkCode.val : WorkCode → Nat
  | .parked => 1
  | .parkFails => 2
  | .resumed => 3
  | .badDigest => 4
  | .otherLayout => 5
  | .readFails => 6
  | .parkEnds => 11
  | .parkGivenUp => 12
  | .resumeEnds => 13
  | .resumeBack => 15

/-- What every member of a block last told of a request's transfer, this one included. -/
def workTold (s : State) (p h : Nat) : List Nat :=
  (List.range (partOf s p).items.groupSize).map fun j =>
    match told s (blockMember s (partOf s p).items.groupSize j) p .work h with | some b => rd b 0 1 | none => 0

/-- This member's state of a request's transfer told to the others. -/
def report (s : State) (p h : Nat) (c : WorkCode) : State := announce s p (partOf s p).items.groupSize .work h (leBytes 1 c.val)

/-- What was told of a request's earlier transfers forgotten. -/
def clearWork (s : State) (h : Nat) : State :=
  { s with notices := s.notices.filter fun n => !(n.kind == NoticeKind.work.code && n.key == h) }

/-! #### The steps of a park -/

/-- The open frame of each stream filled up with zeros and sealed (R144 step 1, R244). -/
def sealStreams (s : State) (q : Req) : State :=
  let open_ := (q.kvBase.frames ++ q.kvFb.frames).filter fun n => match frameOf s n with
    | some f => !f.sealed && !(partOf s q.part).handed.any fun r => r.frame == n && r.upto == 128
    | none => false
  handRuns (kvClass s q .kv .transit) q.part (wholeRuns (open_.filter fun n => match frameOf s n with | some f => f.written != 128 | none => false))

/-- Frames of a stream of n granules as they were before a park sealed them: the last, if it is not full, open again (log 75). -/
def reopenStream (s : State) (fs : List Nat) (n : Nat) : State :=
  match fs[n / 128]? with
  | some f =>
    let s := { s with parts := s.parts.map fun p : Part => { p with handed := p.handed.filter fun r => !(r.frame == f && r.upto == 128 && r.layer.isNone) } }
    if (match frameOf s f with | some e => decide (n % 128 < e.written) || e.sealed | none => false) then reopenFrame s f (n % 128) .kv else s
  | none => s

/-- A conversation's frames back from transit, after a park that does not complete. -/
def unsealStreams (s : State) (q : Req) : State :=
  let x := partOf s q.part
  let s := reopenStream s q.kvBase.frames (kvGranules (geomOf x q.base) (posBase q))
  let s := reopenStream s q.kvFb.frames (kvGranules (fbGeom x q) (posFb q))
  (q.kvBase.frames ++ q.kvFb.frames).foldl (fun t n => updFrame t n fun f => if f.sealed then { f with cls := .kv } else f) s

/-- A park begins (R144 steps 1 and 2); without a key, a use count left, a TTL or a PARK window it fails (R138, R455, R456). The DTC at
which it will complete is in the header, and so is fixed now: a value the spec leaves open (log 33). -/
def beginPark (s : State) (h offset stride ttl keyGen : Nat) : State :=
  match reqOf s h with
  | none => s
  | some q =>
    let fails := fun t => pauseRefused (if spans t q.part then report t q.part h (if leads t q.part then .parkGivenUp else .parkFails) else t) h .parkFault
    let s := clearWork s h
    let key := match keyOf s q.tenant keyGen with | some k => some k | none => currentKey s q.tenant
    match key, parkWindow s q.part with
    | some k, some _ =>
      if 2 ^ 32 - 1 ≤ k.uses ∨ ttl = 0 then fails s
      else
        let (at_, s) := freeStamp s (s.boot.dtc + 1)
        let (parts, hd, tag) := parkEntry s q k at_ ttl
        let off := offset + ownIndex s (partOf s q.part).items.groupSize * stride
        let rec_ : ParkRec := { offset := off, entryLen := sumNat (parts.map List.length), expiresAt := at_ + ttl, hdrDigest := hd, tag := tag
                                keyGen := k.gen }
        let s := updTenant s q.tenant fun t =>
          { t with keys := t.keys.map fun y => if y.gen == k.gen then { y with uses := y.uses + 1 } else y }
        let s := updReq (sealStreams s q) h fun x =>
          { x with conv := .parking, idleAt := none, queuedAt := none
                   parking := some { offset := off, ttl := ttl, from_ := q.conv, stamp := at_, parts := parts, written := 0, record := rec_
                                     tries := 0, failing := 0, barrier := false } }
        parkWrites s h
    | _, _ => fails s

/-- A park abandoned: the conversation is as before, HELD after an end or idle action (R138, R144). -/
def abandonPark (s : State) (h : Nat) : State :=
  match reqOf s h with
  | none => s
  | some q =>
    match q.parking with
    | none => s
    | some k =>
      let s := updReq (unsealStreams s q) h fun x =>
        { x with parking := none, conv := k.from_, idleAt := if k.from_ == .held then some s.boot.dtc else none }
      pauseRefused s h .parkFault

/-- A park completed (R144 step 4): parking record, frames, quota and slot back, pins released, PARK event, response
(R86, R147, R189, R390). -/
def finishPark (s : State) (h : Nat) : State :=
  match reqOf s h with
  | none => s
  | some q =>
    match q.parking with
    | none => s
    | some k =>
      let s := dropPins (dropKv s h) h
      let s := updReq s h fun x => { x with conv := .parked, parking := none, want := none, wantCtx := none, record := some k.record }
      let s := reapModels s q.part
      let s := jrnOut s h [{ kind := .park, ty := 7, len := 32, body := eventEntry 4 0 0 q.next k.stamp k.ttl }]
      match q.wantCtx with
      | some c => respond s c .success (leBytes 8 k.record.entryLen ++ leBytes 8 k.record.expiresAt)
      | none => s

/-- The leader's decision about a park that spans members: given up if it fails on any of them, complete once it is on all (R151). -/
def settlePark (s : State) (h : Nat) : State :=
  match reqOf s h with
  | none => s
  | some q =>
    let ws := workTold s q.part h
    if q.parking.isNone || !leads s q.part then s
    else if ws.contains WorkCode.parkFails.val then abandonPark (report s q.part h .parkGivenUp) h
    else if ws.all (· == WorkCode.parked.val) then finishPark (report s q.part h .parkEnds) h
    else s

/-- A park has done its own part, or failed at it: it ends here, or in a group where the leader has heard of every member. -/
def ownPark (s : State) (h : Nat) (ok : Bool) : State :=
  match reqOf s h with
  | none => s
  | some q =>
    if spans s q.part then settlePark (report s q.part h (if ok then .parked else .parkFails)) h
    else if ok then finishPark s h else abandonPark s h

/-! ### Resuming from PARKED (R149, R150) -/

/-- What the verification of a parked entry finds (R149). -/
inductive EntryCheck where
  | readFails
  | layout
  | bad
  | good (kvBase kvFb : List Bytes)
  deriving DecidableEq, Repr

/-- Every frame record of an entry opened and compared with the manifest; none at the first failure. -/
def openFramesOf (key hdr : Bytes) (iv : Nat) (man body : Bytes) : Nat → Nat → Option Bytes
  | 0, _ => some []
  | n + 1, i =>
    match gcmOpen key (partIv iv (i + 1)) hdr (slice body (65552 * i) 65552) with
    | none => none
    | some f =>
      if sha256 f == slice man (256 + 32 * i) 32 then
        (match openFramesOf key hdr iv man body n (i + 1) with
          | some rest => some (f ++ rest)
          | none => none)
      else none

/-- The verification of a parked entry against the request's record (R149). -/
def checkEntry (s : State) (q : Req) (entry : ReadResult) : EntryCheck :=
  match entry, q.record with
  | none, _ => .readFails
  | _, none => .bad
  | some bs, some r =>
    let x := partOf s q.part
    let it := x.items
    let hdr := slice bs 0 256
    if sha256 hdr != r.hdrDigest then .bad
    else if rd hdr 16 1 != it.groupSize || rd hdr 17 1 != ownIndex s it.groupSize then .layout
    else
      match keyOf s q.tenant (rd hdr 28 4) with
      | none => .bad
      | some k =>
        let key := parkKey s k
        let iv := rd hdr 32 8
        let nf := rd hdr 20 4
        let tb := rd hdr 24 4
        let manLen := 256 + 32 * nf
        let box := slice bs 256 (manLen + 16)
        match gcmOpen key (partIv iv 0) hdr box with
        | none => .bad
        | some man =>
          if box.drop manLen != r.tag then .bad
          else
            let body := bs.drop (256 + ceilDiv (manLen + 16) 512 * 512)
            match openFramesOf key hdr iv man body nf 0 with
            | none => .bad
            | some pages =>
              let tail := if tb = 0 then some [] else gcmOpen key (partIv iv (nf + 1)) hdr (slice (body.drop (65552 * nf)) 0 (tb + 16))
              match tail with
              | none => .bad
              | some t =>
                let gb := geomOf x q.base
                let gf := fbGeom x q
                let nb := rd man 72 4
                let nfb := rd man 112 4
                let tbB := (nb - nb / 16 * 16) * gb.layers * 2 * gb.heads * gb.width
                .good (kvRestore gb nb pages t)
                  (if hasFb q then kvRestore gf nfb (pages.drop (65536 * rd man 76 4)) (t.drop tbB) else [])

/-- The RESUME event and its INPUT entries (R189, Table CAP-7). -/
def resumeEntries (st index accept : Nat) (app : List Nat) : List WaitEntry :=
  { kind := .resume, ty := 7, len := 32, body := eventEntry 5 st app.length index accept 0 } ::
    (chunks 14 app).map fun ts => { kind := .resume, ty := 5, len := 4 * ts.length, body := ts.flatMap (leBytes 4) }

/-- A request without a deadline has no fallback stream: its frames go back to its quota, and it runs in base mode, with a catch-up of
what it had processed in fallback mode (R116, R125; log 68). -/
def dropFb (s : State) (h : Nat) : State :=
  match reqOf s h with
  | none => s
  | some q =>
    updReq (freeFrames s q.kvFb.frames) h fun x =>
      { x with kvFb := { kv := [], frames := [] }, quota := x.quota + q.kvFb.frames.length, canFall := false, fbMode := false, fbLeft := 0
               catchUp := if q.fbMode then some (posBase q) else x.catchUp }

/-- A request with its deadlines as they now are: it has a fallback stream while it has a deadline and a fallback model (R125). -/
def setFall (s : State) (h : Nat) : State :=
  match reqOf s h with
  | none => s
  | some q =>
    if (q.firstDl != 0 || q.tokDl != 0) && q.fb.isSome then updReq s h fun x => { x with canFall := true } else dropFb s h

/-- A conversation LIVE again with APPEND tokens and new deadlines (R141). -/
def goLive (s : State) (h : Nat) (app : List Nat) (fdl tdl acc : Nat) : State :=
  match reqOf s h with
  | none => s
  | some q =>
    let s := updReq s h fun x =>
      { x with conv := .live, input := x.input ++ app, firstDl := fdl, tokDl := tdl, accept := acc, tStart := x.next
               turnTokens := 0, resumed := true, idleAt := none, want := none, wantCtx := none, queuedAt := some acc, resumeTries := 0 }
    wake (setFall s h) q.part s.boot.dtc

/-- Whether an adapter that a request references is BAD (R90). -/
def refsBad (s : State) (q : Req) : Bool := (adRefs q).any fun i => match adapterOf s q.part i with | some a => a.bad | none => false

/-- A RESUMING conversation put back to PARKED: what it took is freed (R149, R428). -/
def backToParked (s : State) (h : Nat) : State :=
  updReq (dropKv s h) h fun x => { x with conv := .parked, want := none, wantCtx := none, resumeTries := 0 }

/-! ### Condensing (R153, R154, R528) -/

/-- Granules of one condensed vector (R154). -/
def vecGranules (m : Model) : Nat := ceilDiv (2 * m.prog.modelWidth) 512

/-- S for P positions (R153, Table CLU-2). -/
def condCount (prog : Program) (p : Nat) : Nat := min prog.condMax (ceilDiv p prog.condDiv)

/-- A conversation enters CONDENSING, its frames reserved first from its own quota; none where they cannot be (R528). -/
def enterCondense (s : State) (h : Nat) : Option State :=
  match reqOf s h with
  | none => none
  | some q =>
    match modelOf (partOf s q.part) .condenser with
    | none => none
    | some m =>
      let n := posBase q
      let k := condCount m.prog n
      let need := ceilDiv (k * vecGranules m * 512) 65536
      let own := min need q.quota
      if m.unloading || decide (usableFree s q.part + own < need) then none
      else
        let s := updReq (dropCond s h) h fun x => { x with quota := x.quota - own }
        match openFrames s q.part .condensed (.condensed h) need with
        | none => none
        | some (fs, s) =>
          some (wake (updReq s h fun x =>
            { x with conv := .condensing, idleAt := none
                     cond := some { p := n, s := k, key := m.key, frames := fs, vecs := [], digest := [] } }) q.part s.boot.dtc)

/-- Whether a partition has a condenser that takes new references (R153, R276). -/
def hasCondenser (s : State) (p : Nat) : Bool :=
  match modelOf (partOf s p) .condenser with | some m => !m.unloading | none => false

/-- A condense begins; a message that finds no frames completes NO_RESOURCE, an action leaves HELD (R138, R390, R528). -/
def beginCondense (s : State) (h : Nat) : State :=
  match enterCondense s h with
  | some t => t
  | none =>
    match reqOf s h with
    | none => s
    | some q => pauseRefused s h (if hasCondenser s q.part then .noResource else .modelNotResident)

/-- A pause that was accepted takes effect (R140). -/
def applyWant (s : State) (h : Nat) : State :=
  match reqOf s h with
  | none => s
  | some q =>
    if q.cancel.isSome || !living q then s
    else match q.want with
    | some (.park o st t g) => if q.conv == .live || q.conv == .held then beginPark s h o st t g else s
    | some .condense => if q.conv == .live || q.conv == .held then beginCondense s h else s
    | _ => s

end Sys2Proof.Machine
end

