-- ==== Sys2Proof/Machine/Kill.lean ====
section
/-! DEFINITION. Killing a step attempt: what it gives back at once, credit reclaim, and what follows when the kill
completes (01 R24; 08 R221, R223, R228; 10 R291, R292, Table PAR-6; 11 R322, R324). -/

namespace Sys2Proof.Machine

/-- Everything the Governor holds or queues for a requester given back (R411, R413). -/
def govDropReq (g : Gov) (req : Nat) : Gov :=
  let held := sumNat ((g.permits.filter fun p => p.req == req).map (·.du))
  let adm := sumNat ((g.queue.filter fun r => r.req == req).map (·.admitted))
  { g with permits := g.permits.filter fun p => p.req != req
           queue := g.queue.filter fun r => r.req != req
           arrivals := g.arrivals.filter fun r => r.req != req
           releases := g.releases + held + adm }

/-- A cluster's array and AMVU permits and requests given back (R412). -/
def dropClusterPermits (s : State) (c : Nat) : State := { s with gov := govDropReq (govDropReq s.gov c) (192 + c) }

/-- STEP and ATTEMPT of the owner tags of an attempt (Table CLU-13). -/
def attemptTag (x : Part) (a : Attempt) : Nat := x.serial % 4096 * 16 + a.no % 16

/-- The owner tag of this member's hub for an attempt. -/
def hubTag (s : State) (p : Nat) (a : Attempt) : Nat :=
  let x := partOf s p
  ownerTag x.serial a.no (ownIndex s x.items.groupSize) 0 0

/-- The requests of a plan. -/
def planHandles (a : Attempt) : List Nat := (a.plan.rows.map (·.h)).eraseDups

/-- Provisional pins of a plan's requests released (R85). -/
def dropProvisional (s : State) (p : Nat) (hs : List Nat) : State :=
  settleRetiring (hs.foldl (fun t h =>
    match reqOf t h with
    | some q => if q.pins == .provisional then addPins (updReq t h fun x => { x with pins := .none }) q (-1) else t
    | none => t) s) p

/-- What a killed attempt gives back at once (Table PAR-6): permits, reservations, provisional pins, shelf frames, and
everything in its clusters. -/
def releaseAttempt (s : State) (p : Nat) (a : Attempt) : State :=
  let s := a.clusters.foldl (fun t c =>
    putCluster (dropClusterPermits t c) { idleCluster c with holder := (clusterOf t c).holder }) s
  let s := freeFrames s a.shelfFrames
  dropProvisional (reserveAll s a.plan.reserved (-1)) p (planHandles a)

/-- KILLS of the partition and PREEMPTED of the tenants with rows, under FULL (Table PAR-3). -/
def countPreempt (s : State) (p : Nat) (a : Attempt) (kill : Bool) : State :=
  if !(partOf s p).items.full then s
  else
    let s := updPart s p fun x =>
      if kill then { x with kills := satAdd 64 x.kills 1 } else { x with shelves := satAdd 64 x.shelves 1 }
    ((reservedOf s a.plan.rows).map (·.1)).foldl (fun t id =>
      updTenant t id fun u => { u with preempted := satAdd 64 u.preempted 1 }) s

/-- The partition's semaphores BROKEN; those owned here are relayed to every member (R228, R321). -/
def breakSems (s : State) (p : Nat) : State :=
  let x := partOf s p
  let own := ownIndex s x.items.groupSize
  let s := updPart s p fun y => { y with sems := y.sems.map fun m => { m with st := .broken } }
  x.sems.foldl (fun t m =>
    if spans t p && tagMember m.owner == own && m.st != .broken then
      sendOthers t x.items.groupSize 0 (linkHeader 0x03 0x07 0 p m.id 0 m.owner 0)
    else t) s

/-- Whether bytes waiting for the wire are a VC1 or VC2 message of an attempt that has not begun. -/
def ofAttempt (p tag : Nat) (m : TxMsg) : Bool :=
  !m.begun && (m.vc == 1 || m.vc == 2) && rd m.bytes 4 1 == p && rd m.bytes 8 4 / 65536 == tag

/-- TX_FLITS of a VC as it will stand when its begun message has left (R324). -/
def flitsBy (x : Port) (v : Nat) : Nat :=
  ((vcOf x v).txFlits + sumNat ((x.txq.filter fun m => m.vc == v && m.begun).map fun m => ceilDiv m.bytes.length 240)) % 2 ^ 48

/-- CREDIT_RECLAIM REQ sent on a port after the last flit of a killed attempt (R324 item 1). -/
def reclaimPort (s : State) (p tag member port : Nat) : State :=
  let s := updPort s port fun x => { x with txq := x.txq.filter fun m => !ofAttempt p tag m }
  let x := portOf s port
  let s := { s with group := { s.group with reclaims := satAdd 32 s.group.reclaims 1 } }
  portSend s port 3 (linkHeader 0x06 0x01 16 p 0 0 (tag * 65536 + member * 8192) 0 ++ leBytes 8 (flitsBy x 1) ++ leBytes 8 (flitsBy x 2))

/-- Whether a received message belongs to a killed attempt. -/
def msgOf (p tag : Nat) (m : LinkMsg × Nat × Nat) : Bool :=
  m.1.part == p && m.1.tag / 65536 == tag && (m.2.1 == 1 || m.2.1 == 2)

/-- A VC's buffered messages of a killed attempt discarded and their flits freed (R324 item 2). -/
def discardVc (now p tag : Nat) (v : VcState) : VcState :=
  let k := sumNat ((v.msgs.filter (msgOf p tag)).map (·.2.2))
  { v with msgs := v.msgs.filter fun m => !msgOf p tag m, rxUsed := v.rxUsed - k, owed := v.owed + k
           owedAt := if v.owed = 0 then now else v.owedAt }

/-- A port's receiver learns of a kill: its reclaim opens and buffered messages go (R324). -/
def openReclaim (s : State) (p tag port : Nat) : State :=
  updPort s port fun x =>
    { x with vcs := (x.vcs.zipIdx).map fun e => if e.2 == 1 || e.2 == 2 then discardVc s.boot.dtc p tag e.1 else e.1
             reclaimRx := (x.reclaimRx ++ [(p, tag)]).eraseDups }

/-- What follows a kill that a second cause joins: the discard of a plan takes over. -/
def joinRerun (old new : Rerun) : Rerun :=
  match old, new with
  | .none, _ => .none
  | _, .none => .none
  | _, .fresh => .fresh
  | r, _ => r

/-- An attempt's holding interval, if it holds clusters, joined to those of its step (R284); and for a claim of a TIME set the ticks it
has waited, under FULL (Table PAR-3). -/
def closeInterval (s : State) (p : Nat) (a : Attempt) : State :=
  updPart s p fun x =>
    { x with stepHeld := if a.clusters.isEmpty then x.stepHeld else x.stepHeld + (s.boot.dtc - a.grantedAt)
             turnWait := if (a.phase == .claim || a.phase == .shelved) && x.items.full && x.items.time then
               satAdd 64 x.turnWait (s.boot.dtc - a.claimAt) else x.turnWait }

/-- A step attempt discarded (R292, R324); with `tell`, every other member gets ABORT with a reason (R322). -/
def killStart (s : State) (p reason : Nat) (rr : Rerun) (tell : Bool) : State :=
  let x := partOf s p
  match x.attempt with
  | none => s
  | some a =>
    if a.phase == .killing then
      updPart s p fun y => { y with attempt := some { a with rerun := joinRerun a.rerun rr } }
    else
      let tag := attemptTag x a
      let own := ownIndex s x.items.groupSize
      let s := breakSems (countPreempt (releaseAttempt (if a.phase == .claim || a.phase == .shelved then closeInterval s p a else s) p a) p a true) p
      let s := a.bonds.foldl (fun t n => openReclaim t p tag n) s
      let s := a.used.foldl (fun t n => reclaimPort t p tag own n) s
      let s := updPart s p fun y =>
        { y with attempt := some { a with phase := .killing, rerun := rr, reclaims := a.used, staged := [], sampled := []
                                          twins := [], uSums := [], amRead := [], satRows := [], condVecs := [], shelf := [], shelfFrames := [] }
                 turn := false }
      if tell && spans s p then
        sendOthers s x.items.groupSize 0 (linkHeader 0x04 0x04 0 p 0 0 (hubTag s p a) reason)
      else s

/-- A tensor of a model whose XP64 bound a partial broke: from now on the model uses XP96 for it, for as long as it stays resident (R48;
log 51). The model is named by what `keyBody` gives of it. -/
def promote (s : State) (p tensor : Nat) (key : Bytes) : State :=
  (List.range 4).foldl (fun t slot => updModel t p slot fun m =>
    if keyBody m.key == key then { m with xp96 := (m.xp96 ++ [tensor]).eraseDups } else m) s

/-- An attempt that starts over from the same frozen plan; its predecessor was not killed by turn, so nothing protects it
(R223, R48, R228, R281). -/
def rerunAttempt (a : Attempt) (now : Nat) (escape : Bool) : Attempt :=
  { newAttempt a.plan (a.no + 1) false now a.segs with escape := escape }

/-- Whether an attempt of this package uses port n (R332). -/
def portInUse (s : State) (n : Nat) : Bool :=
  s.parts.any fun p => match p.attempt with | some a => a.bonds.contains n || a.reclaims.contains n | none => false

/-- LEAVING ports that no attempt uses any more note the DTC at which the last one stopped (R332 step 2). -/
def markIdlePorts (s : State) : State :=
  { s with ports := (s.ports.zipIdx).map fun e => match e.1.leaving with
      | some (c, 0) => if portInUse s e.2 then e.1 else { e.1 with leaving := some (c, max 1 s.boot.dtc) }
      | _ => e.1 }

/-- Clusters back to idle (R277). -/
def freeClusters (s : State) (cs : List Nat) : State := cs.foldl dropCluster s

/-- A plan's pauses that were accepted take effect, since no row of them is under way any more (R140). -/
def plannedPauses (s : State) (hs : List Nat) : State := hs.foldl applyWant s

/-- Requests of a partition with a cancel stamped, ended out of a step once no plan names them (Table GEY-6). -/
def endCancelled (s : State) (p : Nat) : State :=
  let busy : List Nat := match (partOf s p).attempt with | some a => planHandles a | none => []
  (s.reqs.filter fun q => q.part == p && living q && q.cancel.isSome && !busy.contains q.h && q.replay.isNone).foldl
    (fun t q => match q.cancel with
      | some (_, d) => endHere t q.h .cancelled d
      | none => t) s

/-- Whether the frozen plan of a request's partition names it. -/
def planned (s : State) (q : Req) : Bool :=
  match (partOf s q.part).attempt with
  | some a => (planHandles a).contains q.h
  | none => false

/-- A park or resume of a request stopped, and everything it took freed; a parking record goes with its request (R158, R178). -/
def stopTransfer (s : State) (h : Nat) : State :=
  match reqOf s h with
  | none => s
  | some q =>
    let s := if q.parking.isSome then unsealStreams s q else s
    let s := if q.conv == .resuming then dropKv s h else s
    updReq s h fun x => { x with parking := none, record := none }

/-- A cancel of a request with stamp st and DETAIL d, by Table GEY-6; the first stamp governs (R177-R179). -/
def cancelReq (s : State) (h st d : Nat) : State :=
  match reqOf s h with
  | none => s
  | some q =>
    if !living q || q.cancel.isSome then s
    else
      let s := updReq s h fun x => { x with cancel := some (st, d) }
      if planned s q then s
      else
        endHere (stopTransfer s h) h .cancelled d

/-- The completion of a kill: semaphores FREE, clusters released, and the re-run the cause calls for (R228, R292). -/
def completeKill (s : State) (p : Nat) : State :=
  match (partOf s p).attempt with
  | none => s
  | some a =>
    let now := s.boot.dtc
    let s := if a.clusters.isEmpty then s else closeInterval s p a
    let s := markIdlePorts (updPart (freeClusters s a.clusters) p fun x => { x with sems := [], probes := [], attempt := none })
    let again := fun esc =>
      let s := takePins (reserveAll s a.plan.reserved 1) a.plan.rows
      updPart s p fun x => { x with attempt := some (rerunAttempt a now esc) }
    match a.rerun with
    | .same => again false
    | .escape => again true
    | .none => endCancelled (settleRetiring (plannedPauses s (planHandles a)) p) p
    | .fresh =>
      let s := endCancelled (settleRetiring (plannedPauses s (planHandles a)) p) p
      if !leads s p then s
      else if (partOf s p).items.time then
        let plan : Plan := { rows := [], fbOnly := false, tPred := 0, reserved := [] }
        updPart s p fun x => { x with attempt := some { newAttempt plan (a.no + 1) false now [] with rerun := .fresh } }
      else freeze s p now (a.no + 1)

/-- An attempt gone at once, with nothing to follow: what a fault or a reset does to it (R428 item 3, R481). Its semaphores are BROKEN,
which is relayed to every member, and FREE with the end of the kill (R228). -/
def dropAttempt (s : State) (p : Nat) : State :=
  match (partOf s p).attempt with
  | none => s
  | some a =>
    let s := if a.phase == .killing then s else breakSems (countPreempt (releaseAttempt (closeInterval s p a) p a) p a true) p
    markIdlePorts (updPart (freeClusters s a.clusters) p fun x => { x with sems := [], probes := [], attempt := none, turn := false })

end Sys2Proof.Machine
end

