-- ==== Sys2Proof/Machine/Fault.lean ====
section
/-! DEFINITION. The fault log, contained and uncontained quarantine, HOLD, and a failed recovery
(15 R424-R441, 13 R377, 11 R333). -/

namespace Sys2Proof.Machine

/-! ### The fault log (R441) -/

/-- A fault log entry written at the DTC; it takes slot SEQ mod 256 (R441, Table FLT-6). -/
def logFault (s : State) (source level part unit detail : Nat) : State :=
  let n := s.flt.logCount
  let e : LogEntry := { seq := n, source := source, level := level, part := part, dtc := s.boot.dtc, unit := unit
                        detail := detail, fwHead := slice s.boot.curFw 0 8 }
  { s with flt := { s.flt with log := (s.flt.log.filter fun x => x.seq % 256 != n % 256) ++ [e]
                               logCount := (n + 1) % 2 ^ 32 } }

/-- The newest entry moved before those of the same DTC with a higher code: of sources reported in one tick the lowest code is recorded
first (R424). -/
def orderTick (s : State) : State :=
  let n := (s.flt.logCount + 2 ^ 32 - 1) % 2 ^ 32
  match s.flt.log.find? fun e => e.seq == n with
  | none => s
  | some e =>
    let behind := fun x : LogEntry => x.dtc == e.dtc && decide (e.source < x.source)
    let k := (s.flt.log.filter behind).length
    let place := fun x : LogEntry =>
      if behind x then { x with seq := (x.seq + 1) % 2 ^ 32 }
      else if x.seq == n then { x with seq := (n + 2 ^ 32 - k) % 2 ^ 32 } else x
    let age := fun x : LogEntry => (x.seq + 2 ^ 32 - s.flt.logCount) % 2 ^ 32
    { s with flt := { s.flt with log := sortBy age (s.flt.log.map place) } }

/-- Whether a source is the one FIRST_* describe: the first since SERVING, or the lowest code of that tick (R424, R495). -/
def isFirst (s : State) (source : Nat) : Bool :=
  s.flt.pkg == .serving || (decide (0 < s.flt.doubtCount) && s.flt.firstDtc == s.boot.dtc && decide (source < s.flt.firstSource))

/-- A doubt source reported: its log entry, DOUBT_COUNT, and FIRST_* when they describe it (R424, R441, R495). -/
def noteDoubt (s : State) (source level part unit detail : Nat) : State :=
  let first := isFirst s source
  let s := orderTick (logFault s source level part unit detail)
  let s := { s with flt := { s.flt with doubtCount := (s.flt.doubtCount + 1) % 2 ^ 32 } }
  if first then
    { s with flt := { s.flt with firstDtc := s.boot.dtc, firstSource := source, firstLevel := level, firstPart := part, firstUnit := unit } }
  else s

/-! ### Ports in HOLD (R333, R415) -/

/-- A port's permits given back: STANDING and LINK_TRAIN (R316, R415). -/
def portPermits (s : State) (n : Nat) : State :=
  updPort { s with gov := govDropReq s.gov (400 + n) } n endTrain

/-- Every port that is not DISABLED or DOWN begins to send HOLD (R333, R428). -/
def holdPorts (s : State) : State :=
  (List.range 12).foldl (fun t n =>
    let p := portOf t n
    if p.st == .disabled || p.st == .down then t
    else updPort (portPermits t n) n fun q => { q with st := .hold, holding := true }) s

/-! ### Pending messages (R377) -/

/-- The context of nobody: a response to it goes nowhere. -/
def noCtx : MsgCtx := { origin := .board, opcode := 0, cid := 0, accept := 0, tenant := 0, part := 0 }

/-- The contexts of every deferred message that is pending. -/
def pendingCtxs (s : State) : List MsgCtx :=
  s.regs.map (·.ctx) ++
  s.parts.flatMap (fun p => (match p.load with | some l => [l.ctx] | none => []) ++ (match p.disable with | some d => d.ctxs | none => [])) ++
  s.reqs.flatMap (fun q => q.wantCtx.toList ++ q.exports) ++
  (match s.boot.staged with | some f => [f.ctx] | none => []) ++
  s.pins.mf.flatMap (fun m => match m.arming with | some a => [a.2.2] | none => []) ++
  s.ports.flatMap (fun p => match p.leaving with | some l => [l.1] | none => []) ++
  s.host.barriers.flatMap (fun b => match b.why with | .output c _ _ => [c] | _ => [])

/-- No deferred message pending: loads, registrations and activations are abandoned, the rest goes on unanswered. -/
def forgetCtxs (s : State) : State :=
  { s with
    regs := []
    parts := s.parts.map fun p => { p with load := none, disable := p.disable.map fun d => { d with ctxs := [] } }
    reqs := s.reqs.map fun q => { q with wantCtx := none, want := none, exports := [] }
    boot := { s.boot with staged := none, fwPhase := .idle, stage := if s.boot.stage == .fwActivating then .serving else s.boot.stage }
    pins := { s.pins with mf := s.pins.mf.map fun m => { m with arming := m.arming.map fun a => (a.1, a.2.1, noCtx) } }
    ports := s.ports.map fun p => { p with leaving := none }
    host := { s.host with barriers := s.host.barriers.map fun b =>
                match b.why with | .output _ _ _ => { b with why := .none } | _ => b } }

/-- Every pending deferred message completed DEVICE_QUARANTINED (R377). -/
def failPending (s : State) : State :=
  (pendingCtxs s).foldl (fun t c => refuse t c .deviceQuarantined) (forgetCtxs s)

/-- Every SPDM session ended (R449). -/
def endSessions (s : State) : State :=
  { s with host := { s.host with fns := s.host.fns.map fun f : Fn => { f with session := none, spdmPending := false } } }

/-! ### Transfers abandoned (R428 item 4) -/

/-- Accesses through a window counted (R347). A descriptor number from 512 on names no window. -/
def winUse (s : State) (d : Nat) (k : Int) : State :=
  if d < 512 then putWin s { winOf s d with outstanding := (((winOf s d).outstanding : Int) + k).toNat } else s

/-- A fetch of an adapter over without success: ABSENT, its frames freed; its failed reads stay counted (R84, R90). -/
def dropFetch (s : State) (a : Adapter) : State :=
  let s := winUse (freeFrames s a.frames) a.window (-1)
  updAdapter s a.part a.idx fun x => { x with st := .absent, frames := [], image := [] }

/-- A registration's frames freed and its window left (R78). -/
def dropReg (s : State) (r : PendReg) : State := freeOwner (winUse s r.window (-1)) r.part (.adapter r.idx)

/-- A MODEL_LOAD's frames freed and its windows left (R274, R297). -/
def dropLoad (s : State) (p : Nat) (l : Load) : State :=
  let s := if l.ready then s else winUse (winUse s l.wHome.1 (-1)) l.pHome.1 (-1)
  let s := freeOwner s p (.model l.into)
  updPart s p fun x => { x with slots := if l.ready || (modelAt x l.into).isNone then x.slots.set l.into none else x.slots, load := none }

/-- Every adapter fetch, model load, registration and resume of a package abandoned. -/
def dropTransfers (s : State) : State :=
  let s := (s.adapters.filter fun a => a.st == .fetching).foldl dropFetch s
  let s := s.regs.foldl dropReg s
  let s := (List.range 8).foldl (fun t p => match (partOf t p).load with | some l => dropLoad t p l | none => t) s
  (s.reqs.filter fun q => q.conv == .resuming && living q).foldl (fun t q => backToParked t q.h) s

/-! ### Terminal records (R428 item 5) -/

/-- A replay's record of how it ended; an ended replay's status is kept until the 64th later one ends (R201, R393). -/
def endReplay (s : State) (h st : Nat) : State :=
  match reqOf s h with
  | none => s
  | some q =>
    if q.outcome.isSome then s
    else
      let s := updReq s h fun x => { x with outcome := some (.complete, 0) }
      updPart s q.part fun p =>
        let n := p.replayEnds + 1
        let rs := p.replayStats.map fun r : ReplayStat => if r.id == q.replayId && r.st < 2 then { r with st := st, endNo := n } else r
        { p with replayEnds := n, replayStats := rs.filter fun r => decide (r.st < 2 ∨ n < r.endNo + 64) }

/-- DETAIL of a request's cancel where it was stamped before now; one stamped at the instant of doubt counts as after it (R175). -/
def cutBefore (s : State) (q : Req) : Option Nat :=
  match q.cancel with
  | some (st, d) => if st < s.boot.dtc then some d else none
  | none => none

/-- The end of a request under a contained fault (R174, R428 item 5). -/
def faultEnd (s : State) (rows : List Nat) (q : Req) : State :=
  if q.replay.isSome then endReplay s q.h 4
  else if !q.ownsRing then endSilent s q.h
  else
    match cutBefore s q with
    | some d => endOut s q.h .cancelled d
    | none => if rows.contains q.h then endOut s q.h .withheld 1 else endOut s q.h .deviceFault 1

/-- Every request of a partition but the PARKED ones ended, in ascending handle, and released. -/
def faultEndAll (s : State) (rows : List Nat) (p : Nat) : State :=
  let qs := sortBy (·.h) (s.reqs.filter fun q => q.part == p && living q && q.conv != .parked)
  let s := qs.foldl (fun t q => faultEnd t rows q) s
  let gone := s.reqs.filter fun q => q.part == p && !living q
  gone.foldl (fun t q => releaseReq t q.h) s

/-! ### Quarantine -/

/-- DMA stops and the package is QUARANTINED (R428 item 7). -/
def goQuiet (s : State) : State := setPkg { s with flt := { s.flt with dma := false } } .quarantined

/-- The functions whose host memory was written since the bus held n writes. -/
def fnsWritten (s : State) (n m : Nat) : List Nat := (((s.host.bus.drop n) ++ (s.host.held.drop m)).map (·.fn)).eraseDups

/-- Every draw permit given back but those of trains for scrub, standing links and rising domains (R428, R431). -/
def dropDraws (g : Gov) : Gov :=
  let keep := fun c : PClass => c == .hbmTrain || c == .standing || c == .domainUp
  let held := sumNat ((g.permits.filter fun p => !keep p.cls).map (·.du))
  let adm := sumNat ((g.queue.filter fun r => !keep r.cls).map (·.admitted))
  { g with permits := g.permits.filter fun p => keep p.cls, queue := g.queue.filter fun r => keep r.cls
           arrivals := g.arrivals.filter fun r => keep r.cls, releases := g.releases + held + adm }

/-- Contained quarantine entered (R428): the signals, then kills, transfers, pending messages, terminal records and the
barriers behind them. A request has rows in an uncommitted step also while its frozen plan is being killed to run again (R174). -/
def enterQuarantine (s : State) : State :=
  let s := setPkg { s with flt := { s.flt with faultN := true, quietN := true } } .entering
  let s := endSessions (holdPorts s)
  let rows := s.parts.flatMap fun p => match p.attempt with
    | some a => if a.phase == .killing && !(a.rerun == .same || a.rerun == .escape) then [] else planHandles a
    | none => []
  let s := (List.range 8).foldl dropAttempt s
  let s := failPending (dropTransfers s)
  let s := { s with gov := dropDraws s.gov }
  let n := s.host.bus.length
  let m := s.host.held.length
  let s := (List.range 8).foldl (fun t p => faultEndAll t rows p) s
  let s := { s with parts := s.parts.map fun p => { p with freezeAt := none, fetchQ := [], fetchWait := false, protectNext := false, turn := false, handed := [] } }
  match fnsWritten s n m with
  | [] => goQuiet s
  | fs => fs.foldl (fun t f => issueBarrier t f .quarantine) s

/-- A recovery that fails (R435). What its log entry names as UNIT the spec does not say: a free value (log 3). -/
def recoveryFails (s : State) : State :=
  let v := freeVal s
  let s := logFault v.2 0x0100 1 0xFF (v.1 % 2 ^ 32) 0
  let c := s.flt.recCtx
  let s := setPkg { s with flt := { s.flt with recStep := .idle, recCtx := none } } .quarantined
  match c with
  | some c => refuse s c .deviceQuarantined
  | none => s

/-- Contained doubt (R427, R428, R435). -/
def doubt (s : State) (source part unit detail : Nat) : State :=
  match s.flt.pkg with
  | .uncontained => s
  | .serving => enterQuarantine (noteDoubt s source 1 part unit detail)
  | .recovering => recoveryFails (noteDoubt s source 1 part unit detail)
  | _ => noteDoubt s source 1 part unit detail

/-- Every message that stands in a mailbox unanswered completed DEVICE_QUARANTINED by the mailbox front end (R436). -/
def failMailboxes (s : State) : State :=
  (List.range 16).foldl (fun t n =>
    let m := (fnOf t n).mbox
    if m.st == .busy && !m.taken then refuse t (ctxOf (.mbox n) m.cmd 0) .deviceQuarantined else t) s

/-- Uncontained doubt (R436): nothing is issued from now on, and writes held for the link are discarded. -/
def doubtUncontained (s : State) (source part unit detail : Nat) : State :=
  if s.flt.pkg == .uncontained then s
  else
    let s := noteDoubt s source 2 part unit detail
    let s := endSessions (holdPorts { s with flt := { s.flt with faultN := true, quietN := true, dma := false } })
    let c := s.flt.recCtx
    let s := { s with host := { s.host with held := [], reads := [], barriers := [] }
                      flt := { s.flt with recStep := .idle, recCtx := none } }
    let s := failPending (setPkg s .uncontained)
    failMailboxes (match c with | some c => refuse s c .deviceQuarantined | none => s)

/-! ### HOLD from a peer (R333) -/

/-- The requests of a partition ended because a peer has quarantined, detail 0x0002, PARKED ones apart (R333, R432). -/
def holdEndAll (s : State) (p : Nat) : State :=
  let s := (s.reqs.filter fun q => q.part == p && living q && q.conv == .resuming).foldl (fun t q => backToParked (stopWant t q.h) q.h) s
  let qs := sortBy (·.h) (s.reqs.filter fun q => q.part == p && living q && q.conv != .parked)
  qs.foldl (fun t q =>
    if q.replay.isSome then endReplay t q.h 4
    else if !q.ownsRing then endSilent t q.h
    else match cutBefore t q with
      | some d => endOut t q.h .cancelled d
      | none => endOut t q.h .deviceFault 2) s

end Sys2Proof.Machine
end

