-- ==== Sys2Proof/Machine/Ledger.lean ====
section
/-! DEFINITION. The ledger close, its snapshot, and what completes at one: ended requests, disables and partition
resets (06 R180; 10 R297-R299; 15 R438-R440; 17 R481; 18 R501). -/

namespace Sys2Proof.Machine

/-! ### Budgets of the Governor (R409, R410, R421, R422) -/

/-- B_limit (R409). -/
def bLimit (s : State) : Nat :=
  let fixed := match s.boot.part with | .swl9400 => 440 | .swl9300 => 330
  5 * (s.gov.limitW - fixed) / 2

/-- The thermal budget (R421, R422). -/
def bThermal (s : State) : Nat :=
  let t := s.pins.tMax
  if s.flt.trip then 0
  else if t ≤ 95 then bLimit s
  else if t ≤ 107 then bLimit s * (111 - t).toNat / 16
  else bLimit s / 4

/-- B_eff (R410). -/
def bEff (s : State) : Nat :=
  let b := min (bLimit s) (bThermal s)
  if s.pins.throttle then min b (bLimit s / 4) else b

/-- DU of permits a Governor holds, of one kind. -/
def heldDu (g : Gov) (f : PClass → Bool) : Nat := sumNat ((g.permits.filter fun p => f p.cls).map (·.du))

/-- DU admitted to requests not yet granted. -/
def admittedDu (g : Gov) : Nat := sumNat (g.queue.map (·.admitted))

/-- Classes that are never revoked (R417). -/
def unrevoked (c : PClass) : Bool := c == .domainUp || c == .standing

/-! ### The identities of Table FLT-5 -/

/-- Noyldo credits of a port (0x01, R334). -/
def creditsOk (now : Nat) (p : Port) : Bool :=
  p.st != .active ||
  (match p.peer with
    | none => true
    | some id => (p.vcs.zipIdx).all fun e =>
        let init := id.buffers.getD e.2 0
        let out := (e.1.txFlits + (2 ^ 48 - e.1.rxCredits % 2 ^ 48)) % 2 ^ 48
        decide (out ≤ init) && decide (e.1.rxUsed ≤ [32, 256, 256, 32].getD e.2 0) &&
          (e.1.owed == 0 || decide (now - e.1.owedAt ≤ 1000)))

/-- HBM frames of a partition (0x02, R133). -/
def framesOk (s : State) (p : Nat) : Bool :=
  let fs := framesOf s p
  decide ((fs.filter fun f => f.cls != .free).length + quotaCount s p ≤ frameTotal s p) &&
  fs.all fun f => f.cls != .transit ||
    (match f.owner with
      | .stream h _ => (match reqOf s h with | some q => q.parking.isSome || !f.sealed | none => false)
      | _ => !f.sealed)

/-- Tail slots of a partition (0x03, R440). -/
def slotsOk (s : State) (p : Nat) : Bool := decide (slotsHeld s p ≤ tailCapacity s p)

/-- Whether a permit's requester is entitled to it (R423). -/
def entitled (s : State) (x : Permit) : Bool :=
  match x.cls with
  | .hbmTrain => true
  | .sinter => true
  | .linkTrain => (portOf s (x.req - 400)).st == .active
  | .standing => (portOf s (x.req - 400)).st == .active
  | .domainUp => s.gov.rising.contains (x.req - 412)
  | _ => ((clusterOf s (x.req % 192)).holder).isSome

/-- Draw units (0x04, R423). -/
def drawOk (s : State) : Bool :=
  let g := s.gov
  g.g == heldDu g (fun _ => true) + admittedDu g + g.releases && g.permits.all (entitled s) &&
    (decide (g.g ≤ bEff s) || decide (s.boot.dtc < g.bEffAt + 100) ||
      decide (g.g ≤ bEff s + heldDu g unrevoked))

/-- Adapter pins of a partition (0x05, R85). -/
def pinsOk (s : State) (p : Nat) : Bool :=
  (s.adapters.filter fun a => a.part == p).all fun a =>
    a.pins == sumNat ((s.reqs.filter fun q => q.part == p && q.pins != .none).map fun q => ((adRefs q).filter fun i => i == a.idx).length)

/-- Ring slots of the requests of a partition (0x06, R440). -/
def ringsOk (s : State) (p : Nat) : Bool :=
  (s.reqs.filter fun q => q.part == p && living q && q.ownsRing && q.replay.isNone).all fun q => decide (1 ≤ recFree q)

/-- Journal slots of the requests of a partition (0x07, R440). -/
def journalsOk (s : State) (p : Nat) : Bool :=
  (s.reqs.filter fun q => q.part == p && living q && q.ownsRing && q.replay.isNone).all fun q =>
    q.jrn.ring.pidx == q.jrn.seq % 2 ^ 32 && decide (3 ≤ jrnFree q)

/-- Messages fetched from the SQs of a CQ and not completed (R356). -/
def cqOwed (s : State) (fn cq : Nat) : Nat :=
  let sqs := (fnOf s fn).sqs.filter fun x => x.cqid == cq
  let here := fun c : MsgCtx => match c.origin with | .queue f _ k => f == fn && k == cq | _ => false
  sumNat (sqs.map fun x => x.fetching + x.fetched.length) + ((pendingCtxs s ++ s.host.forwarded).filter here).length

/-- CQ reservations (0x08, R356). -/
def cqsOk (s : State) : Bool :=
  (List.range 16).all fun n => ((fnOf s n).cqs).all fun c =>
    c.reserved == cqOwed s n c.qid && decide (c.reserved ≤ 2 ^ c.log2 - (c.pidx + (2 ^ 32 - c.head % 2 ^ 32)) % 2 ^ 32)

/-- Tenant token balances of a partition (0x09, R107). -/
def balancesOk (s : State) (p : Nat) : Bool :=
  (s.tenants.filter fun t => t.part == p).all fun t =>
    t.bal == t.balAtClose + t.flow && (t.res == 0 || (partOf s p).attempt.isSome)

/-- Semaphores of a partition (0x0A, R229): only an attempt that has its clusters, here or on another member, has any. -/
def semsOk (s : State) (p : Nat) : Bool :=
  let x := partOf s p
  x.sems.isEmpty || (match x.attempt with | some a => spans s p || (a.phase != .plan && a.phase != .claim) | none => false)

/-- The first imbalance among some partitions and the package-wide quantities: quantity code, and partition or 0xFF. -/
def imbalance (s : State) (ps : List Nat) : Option (Nat × Nat) :=
  let per := fun (code : Nat) (f : Nat → Bool) => (ps.filter fun p => !f p).map fun p => (code, p)
  let pkg := fun (code : Nat) (b : Bool) => if b then [] else [(code, 0xFF)]
  (pkg 1 (s.ports.all (creditsOk s.boot.dtc)) ++ per 2 (framesOk s) ++ per 3 (slotsOk s) ++ pkg 4 (drawOk s) ++
    per 5 (pinsOk s) ++ per 6 (ringsOk s) ++ per 7 (journalsOk s) ++ pkg 8 (cqsOk s) ++ per 9 (balancesOk s) ++
    per 10 (semsOk s)).head?

/-! ### The snapshot (R501) -/

/-- Whether a request's tail slot counts as reserved: by an accepted request with no committed row yet, or by a resume
(R440). DEDUCED (log 39). -/
def slotReserved (q : Req) : Bool := q.conv == .resuming || q.history.isEmpty

/-- The block of a partition (Table REG-7). -/
def snapBlock (s : State) (p : Nat) : Bytes :=
  let x := partOf s p
  if x.st == .disabled then zeroBytes 256
  else
    let w := fun n => leBytes 4 n
    let ts := s.tenants.filter fun t => t.part == p
    let big := fun (f : Tenant → Int) => leBytes 8 (toBits 64 (ts.foldl (fun a t => a + f t) 0))
    slice (w (partVal x.st) ++ w (frameTotal s p) ++ w (freeCount s p) ++ w (classCount s p .model) ++ w (classCount s p .pool) ++
      w (classCount s p .kv) ++ w (quotaCount s p) ++ w (classCount s p .condensed) ++ w (classCount s p .shelf) ++
      w (classCount s p .transit) ++ w (freeCount s p - usableFree s p) ++ w (tailCapacity s p) ++
      w ((s.reqs.filter fun q => q.part == p && q.slot && !slotReserved q).length) ++
      w ((s.reqs.filter fun q => q.part == p && q.slot && slotReserved q).length) ++
      w (sumNat ((s.adapters.filter fun a => a.part == p).map (·.pins))) ++ w x.sems.length ++
      w ((s.reqs.filter fun q => q.part == p && living q).length) ++ zeroBytes 4 ++ big (·.bal) ++ big (·.res)) 0 256

/-- The link credit words: credits held by this sender, flits in this receiver's buffer (Table REG-6). -/
def linkWords (s : State) : Bytes := s.ports.flatMap fun p => p.vcs.flatMap fun v => leBytes 2 v.credits ++ leBytes 2 v.rxUsed

/-- The snapshot rewritten after a close of some partitions; a balanced close names no partition (R501, Table REG-6; log 7). -/
def snapshot (s : State) (ps : List Nat) (r : Option (Nat × Nat)) : State :=
  let l := s.ledger
  let blocks := ps.map fun p => { part := p, body := snapBlock s p : SnapPart }
  { s with ledger :=
      { seq := (l.seq + 2) % 2 ^ 32, closes := (l.closes + 1) % 2 ^ 64
        balanced := if r.isNone then s.boot.dtc else l.balanced
        result := match r with | none => 0xFF00 | some (c, p) => p * 256 + c
        snap := (l.snap.filter fun b => !ps.contains b.part) ++ blocks
        links := linkWords s } }

/-- The balances of some partitions' tenants become the ones later closes start from (R107). -/
def settleBalances (s : State) (ps : List Nat) : State :=
  { s with tenants := s.tenants.map fun t => if ps.contains t.part then { t with balAtClose := t.bal, flow := 0 } else t }

/-- A ledger close of some partitions and every package-wide quantity; an imbalance is doubt (R438, R439). -/
def closeLedger (s : State) (ps : List Nat) : State :=
  let s := ps.foldl releaseEnded s
  let r := imbalance s ps
  let s := settleBalances (snapshot s ps r) ps
  let s := { s with parts := s.parts.zipIdx.map fun e => if ps.contains e.2 then { e.1 with fetchWait := false } else e.1 }
  match r with
  | none => s
  | some (c, p) => doubt s 0x0D p c 0

/-! ### Power domains of clusters (R405, R407) -/

/-- Clusters in the set of some partition that is not DISABLED. -/
def usedClusters (s : State) : List Nat :=
  (List.range 192).filter fun c => s.parts.any fun p => p.st != .disabled && bit p.items.groups (c / 8)

/-- The domains that stay on: others of the cluster and Adapter Engine kind go off with the partitions that used them. -/
def domainsOff (s : State) : State :=
  let used := usedClusters s
  let keep := fun d => if d < 192 then used.contains d else if d < 196 then used.any fun c => c / 48 == d - 192 else true
  { s with gov := { s.gov with on := s.gov.on.filter keep } }

/-- A domain asked to power up (R407). -/
def domainUp (s : State) (d : Nat) : State :=
  if s.gov.on.contains d || s.gov.rising.contains d then s
  else { s with gov := govAsk { s.gov with rising := s.gov.rising ++ [d] } (412 + d) .domainUp 4 s.boot.dtc }

/-- The domains of a partition's cluster set, and of the Adapter Engines of their dies, asked to power up. -/
def domainsUp (s : State) (p : Nat) : State :=
  let cs := clusterSet (partOf s p).items
  (cs ++ (cs.map fun c => 192 + c / 48).eraseDups).foldl domainUp s

/-! ### Disabling and resetting a partition (R299, R481) -/

/-- A partition's pending messages with a code: model load, registrations, and pending conversation messages and exports. -/
def stopPart (s : State) (p : Nat) : State :=
  let l := (partOf s p).load
  let rs := s.regs.filter fun r => r.part == p
  let s := match l with | some l => dropLoad s p l | none => s
  let s := rs.foldl dropReg { s with regs := s.regs.filter fun r => r.part != p }
  let s := ((l.map (·.ctx)).toList ++ rs.map (·.ctx)).foldl (fun t c => refuse t c .stopped) s
  (s.adapters.filter fun a => a.part == p && a.st == .fetching).foldl dropFetch s

/-- CAPSULE_EXPORT messages of a request completed STOPPED. -/
def stopExports (s : State) (h : Nat) : State :=
  match reqOf s h with
  | none => s
  | some q => q.exports.foldl (fun t c => refuse t c .stopped) (updReq s h fun x => { x with exports := [] })

/-- Every frame, model, adapter and tenant of a partition gone (R299 item 5). -/
def emptyPart (s : State) (p : Nat) : State :=
  let s := freeFrames s ((framesOf s p).map (·.no))
  let s := { s with adapters := s.adapters.filter fun a => a.part != p, tenants := s.tenants.filter fun t => t.part != p
                    reqs := s.reqs.filter fun q => q.part != p }
  updPart s p fun x => { x with slots := List.replicate 4 none, sems := [], fetchQ := [], handed := [] }

/-- A partition's requests ended CANCELLED 0x0005 with stamp st, PARKED ones too (R299 items 2, 3). -/
def abortRequests (s : State) (p st : Nat) : State :=
  let qs := sortBy (·.h) (s.reqs.filter fun q => q.part == p && living q)
  qs.foldl (fun t q =>
    if q.replay.isSome then endReplay t q.h 4
    else
      let c := match q.cancel with | some c => c | none => (st, 5)
      let t := updReq t q.h fun x => { x with cancel := some c, parking := none, record := none }
      endHere t q.h .cancelled c.2) s

/-- ABORT with stamp st (R299): kill, terminal records, transfers, and everything freed. -/
def abortPart (s : State) (p st : Nat) : State :=
  let s := updPart s p fun x => { x with st := .aborting, freezeAt := none }
  let s := if (match (partOf s p).attempt with | some a => a.used.isEmpty | none => true) then dropAttempt s p else killStart s p 4 .none false
  emptyPart (stopPart (abortRequests s p st) p) p

/-- The partition number DISABLED again: everything but the serials of R372 as at reset. -/
def disabledPart (x : Part) : Part := { Part.reset with handles := x.handles, replays := x.replays, submits := x.submits }

/-- A partition whose disabling is done here, and on every other member it spans, is DISABLED, and its message completes (R299, R300). -/
def leaveDisable (s : State) (p : Nat) : State :=
  match (partOf s p).disable with
  | none => s
  | some d =>
    if !d.done || !othersFinished s p then s
    else
      let s := domainsOff (updPart s p disabledPart)
      d.ctxs.foldl (fun t c => respond t c .success (leBytes 8 c.accept)) s

/-- Whether a partition under DRAIN has no request left, paused or not (R298). -/
def drainedPart (s : State) (p : Nat) : Bool :=
  (partOf s p).st == .draining && (partOf s p).attempt.isNone && !s.reqs.any fun q => q.part == p && living q

/-- A partition emptied, its disabling done on this member. -/
def endDisable (s : State) (p : Nat) : State :=
  leaveDisable (updPart (emptyPart (stopPart s p) p) p fun x => { x with disable := x.disable.map fun d => { d with done := true } }) p

/-- A partition under DRAIN as soon as no request remains, and one that waits for other members (R298, R300). -/
def settleDrain (s : State) (p : Nat) : State :=
  match (partOf s p).disable with
  | none => s
  | some d => if d.done then leaveDisable s p else if drainedPart s p then endDisable s p else s

/-- An ABORT that has done its work completes at a balanced close (R299). -/
def finishDisable (s : State) (p : Nat) : State :=
  match (partOf s p).disable with
  | none => s
  | some d =>
    if d.done then leaveDisable s p
    else if (partOf s p).attempt.isSome || ((partOf s p).st == .draining && !drainedPart s p) then s
    else endDisable s p

/-- Adapters of a partition back to ABSENT, their frames and pins freed; RETIRING ones are unregistered (R100, R481 item 5). -/
def clearPool (s : State) (p : Nat) : State :=
  let s := (s.adapters.filter fun a => a.part == p).foldl (fun t a => freeFrames t a.frames) s
  settleRetiring { s with adapters := s.adapters.map fun a =>
    if a.part == p then { a with st := .absent, pins := 0, frames := [], image := [], tries := 0 } else a } p

/-- A request of a partition under reset ended silently, with its pending messages STOPPED (R176, R481 items 2, 3). -/
def wipeReq (s : State) (q : Req) : State :=
  let s := stopExports s q.h
  releaseReq (if q.replay.isSome then endReplay s q.h 4 else endSilent s q.h) q.h

/-- Items 1 to 5 of R481: the partition's attempt, requests, transfers, records, keys and dynamic frames gone. -/
def wipePart (s : State) (p : Nat) : State :=
  let s := updPart s p fun x => { x with freezeAt := none, protectNext := false, fetchQ := [] }
  let s := if (match (partOf s p).attempt with | some a => a.used.isEmpty && a.reclaims.isEmpty | none => true) then dropAttempt s p
    else killStart s p 4 .none false
  let s := (sortBy (·.h) (s.reqs.filter fun q => q.part == p)).foldl wipeReq s
  let s := stopPart s p
  let s := ((match (partOf s p).disable with | some d => d.ctxs | none => [])).foldl (fun t c => refuse t c .stopped)
    (updPart s p fun x : Part => { x with disable := x.disable.map (fun d : Disable => { d with ctxs := [] }), outcomes := [], replayStats := [] })
  let s := { s with tenants := s.tenants.map fun t : Tenant => if t.part == p then { t with keys := [] } else t }
  clearPool s p

/-- A partition reset begins on this member; in ENTERING it waits until QUARANTINED (R481). -/
def startReset (s : State) (p : Nat) : State :=
  let wait := s.flt.pkg == .entering
  let s := updPart s p fun y => { y with resetting := true, resetWait := wait, freezeAt := none }
  if wait then s else wipePart s p

/-- A partition reset at the leader, which stamps it and relays it to every member (R297, R481; log 24). -/
def leaderReset (s : State) (p : Nat) : State :=
  startReset (if spans s p then tell s p (partOf s p).items.groupSize .reset 1 (leBytes 8 s.boot.dtc) else s) p

/-- A partition reset written on this member: forwarded to the leader of a partition that spans members, whose relay begins it here
(R481). DESIGN CHOICE (log 83): a package that does not serve reaches no leader, so it resets its own part of the partition. -/
def resetPart (s : State) (p : Nat) : State :=
  if s.flt.pkg != .serving then startReset s p
  else if spans s p && !leads s p then
    tell (updPart s p fun y => { y with resetting := true, resetWait := true }) p (partOf s p).items.groupSize .reset 0 (zeroBytes 8)
  else leaderReset s p

/-- A reset that another member asks of the leader, or that the leader relays (R481). -/
def resetIn (s : State) (p key : Nat) : State :=
  if leads s p then (if key = 0 then leaderReset s p else s) else if key = 1 then startReset s p else s

/-- The resets that waited for QUARANTINED begin (R481). -/
def waitedResets (s : State) : State :=
  (List.range 8).foldl (fun t p => if (partOf t p).resetWait then startReset t p else t) s

/-- A partition reset whose attempt is gone completes at a balanced close (R481). -/
def finishReset (s : State) (p : Nat) : State :=
  if (partOf s p).resetting && !(partOf s p).resetWait && (partOf s p).attempt.isNone then
    updPart s p fun y => { y with resetting := false }
  else s

/-- The frames at which models stalled are tried once again (R265). -/
def retryStreams (s : State) : State :=
  { s with parts := s.parts.map fun p => { p with slots := p.slots.map fun m => m.map fun m => if m.stalled then { m with tries := m.tries.map (min 2) } else m } }

/-- The package ledger close of every millisecond (R438). -/
def packageClose (s : State) : State :=
  let s := closeLedger s (List.range 8)
  if s.ledger.result % 256 != 0 then s
  else (List.range 8).foldl (fun t p => finishReset (finishDisable t p) p) (retryStreams s)

end Sys2Proof.Machine
end

