-- ==== Sys2Proof/Machine/Vu.lean ====
section
/-! DEFINITION. The Vector Unit's functions (Table NUM-3, R52, R53, R57) and the softmax and norm steps built of them
(R54, R56). add, mul, fma, min, max, recip and rsqrt are computed exactly. exp2, log2, tanh and erf are computed in
fixed point with 640 fraction bits and then rounded once; that this rounds every one of the inputs correctly is
UNVERIFIED (log 6). -/

namespace Sys2Proof.Machine

/-- (−1)^neg × mg × 2^a to FP32, a value beyond the range to ±Inf (R52). -/
def roundF32 (neg : Bool) (mg : Nat) (a : Int) : W32 :=
  if mg = 0 then BitVec.ofNat 32 (b2n neg * 2 ^ 31)
  else
    let r := roundMag 24 (-126) mg a
    if magGt r.1 r.2 (2 ^ 24 - 1) 104 then BitVec.ofNat 32 (infEnc .fp32 neg)
    else BitVec.ofNat 32 (encodeMag .fp32 neg r.1 r.2)

/-- FP32 canonical NaN (R28). -/
def f32Nan : W32 := 0x7FC00000#32

/-- +0 or −0. -/
def f32Zero (neg : Bool) : W32 := BitVec.ofNat 32 (b2n neg * 2 ^ 31)

/-- ±Inf. -/
def f32Inf (neg : Bool) : W32 := BitVec.ofNat 32 (infEnc .fp32 neg)

/-- The decoded value of an FP32 word (R26). -/
def f32 (v : W32) : FVal := decode .fp32 v.toNat

/-- The exact sum of two finite values as sign, magnitude and exponent; an exact zero takes the sign zs. -/
def addFin (s : Bool) (m : Nat) (x : Int) (t : Bool) (n : Nat) (y : Int) (zs : Bool) : W32 :=
  let e := min x y
  let u : Int := (if s then -1 else 1) * ((m * 2 ^ (x - e).toNat : Nat) : Int)
  let v : Int := (if t then -1 else 1) * ((n * 2 ^ (y - e).toNat : Nat) : Int)
  if u + v = 0 then f32Zero zs else roundF32 (decide (u + v < 0)) (u + v).natAbs e

/-- add of Table NUM-3. -/
def vuAdd (a b : W32) : W32 :=
  match f32 a, f32 b with
  | .nan, _ => f32Nan
  | _, .nan => f32Nan
  | .inf s, .inf t => if s == t then f32Inf s else f32Nan
  | .inf s, .fin _ _ _ => f32Inf s
  | .fin _ _ _, .inf t => f32Inf t
  | .fin s m x, .fin t n y => addFin s m x t n y (m == 0 && n == 0 && s && t)

/-- mul of Table NUM-3. -/
def vuMul (a b : W32) : W32 :=
  match f32 a, f32 b with
  | .nan, _ => f32Nan
  | _, .nan => f32Nan
  | .inf s, .inf t => f32Inf (sgn2 s t)
  | .inf s, .fin t n _ => if n = 0 then f32Nan else f32Inf (sgn2 s t)
  | .fin s m _, .inf t => if m = 0 then f32Nan else f32Inf (sgn2 s t)
  | .fin s m x, .fin t n y => roundF32 (sgn2 s t) (m * n) (x + y)

/-- fma of Table NUM-3: a × b + c rounded once. -/
def vuFma (a b c : W32) : W32 :=
  match f32 a, f32 b, f32 c with
  | .fin s m x, .fin t n y, .fin u k z => addFin (sgn2 s t) (m * n) (x + y) u k z (m * n == 0 && k == 0 && sgn2 s t && u)
  | .fin _ _ _, .fin _ _ _, .inf u => f32Inf u
  | _, _, .nan => f32Nan
  | .nan, _, _ => f32Nan
  | _, .nan, _ => f32Nan
  | .inf s, .inf t, .inf u => if sgn2 s t == u then f32Inf u else f32Nan
  | .inf s, .inf t, .fin _ _ _ => f32Inf (sgn2 s t)
  | .inf s, .fin t n _, c => if n = 0 then f32Nan else match c with
    | .inf u => if sgn2 s t == u then f32Inf u else f32Nan
    | _ => f32Inf (sgn2 s t)
  | .fin s m _, .inf t, c => if m = 0 then f32Nan else match c with
    | .inf u => if sgn2 s t == u then f32Inf u else f32Nan
    | _ => f32Inf (sgn2 s t)

/-- An order key of an FP32 word that is not NaN: −Inf lowest, −0 below +0 (Table NUM-3, min and max). -/
def f32Key (v : W32) : Int := if v.msb then -((v.toNat : Int) - 2 ^ 31) - 1 else (v.toNat : Int)

/-- Whether an FP32 word is NaN. -/
def f32IsNan (v : W32) : Bool := f32 v == .nan

/-- min of Table NUM-3. -/
def vuMin (a b : W32) : W32 :=
  if f32IsNan a || f32IsNan b then f32Nan else if f32Key b < f32Key a then b else a

/-- max of Table NUM-3. -/
def vuMax (a b : W32) : W32 :=
  if f32IsNan a || f32IsNan b then f32Nan else if f32Key a < f32Key b then b else a

/-- floor(num / den) and whether it is inexact, as a magnitude with a sticky low bit: 2q or 2q + 1. -/
def sticky (q : Nat) (inexact : Bool) : Nat := 2 * q + b2n inexact

/-- recip of Table NUM-3. -/
def vuRecip (a : W32) : W32 :=
  match f32 a with
  | .nan => f32Nan
  | .inf s => f32Zero s
  | .fin s m x =>
    if m = 0 then f32Inf s
    else
      let n := 2 ^ 60
      roundF32 s (sticky (n / m) (n % m != 0)) (-60 - x - 1)

/-- rsqrt of Table NUM-3. -/
def vuRsqrt (a : W32) : W32 :=
  match f32 a with
  | .nan => f32Nan
  | .inf s => if s then f32Nan else f32Zero false
  | .fin s m x =>
    if m = 0 then f32Inf s
    else if s then f32Nan
    else
      let m' := if x % 2 = 0 then m else 2 * m
      let x' := if x % 2 = 0 then x else x - 1
      let q := Nat.sqrt (2 ^ 120 / m')
      roundF32 false (sticky q (m' * q * q != 2 ^ 120)) (-60 - x' / 2 - 1)

/-! ### Fixed point with 640 fraction bits -/

/-- Fraction bits of the fixed-point values. -/
def fxBits : Nat := 640

/-- One in fixed point. -/
def fxOne : Nat := 2 ^ fxBits

/-- Terms of the series y^(2k+1) / (2k+1), k from k0, all of one sign: atanh y; y2 is y^2. -/
def fxAtanhTerms : Nat → Nat → Nat → Nat → Nat
  | 0, _, _, _ => 0
  | n + 1, k, t, y2 => t / (2 * k + 1) + fxAtanhTerms n (k + 1) (t * y2 / fxOne) y2

/-- atanh of num/den below 1/2. -/
def fxAtanh (num den : Nat) : Nat :=
  let y := num * fxOne / den
  fxAtanhTerms 330 0 y (y * y / fxOne)

/-- ln 2. -/
def fxLn2 : Nat := 2 * fxAtanh 1 3

/-- Terms of the series y^k / k!. -/
def fxExpTerms : Nat → Nat → Nat → Nat → Nat
  | 0, _, _, _ => 0
  | n + 1, k, t, y => t + fxExpTerms n (k + 1) (t * y / fxOne / k) y

/-- 2^f for a fixed-point f in [0, 1). -/
def fxExp2 (f : Nat) : Nat := fxExpTerms 140 1 fxOne (f * fxLn2 / fxOne)

/-- A rational m × 2^x as fixed point, rounded down. -/
def fxOf (m : Nat) (x : Int) : Nat :=
  let k := x + fxBits
  if 0 ≤ k then m * 2 ^ k.toNat else m / 2 ^ (-k).toNat

/-- exp2 of Table NUM-3. -/
def vuExp2 (a : W32) : W32 :=
  match f32 a with
  | .nan => f32Nan
  | .inf s => if s then f32Zero false else f32Inf false
  | .fin s m x =>
    if 9 ≤ expOf m x ∧ m ≠ 0 then (if s then f32Zero false else f32Inf false)
    else
      let v := fxOf m x
      let whole : Int := if s then -((ceilDiv v fxOne : Nat) : Int) else ((v / fxOne : Nat) : Int)
      let f := if s then ceilDiv v fxOne * fxOne - v else v % fxOne
      if f = 0 then roundF32 false 1 whole
      else roundF32 false (sticky (fxExp2 f) true) (whole - fxBits - 1)

/-- log2 of Table NUM-3. -/
def vuLog2 (a : W32) : W32 :=
  match f32 a with
  | .nan => f32Nan
  | .inf s => if s then f32Nan else f32Inf false
  | .fin s m x =>
    if m = 0 then f32Inf true
    else if s then f32Nan
    else
      let l := bitLen m - 1
      let e : Int := x + l
      -- m / 2^l is in [1, 2)
      if m = 2 ^ l then roundF32 (decide (e < 0)) e.natAbs 0
      else
        let ln := 2 * fxAtanh (m - 2 ^ l) (m + 2 ^ l)
        let v : Int := e * fxOne + ((ln * fxOne / fxLn2 : Nat) : Int)
        if 0 ≤ v then roundF32 false (sticky v.toNat true) (-(fxBits : Int) - 1)
        else roundF32 true (sticky (v.natAbs - 1) true) (-(fxBits : Int) - 1)

/-- tanh of Table NUM-3. -/
def vuTanh (a : W32) : W32 :=
  match f32 a with
  | .nan => f32Nan
  | .inf s => roundF32 s 1 0
  | .fin s m x =>
    if m = 0 then f32Zero s
    else if 5 ≤ expOf m x then roundF32 s 1 0
    else
      -- t = 2|v| / ln 2, e^(-2|v|) = 2^(-t)
      let t := 2 * fxOf m x * fxOne / fxLn2
      let f := ceilDiv t fxOne * fxOne - t
      let p := (if f = 0 then fxOne else fxExp2 f) / 2 ^ ceilDiv t fxOne
      roundF32 s (sticky ((fxOne - p) * fxOne / (fxOne + p)) true) (-(fxBits : Int) - 1)

/-- π by Machin's formula. -/
def fxPi : Nat :=
  let at_ := fun (n : Nat) =>
    ((List.range 330).foldl (fun (acc : Int × Nat) k =>
      let t : Int := ((acc.2 / (2 * k + 1) : Nat) : Int)
      (if k % 2 = 0 then acc.1 + t else acc.1 - t, acc.2 / (n * n))) ((0 : Int), fxOne / n)).1
  (16 * at_ 5 - 4 * at_ 239).toNat

/-- The alternating series of erf in fixed point: Σ (−1)^n v^(2n+1) / (n! (2n+1)). -/
def fxErfTerms : Nat → Nat → Nat → Nat → Int
  | 0, _, _, _ => 0
  | n + 1, k, t, v2 =>
    let u : Int := ((t / (2 * k + 1) : Nat) : Int)
    (if k % 2 = 0 then u else -u) + fxErfTerms n (k + 1) (t * v2 / fxOne / (k + 1)) v2

/-- erf of Table NUM-3. -/
def vuErf (a : W32) : W32 :=
  match f32 a with
  | .nan => f32Nan
  | .inf s => roundF32 s 1 0
  | .fin s m x =>
    if m = 0 then f32Zero s
    else if 3 ≤ expOf m x then roundF32 s 1 0
    else
      let v := fxOf m x
      let ser := fxErfTerms 500 0 v (v * v / fxOne)
      let r := 2 * ser.toNat * fxOne / Nat.sqrt (fxPi * fxOne)
      roundF32 s (sticky (min r (fxOne - 1)) true) (-(fxBits : Int) - 1)

/-- L2E (R53). -/
def l2e : W32 := 0x3FB8AA3B#32

/-- e^y as the spec computes it (R53). -/
def vuExpE (y : W32) : W32 := vuExp2 (vuMul y l2e)

/-- The negation of an FP32 word. -/
def f32Neg (v : W32) : W32 := v ^^^ 0x80000000#32

/-! ### Attention and norms (R54, R56) -/

/-- The exact sum of products under a STATIC anchor, rounded to FP32, and whether it saturated (R37, R39). -/
def dotStatic (f : Fmt) (a : Int) (us vs : List FVal) : Nat × Bool :=
  earResult f a ((us.zip vs).foldl (fun e p => earProduct (some a) e p.1 p.2) EarEl.clear)

/-- One output row of attention over the valid positions (R54); keys and values are E4M3 rows, q is BF16. -/
def attention (q : List Nat) (ks vs : List (List Nat)) (c : W32) (scoreA normA outA : Int) (out : Fmt) : List (Nat × Bool) :=
  let s := ks.map fun k => dotStatic .fp32 scoreA (q.map (decode .bf16)) (k.map (decode .e4m3))
  let z := s.map fun v => vuMul (BitVec.ofNat 32 v.1) c
  let m := match z with
    | [] => f32Zero false
    | a :: as => as.foldl vuMax a
  let pi := z.map fun v => (convert .bf16 (vuExp2 (vuAdd v (f32Neg m)))).1
  let l := dotStatic .fp32 normA (pi.map (decode .bf16)) (pi.map fun _ => .fin false 1 0)
  (List.range ((vs.getD 0 []).length)).map fun i =>
    let o := dotStatic .fp32 outA (pi.map (decode .bf16)) (vs.map fun v => decode .e4m3 (v.getD i 0))
    let r := convert out (vuMul (BitVec.ofNat 32 o.1) (vuRecip (BitVec.ofNat 32 l.1)))
    (r.1, r.2 || o.2 || l.2 || s.any (·.2))

/-- RMS normalisation of a row (R56). -/
def rmsNorm (xs gs : List W32) (nu eps : W32) (ssA : Int) (out : Fmt) : List (Nat × Bool) :=
  let ds := xs.map f32
  let ss := dotStatic .fp32 ssA ds ds
  let rho := vuRsqrt (vuAdd (vuMul (BitVec.ofNat 32 ss.1) nu) eps)
  (xs.zip gs).map fun e =>
    let r := roundProduct out (f32 (vuMul e.1 rho)) (f32 e.2)
    (r.1, r.2 || ss.2)

/-! ### Element-wise sequences (R213, R57) -/

/-- A finite operand as FP32; every operand format is exact in it (R27). -/
def toF32 (v : FVal) : W32 :=
  match v with
  | .nan => f32Nan
  | .inf s => f32Inf s
  | .fin s m x => if m = 0 then f32Zero s else roundF32 s m x

/-- Operand slots of a row of elements while a sequence runs, and whether a value of the row has saturated. -/
structure VuRow where
  slots : List (Nat × List W32)
  sat : Bool
  deriving DecidableEq, Repr

/-- An operand slot's elements; a slot nothing has written holds +0 (log 55). -/
def VuRow.get (r : VuRow) (n k : Nat) : List W32 := ((r.slots.find? fun e => e.1 == k).map (·.2)).getD (List.replicate n 0)

/-- An operand slot written. -/
def VuRow.put (r : VuRow) (k : Nat) (vs : List W32) (sat : Bool) : VuRow :=
  { slots := (k, vs) :: r.slots.filter (fun e => e.1 != k), sat := r.sat || sat }

/-- The FP32 value an encoding of a format stands for, with its block's scale byte where the format has one (R26, R29). -/
def encF32 (f : Fmt) (x8 v : Nat) : W32 := toF32 (if isMx f then applyScale x8 (decode f v) else decode f v)

/-- A row converted to an MX format: each block of 32 columns has its scale byte and elements (R33, R249). -/
def mxRow (f : Fmt) (vs : List W32) : List (Nat × List Nat) := (chunks 32 vs).map (mxConvert f)

/-- One of Table NUM-3's functions on an element. -/
def vuFun (op : Nat) (x y z : W32) : W32 :=
  match op with
  | 0x01 => vuAdd x y
  | 0x02 => vuMul x y
  | 0x03 => vuFma x y z
  | 0x04 => vuMin x y
  | 0x05 => vuMax x y
  | 0x06 => vuExp2 x
  | 0x07 => vuLog2 x
  | 0x08 => vuRsqrt x
  | 0x09 => vuRecip x
  | 0x0A => vuTanh x
  | _ => vuErf x

/-- One VECTOR_OPS record on a row of n elements. A conversion leaves in its slot the FP32 value of the narrower encoding, which is what a
later record reads (R57, R213). -/
def vopRow (n : Nat) (r : VuRow) (op : VOp) : VuRow :=
  let x := r.get n op.src0
  match op.op, (fmtOfCode op.fmt).getD .fp32 with
  | 0x0C, f => let cs := x.map (convert f); r.put op.dst (cs.map fun c => encF32 f 0 c.1) (cs.any (·.2))
  | 0x0D, f => r.put op.dst ((mxRow f x).flatMap fun b => b.2.map (encF32 f b.1)) false
  | o, _ =>
    let y := r.get n op.src1
    let z := r.get n op.dst
    r.put op.dst ((List.range n).map fun i => vuFun o (x.getD i 0) (y.getD i 0) (z.getD i 0)) false

/-- What a sequence leaves of a row: the encodings of its last record's value, the block scales where that is an MX format, and
SATURATED. -/
structure VuOut where
  enc : List Nat
  scales : List Nat
  sat : Bool
  deriving DecidableEq, Repr

/-- The output format of a sequence: that of its last record's conversion, else FP32. -/
def vuFmt (ops : List VOp) : Fmt :=
  match ops.getLast? with
  | some o => if o.op == 0x0C || o.op == 0x0D then (fmtOfCode o.fmt).getD .fp32 else .fp32
  | none => .fp32

/-- A sequence run on a row of n elements of A and B, in operand slots 0 and 1 (R57, R213; log 55). -/
def vuRun (n : Nat) (ops : List VOp) (a b : List W32) : VuOut :=
  let r := ops.dropLast.foldl (vopRow n) { slots := [(0, a), (1, b)], sat := false }
  match ops.getLast? with
  | none => { enc := a.map (·.toNat), scales := [], sat := false }
  | some o =>
    let x := r.get n o.src0
    let f := (fmtOfCode o.fmt).getD .fp32
    if o.op == 0x0C then let cs := x.map (convert f); { enc := cs.map (·.1), scales := [], sat := r.sat || cs.any (·.2) }
    else if o.op == 0x0D then let bs := mxRow f x; { enc := bs.flatMap (·.2), scales := bs.map (·.1), sat := r.sat }
    else let t := vopRow n r o; { enc := (t.get n o.dst).map (·.toNat), scales := [], sat := t.sat }

/-- Rows of values in a format as a tensor's granules; an MX tensor's scale granules follow its data, unused slots holding 0x7F
(R249-R252). -/
def packRows (f : Fmt) (cols : Nat) (rows : List VuOut) : Bytes :=
  let data := packTensor f rows.length cols fun r c => ((rows[r]?).map fun o => o.enc.getD c 0).getD 0
  if !isMx f then data
  else
    let per := if fmtWidth f = 4 then 2 else 4
    let d := ceilDiv rows.length (tileRows f) * ceilDiv cols 32
    let slot := fun (g r : Nat) =>
      let row := g / ceilDiv cols 32 * tileRows f + r
      ((rows[row]?).bind fun o => o.scales[g % ceilDiv cols 32]?).getD 0x7F
    data ++ (List.range (ceilDiv d per)).flatMap fun sg => (List.range 64).map fun i =>
      let g := sg * per + i / (64 / per)
      BitVec.ofNat 8 (if g < d then slot g (i % (64 / per)) else 0x7F)

end Sys2Proof.Machine
end

