-- ==== Sys2Proof/Machine/Sampler.lean ====
section
/-! DEFINITION. The sampler and the step digest (02 §11, §12). -/

namespace Sys2Proof.Machine

/-- One round of Philox4x32 (R60). -/
def philoxRound : Nat → W32 × W32 → List W32 → List W32
  | 0, _, c => c
  | n + 1, k, c =>
    let c0 := c.getD 0 0
    let c1 := c.getD 1 0
    let c2 := c.getD 2 0
    let c3 := c.getD 3 0
    let p0 := 0xD2511F53 * c0.toNat
    let p1 := 0xCD9E8D57 * c2.toNat
    let h0 : W32 := BitVec.ofNat 32 (p0 / 2 ^ 32)
    let o0 : W32 := BitVec.ofNat 32 p0
    let h1 : W32 := BitVec.ofNat 32 (p1 / 2 ^ 32)
    let o1 : W32 := BitVec.ofNat 32 p1
    philoxRound n (k.1 + 0x9E3779B9#32, k.2 + 0xBB67AE85#32) [h1 ^^^ c1 ^^^ k.1, o1, h0 ^^^ c3 ^^^ k.2, o0]

/-- Philox4x32-10 (R60). -/
def philox (key : W32 × W32) (ctr : List W32) : List W32 := philoxRound 10 key ctr

/-- Whether b comes before a in z order: larger z first, ties by lower index (R58). -/
def zBefore (a b : Nat × W32) : Bool :=
  let va := match f32 a.2 with | .fin _ 0 _ => 0 | _ => f32Key a.2
  let vb := match f32 b.2 with | .fin _ 0 _ => 0 | _ => f32Key b.2
  -- −0 and +0 are equal as values
  if va = vb then decide (b.1 < a.1) else decide (va < vb)

/-- Merge of two lists in z order; the fuel is their total length. -/
def zMerge : Nat → List (Nat × W32) → List (Nat × W32) → List (Nat × W32)
  | 0, _, _ => []
  | _ + 1, [], ys => ys
  | _ + 1, xs, [] => xs
  | n + 1, x :: xs, y :: ys => if zBefore x y then y :: zMerge n (x :: xs) ys else x :: zMerge n xs (y :: ys)

/-- Merge sort in z order; the fuel bounds the depth. -/
def zSort : Nat → List (Nat × W32) → List (Nat × W32)
  | 0, l => l
  | n + 1, l =>
    if l.length ≤ 1 then l
    else
      let h := l.length / 2
      zMerge l.length (zSort n (l.take h)) (zSort n (l.drop h))

/-- The lowest index of the largest logit (R58 with T = 0). -/
def argMax (l : List W32) : Nat :=
  match l.zipIdx with
  | [] => 0
  | (v, i) :: rest => (rest.foldl (fun best e => if zBefore best (e.2, e.1) then (e.2, e.1) else best) (i, v)).1

/-- The shortest prefix whose images reach P × total, where P is num × 2^x (R58). -/
def topPrefix (num : Nat) (x : Int) (total : Nat) : List (Nat × Nat) → Nat → List (Nat × Nat)
  | [], _ => []
  | e :: es, acc =>
    let acc := acc + e.2
    -- acc ≥ num × 2^x × total, exactly
    let enough := if 0 ≤ x then decide (acc ≥ num * 2 ^ x.toNat * total) else decide (acc * 2 ^ (-x).toNat ≥ num * total)
    if enough then [e] else e :: topPrefix num x total es acc

/-- The walk of the draw: the first index whose running sum passes thr (R58). -/
def drawWalk (thr : Nat) : List (Nat × Nat) → Nat → Nat
  | [], _ => 0
  | [e], _ => e.1
  | e :: es, acc => if acc + e.2 > thr then e.1 else drawWalk thr es (acc + e.2)

/-- What the sampler returns: a token id, or a NUMERIC_INVALID detail (R58, Table GEY-5). -/
inductive Draw where
  | token (id : Nat)
  | invalid (detail : Nat)
  deriving DecidableEq, Repr

/-- The sampler (R58, R59). -/
def sampleRow (l : List W32) (sp : Sampling) (t : Nat) : Draw :=
  if l.any f32IsNan then .invalid 1
  else if sp.temp == 0 || sp.temp == 0x80000000#32 then .token (argMax l)
  else
    let c := vuMul (vuRecip sp.temp) l2e
    if c == f32Inf false then .token (argMax l)
    else
      let z := l.map fun v => vuMul v c
      if z.any fun v => match f32 v with | .fin _ _ _ => false | _ => true then .invalid 2
      else
        let order := zSort 64 (z.zipIdx.map fun e => (e.2, e.1))
        let order := if 0 < sp.topK ∧ sp.topK < l.length then order.take sp.topK else order
        let m := match order with
          | [] => f32Zero false
          | e :: _ => e.2
        let g := order.map fun e =>
          match f32 (vuExp2 (vuAdd e.2 (f32Neg m))) with
          | .fin s mm x => (e.1, (image s mm x (-72)).toNat)
          | _ => (e.1, 0)
        let g := match f32 sp.topP with
          | .fin _ pm px => if sp.topP == 0x3F800000#32 then g else topPrefix pm px (sumNat (g.map (·.2))) g 0
          | _ => g
        let k := sumNat (g.map (·.2))
        let x := philox (BitVec.ofNat 32 sp.seed, BitVec.ofNat 32 (sp.seed / 2 ^ 32))
          [BitVec.ofNat 32 t, 0, BitVec.ofNat 32 (t / 2 ^ 32), 0]
        let r := (x.getD 1 0).toNat * 2 ^ 32 + (x.getD 0 0).toNat
        .token (drawWalk (r * k / 2 ^ 64) g 0)

/-- L_t of a logit row (R63). -/
def rowDigest (l : List W32) : Digest := sha256 (l.flatMap fun v => leBytes 4 v.toNat)

/-- D_0 from the request identity digest (R63). -/
def digestInit (i : Digest) : Digest := sha256 (ascii "SWDG" ++ i)

/-- D_(t+1) (R63). -/
def digestNext (d : Digest) (t y : Nat) (l : Digest) : Digest := sha256 (d ++ leBytes 8 t ++ leBytes 4 y ++ l)

end Sys2Proof.Machine
end

