-- ==== Sys2Proof/Machine/Commit.lean ====
section
/-! DEFINITION. The commit of a step (04 R120-R122) with what it does to requests, KV, journals and rings, and the
comparison of a replay (07 R199-R201). -/

namespace Sys2Proof.Machine

/-! ### What a step leaves a request to write at item 10 -/

/-- A request's journal entries and record of one step. -/
structure StepOut where
  h : Nat
  /-- EVENT entries with their DIGEST entries: TYPE, LEN, payload -/
  events : List (Nat × Nat × Bytes)
  /-- emitted token with its record's flags -/
  token : Option (Nat × RecFlags)
  /-- terminal outcome: TERM, DETAIL, CANCEL_STAMP -/
  term : Option (Term × Nat × Nat)
  /-- what the conversation does once the records are written: pause by an end action -/
  pause : Option EndAction
  deriving DecidableEq, Repr

/-- A StepOut with nothing in it. -/
def StepOut.empty (h : Nat) : StepOut := { h := h, events := [], token := none, term := none, pause := none }

/-- Plan rows of a request with the index of their first row. -/
def rowsOf (a : Attempt) (h : Nat) : List (Nat × PlanRow) := (indexRows 0 a.plan.rows).filter fun e => e.2.h == h

/-- The KV bytes of one position, from the rows staged by KV_STAGE (R127, R128). -/
def stagedPos (a : Attempt) (g : KvGeom) (slot idx : Nat) : Bytes :=
  (List.range g.layers).flatMap fun l => (List.range g.heads).flatMap fun k => [0, 1].flatMap fun v =>
    match a.staged.find? fun r => r.slot == slot && r.row == idx && r.layer == l && r.head == k && r.stream == v with
    | some r => slice r.body 0 g.width
    | none => zeroBytes g.width

/-- The KV of a request's rows of one stream, in position order. -/
def stagedRows (a : Attempt) (g : KvGeom) (rs : List (Nat × PlanRow)) : List Bytes :=
  rs.flatMap fun e => (List.range e.2.n).map fun i => stagedPos a g e.2.slot (e.1 + i)

/-- Positions up to n processed: condensed vectors first, then input tokens, enter the history (R141, R156). -/
def consume (q : Req) (n : Nat) : Req :=
  let k := n - q.history.length
  let c := min k q.condIn
  let t := k - c
  { q with condIn := q.condIn - c, history := q.history ++ List.replicate c 0 ++ q.input.take t, input := q.input.drop t }

/-- KV, input and mode of a request after its rows that are not suppressed (R120 item 6). -/
def commitKv (s : State) (a : Attempt) (h : Nat) : State :=
  match reqOf s h with
  | none => s
  | some q =>
    let x := partOf s q.part
    let rs := rowsOf a h
    let base := rs.filter fun e => !e.2.fb && !e.2.shadow && !e.2.cond
    let fb := rs.filter fun e => e.2.fb || e.2.shadow
    let s := if base.isEmpty then s else appendKv s h false (stagedRows a (geomOf x q.base) base)
    let s := if fb.isEmpty then s else appendKv s h true (stagedRows a (fbGeom x q) fb)
    updReq s h fun y => consume y (max (posBase y) (posFb y))

/-! ### Emission and the end of a turn (R134, R136, R140) -/

/-- A request with the END_ACTION that governs now: the tenant's default where REQUEST_SUBMIT left it open (R136, R137). -/
def resolveEnd (s : State) (q : Req) : Req :=
  match q.samp.endDefault, tenantOf s q.tenant with
  | true, some t => { q with samp := { q.samp with endAction := t.endAction } }
  | _, _ => q

/-- Why a turn ends at the commit of token y, if it does; stop before limit before full (R134, R136; log 14). -/
def endReason (q : Req) (y : Nat) : EndReason :=
  if q.samp.stops.contains y then .stop
  else if q.samp.turnMax != 0 && decide (q.samp.turnMax ≤ q.turnTokens + 1) then .limit
  else if q.samp.ctxMax ≤ q.history.length then .full
  else .none

/-- What the end of a turn does, beside a pause message that was accepted (R134, R136, R140): finish, or the pause that
governs. -/
def turnAction (q : Req) : EndAction :=
  let full := decide (q.samp.ctxMax ≤ q.history.length)
  let act := if condenseEvent q (q.next + 1) && q.samp.endAction != .finish then .condense
    else if full && completeEvent q (q.next + 1) then .finish else q.samp.endAction
  match q.want with
  | some (.park _ _ _ _) => if act == .finish || full then .finish else .park
  | some .condense => if act == .finish then .finish else .condense
  | _ => if full && (act == .hold || act == .park) then .finish else act

/-- The flags of a token's record (Table GEY-4). -/
def tokenRec (q : Req) (r : EndReason) (act : EndAction) (fallback miss sat : Bool) : RecFlags :=
  let ended := r != .none
  { resumed := q.resumed, condensed := q.condensed, dlMiss := miss, saturated := q.saturated || sat, fallback := fallback
    reason := r, turnEnd := ended && act != .finish, term := if ended && act == .finish then 1 else 0, tokenValid := true }

/-- The mode events of an emitting row (R118, R116; Table CAP-7): the switch at the first fallback row, the return at
the first base token after it. -/
def modeEvents (q : Req) (fb : Bool) (fbTokens c : Nat) : List (Nat × Nat × Bytes) :=
  if fb && !q.fbMode then [(7, 32, eventEntry 1 0 fbTokens q.next c 0)]
  else if !fb && q.catchUp.isSome then [(7, 32, eventEntry 2 0 0 q.next c 0)]
  else []

/-- A request's mode after an emitted token (R116, R118). -/
def modeAfter (q : Req) (fb : Bool) (fbTokens : Nat) : Req :=
  if fb then
    let left := if q.fbMode then q.fbLeft else fbTokens
    if left = 1 then { q with fbMode := false, fbLeft := 0, catchUp := some (posBase q) }
    else { q with fbMode := true, fbLeft := left - 1 }
  else { q with catchUp := none }

/-- One token of a request emitted at C (R120 items 4, 5, 7): the request after it, and what it leaves to write. -/
def emitToken (q : Req) (y : Nat) (l : Digest) (c fbTokens : Nat) (fb sat : Bool) : Req × StepOut :=
  let miss := hasDl q && decide (deadlineOf q q.next < c)
  let r := endReason q y
  let act := turnAction q
  let ev := modeEvents q fb fbTokens c
  let f := tokenRec q r act fb miss sat
  let q1 := modeAfter q fb fbTokens
  let q2 := { q1 with digest := digestNext q.digest q.next y l, next := q.next + 1, input := [y]
                      turnTokens := q.turnTokens + 1, lastC := c, saturated := q.saturated || sat
                      dlMisses := if miss then satAdd 64 q.dlMisses 1 else q.dlMisses }
  (q2, { h := q.h, events := ev, token := some (y, f)
         term := if r != .none && act == .finish then some (.complete, 0, 0) else none
         pause := if r != .none && act != .finish then some act else none })

/-! ### Condensing (R154, R155) -/

/-- The condenser rows of a request committed; the last piece makes it CONDENSED. Their SATURATED goes into its next record (R44, R154). -/
def commitCond (s : State) (a : Attempt) (h c : Nat) : State × StepOut :=
  let out := StepOut.empty h
  match reqOf s h with
  | none => (s, out)
  | some q =>
    match q.cond with
    | none => (s, out)
    | some k =>
      let rs := (rowsOf a h).filter fun e => e.2.cond
      let gran := match modelOfKey (partOf s q.part) k.key with | some m => vecGranules m | none => 1
      let new := rs.flatMap fun e => (List.range e.2.n).map fun i =>
        match a.condVecs.find? fun v => v.1 == e.1 + i with
        | some v => slice v.2 0 (512 * gran)
        | none => zeroBytes (512 * gran)
      let vecs := k.vecs ++ new
      let sat := a.satRows.any fun e => e.1 == h
      let s := updReq s h fun x => { x with saturated := x.saturated || sat }
      if vecs.length < k.s then (updReq s h fun x => { x with cond := some { k with vecs := vecs } }, out)
      else
        let d := sha256 vecs.flatten
        let s := dropPins (dropKv s h) h
        let s := handRuns (k.frames.foldl (fun t n => updFrame t n fun f => { f with cls := .transit }) s) q.part (wholeRuns k.frames)
        let s := updReq s h fun x =>
          { x with conv := .condensed, condensed := true, history := [], catchUp := none, queuedAt := none
                   cond := some { k with vecs := vecs, digest := d } }
        (s, { out with events := [(7, 32, eventEntry 3 0 k.p q.next c k.s), (2, 40, digestEntry 6 k.key.program),
                                  (2, 40, digestEntry 7 d)] })

/-! ### One request at items 4 to 7 -/

/-- What SAMPLE found for a request. -/
def sampledOf (a : Attempt) (h : Nat) : Option Sampled := a.sampled.find? fun x => x.h == h

/-- Items 3 to 7 of R120 for one request of the plan. -/
def commitReq (s : State) (a : Attempt) (c : Nat) (cut : List Nat) (h : Nat) : State × StepOut :=
  match reqOf s h with
  | none => (s, StepOut.empty h)
  | some q =>
    if !living q then (s, StepOut.empty h)
    else if cut.contains h then
      let st := (q.cancel.getD (0, 1))
      let sat := a.satRows.any fun e => e.1 == h
      (updReq s h fun x => { x with saturated := x.saturated || sat }, { StepOut.empty h with term := some (.cancelled, st.2, st.1) })
    else if q.conv == .condensing then commitCond s a h c
    else
      let sat := a.satRows.any fun e => e.1 == h
      let s := commitKv s a h
      let fbTokens := (partOf s q.part).items.fbTokens
      let emit := (rowsOf a h).find? fun e => e.2.emits
      match emit, reqOf s h with
      | some e, some q =>
        (match sampledOf a h with
        | none => (s, StepOut.empty h)
        | some v =>
          if v.invalid != 0 then
            (updReq s h fun x => { x with saturated := x.saturated || sat },
             { StepOut.empty h with term := some (.numericInvalid, v.invalid, 0) })
          else
            let r := emitToken (resolveEnd s q) v.token v.rowDigest c fbTokens e.2.fb sat
            (updReq s h fun _ => { r.1 with samp := q.samp }, r.2))
      | _, _ => (updReq s h fun x => { x with saturated := x.saturated || sat }, StepOut.empty h)

/-! ### Budgets, accounting, pins (R106, R284, R286, R85) -/

/-- Reservations become debits or are released; a member that does not lead the partition keeps no buckets (R102, R106). -/
def settleBudgets (s : State) (a : Attempt) (cut : List Nat) : State :=
  let p := (a.plan.rows.findSome? fun r => (reqOf s r.h).map (·.part)).getD 8
  let s := reserveAll s a.plan.reserved (-1)
  if !leads s p then s
  else (reservedOf s (a.plan.rows.filter fun r => !cut.contains r.h)).foldl (fun t e =>
    updTenant t e.1 fun u =>
      if u.rate = 0 then u else { u with bal := u.bal - (e.2 : Int) * tokenUnits, flow := u.flow - (e.2 : Int) * tokenUnits }) s

/-- Engine time of a step (R284): cluster-ticks over all holding intervals of its attempts. -/
def stepTicks (x : Part) (a : Attempt) (c : Nat) : Nat := partClusters x.items * (x.stepHeld + (c - a.grantedAt))

/-- ET and the accounting counters of a partition's tenants at a commit (R284, Table PAR-3). -/
def accountStep (s : State) (p : Nat) (a : Attempt) (c : Nat) (outs : List StepOut) : State :=
  let x := partOf s p
  let e := stepTicks x a c
  let total := sumNat (a.plan.rows.map (·.n))
  let rows := reservedOf s a.plan.rows
  let live := reservedOf s (a.plan.rows.filter fun r => !outs.any fun o => o.h == r.h && (match o.term with | some (.cancelled, _, _) => true | _ => false))
  let toks := fun id => (outs.filter fun o => o.token.isSome && (match reqOf s o.h with | some q => q.tenant == id | none => false)).length
  let sats := fun id => (a.satRows.filter fun r => match reqOf s r.1 with | some q => q.tenant == id | none => false).length
  let miss := fun id => (outs.filter fun o => (match o.token with | some (_, f) => f.dlMiss | none => false) && (match reqOf s o.h with | some q => q.tenant == id | none => false)).length
  let inv := fun id => (outs.filter fun o => (match o.term with | some (.numericInvalid, _, _) => true | _ => false) && (match reqOf s o.h with | some q => q.tenant == id | none => false)).length
  let s := { s with tenants := s.tenants.map fun t =>
    if t.part != p then t
    else
      let inc := if total = 0 then 0 else e * lookupD rows t.id 0 / total
      let t := { t with satRows := satAdd 64 t.satRows (sats t.id), dlMisses := satAdd 64 t.dlMisses (miss t.id)
                        numInvalid := satAdd 64 t.numInvalid (inv t.id)
                        et := if x.items.deadline then t.et else t.et - t.et / 2 ^ x.items.decay + inc }
      if x.items.full then
        { t with engineTicks := satAdd 64 t.engineTicks inc, rows := satAdd 64 t.rows (lookupD live t.id 0), tokens := satAdd 64 t.tokens (toks t.id) }
      else t }
  updPart s p fun y => { y with stepHeld := 0, steps := if y.items.full then satAdd 64 y.steps 1 else y.steps }

/-- The queue wait of a request that had a row, under FULL (Table PAR-3). -/
def countWait (s : State) (p c : Nat) (h : Nat) : State :=
  match reqOf s h with
  | none => s
  | some q =>
    match q.queuedAt with
    | none => s
    | some t0 =>
      let s := updReq s h fun x => { x with queuedAt := none }
      if (partOf s p).items.full then updTenant s q.tenant fun t => { t with queueTicks := satAdd 64 t.queueTicks (c - t0) } else s

/-- Provisional pins of a plan's requests become durable, and the requests are admitted (R85); the adapters of its segments were last used
at the commit stamp (R83). -/
def admitRows (s : State) (p c : Nat) (segs : List Seg) (hs : List Nat) : State :=
  { s with reqs := s.reqs.map fun q =>
      if hs.contains q.h then { q with admitted := true, pins := if q.pins == .provisional then .durable else q.pins } else q
           adapters := s.adapters.map fun ad =>
      if ad.part == p && segs.any (fun g => g.idx == ad.idx) then { ad with lastUse := max ad.lastUse c } else ad }

/-! ### Replays (R199-R201) -/

/-- The status of a request's replay changed. -/
def updReplay (s : State) (q : Req) (f : ReplayStat → ReplayStat) : State :=
  updPart s q.part fun p => { p with replayStats := p.replayStats.map fun r => if r.id == q.replayId then f r else r }

/-- Whether entry n of a replay's capsule stands after the last SEAL (R200, Table CAP-10). -/
def inTail (q : Req) (n : Nat) : Bool := q.replay.any fun r => decide (r.sealedTo ≤ n)

/-- The TOKEN entry of a capsule for a token index: id, FLAGS and digest head, zero where there is none (Table CAP-10). -/
def recordedAt (q : Req) (t : Nat) : Nat × Nat × Bytes :=
  match q.replay.bind fun r => r.entries.find? fun e => entTy e == 6 && rd e 8 8 == t with
  | some e => (rd e 16 4, rd e 20 2, slice e 32 16)
  | none => (0, 0, zeroBytes 16)

/-- A replay that ends DIVERGED at entry n: kind, the token index, and what was recorded and observed there (R200, Table CAP-10). -/
def diverge (s : State) (h kind t n : Nat) (obs : Nat × Nat × Bytes) : State :=
  match reqOf s h with
  | none => s
  | some q =>
    let old := recordedAt q t
    let s := updReplay s q fun r =>
      { r with divIndex := some t, divKind := kind, divSeq := n, unsealed := r.unsealed || inTail q n
               recTok := old.1, recFlags := old.2.1, recHead := old.2.2
               obsTok := obs.1, obsFlags := obs.2.1, obsHead := obs.2.2 }
    endReplay s h 3

/-- A replay that reached the end of its capsule without a mismatch ends MATCH (R200). -/
def endMatch (s : State) (q : Req) (n : Nat) (term : Bool) : State :=
  endReplay (updReplay s q fun x => { x with termRep := term, unsealed := x.unsealed || inTail q n }) q.h 2

/-- A TERMINAL entry compared with where the replay stands; `own` is the terminal code it reached by itself (R199, R200). A capsule that
ends before has nothing to compare. -/
def compareEnd (s : State) (h n : Nat) (own : Option Term) : State :=
  match reqOf s h with
  | none => s
  | some q =>
    match q.replay with
    | none => s
    | some r =>
      let e := (entAt r n).getD []
      let none3 := (0, 0, zeroBytes 16)
      let want := rd e 8 1
      let bad := match own with
        | some t => entTy e != 8 || want != termVal t
        | none => want == 1 || want == 4
      if (entAt r n).isNone then endMatch s q (n - 1) false
      else if bad || rd e 16 8 != q.next then diverge s h 5 q.next n none3
      else if slice ((entAt r (n + 1)).getD []) 16 32 != q.digest then diverge s h 6 q.next (n + 1) none3
      else endMatch s q (n + 1) own.isSome

/-- A replay enters CONDENSING with the P positions of a CONDENSE event, under the condenser it names (R153, R199). -/
def replayCondense (s : State) (h p : Nat) (d : Digest) : State :=
  match reqOf s h with
  | none => s
  | some q =>
    match (partOf s q.part).slots.findSome? (fun m => match m with | some m => if m.key.program == d && m.key.level == q.base.level then some m else none | none => none) with
    | none => endReplay s h 4
    | some m =>
      let k := condCount m.prog p
      let need := ceilDiv (k * vecGranules m * 512) 65536
      let own := min need q.quota
      if usableFree s q.part + own < need then endReplay s h 4
      else
        let s := updReq s h fun x => { x with quota := x.quota - own }
        match openFrames s q.part .condensed (.condensed h) need with
        | none => endReplay s h 4
        | some (fs, s) => updReq s h fun x =>
            { x with conv := .condensing, cond := some { p := p, s := k, key := m.key, frames := fs, vecs := [], digest := [] } }

/-- A replay continues with recorded APPEND tokens; from CONDENSED it reserves a slot and quota again, and it ends ABORTED without them
or without its adapters (R86, R90, R156, R199). -/
def replayResume (s : State) (h : Nat) (app : List Nat) : State :=
  match reqOf s h with
  | none => s
  | some q =>
    let back := q.conv == .condensed
    let k := reqQuota (partOf s q.part) q
    if back && (!canReserve s q.part k || q.adGone || refsBad s q) then endReplay s h 4
    else updReq s h fun x =>
      { x with conv := .live, input := x.input ++ app, resumed := true, turnTokens := 0, tStart := x.next
               quota := if back then k else x.quota, slot := true
               condIn := if back then (match x.cond with | some c => c.s | none => 0) else x.condIn }

/-- What the recorded events at a replay's present token index call for; the fuel is the number of entries (R199). -/
def replayAdvance : Nat → State → Nat → State
  | 0, s, _ => s
  | f + 1, s, h =>
    match reqOf s h with
    | none => s
    | some q =>
      match q.replay with
      | none => s
      | some r =>
        if !living q then s
        else
          let n := skipSeals r r.entries.length r.next
          let s := updReq s h fun x => { x with replay := some { r with next := n } }
          let goOn := fun k (t : State) => replayAdvance f (updReq t h fun x => { x with replay := some { r with next := k } }) h
          match entAt r n with
          | none => endMatch s q (n - 1) false
          | some e =>
            if entTy e == 8 then (if rd e 8 1 == 1 || rd e 8 1 == 4 then s else compareEnd s h n none)
            else if entTy e != 7 then s
            else match rd e 8 1 with
              | 1 => goOn (n + 1) (updReq s h fun x => { x with fbMode := true, fbLeft := rd e 12 4 })
              | 3 =>
                if q.conv == .condensing then s
                else if posBase q < rd e 12 4 then updReq s h fun x => { x with conv := .live }
                else replayCondense s h (rd e 12 4) (slice ((entAt r (n + 1)).getD []) 16 32)
              | 5 =>
                let cnt := rd e 12 4
                let k := ceilDiv cnt 14
                let app := ((r.entries.drop (n + 1)).take k).flatMap fun i =>
                  (List.range (rd i 2 2 / 4)).map fun j => rd i (8 + 4 * j) 4
                goOn (n + 1 + k) (replayResume s h app)
              | _ => s

/-- A replay's outcome at a commit compared with its capsule, `cond` saying that its rows were condenser rows (R200). -/
def replayCompare (s : State) (o : StepOut) (cond : Bool) : State :=
  match reqOf s o.h with
  | none => s
  | some q =>
    match q.replay with
    | none => s
    | some r =>
      let n := skipSeals r r.entries.length r.next
      let e := (entAt r n).getD []
      let none3 := (0, 0, zeroBytes 16)
      if cond then
        let d := (entAt r (n + 2)).getD []
        if o.events.isEmpty then s
        else if slice d 16 32 != (match q.cond with | some c => c.digest | none => []) then diverge s o.h 4 q.next (n + 2) none3
        else replayAdvance r.entries.length (updReq s o.h fun x => { x with replay := some { r with next := n + 3 } }) o.h
      else
        let occurs := o.events.any fun v => rd v.2.2 0 1 == 2
        let recorded := entTy e == 7 && rd e 8 1 == 2
        match o.token, o.term with
        | some (y, f), t =>
          let head := slice q.digest 0 16
          let obs := (y, tokenFlags f, head)
          let i := q.next - 1
          if occurs != recorded then diverge s o.h 7 i n obs
          else
            let n := if recorded then n + 1 else n
            let n := skipSeals r r.entries.length n
            let e := (entAt r n).getD []
            if entTy e != 6 then diverge s o.h 5 i n obs
            else if rd e 16 4 != y then diverge s o.h 1 i n obs
            else if rd e 20 2 != tokenFlags f then diverge s o.h 2 i n obs
            else if slice e 32 16 != head then diverge s o.h 3 i n obs
            else
              let s := updReplay s q fun x => { x with compared := x.compared + 1, st := 1, unsealed := x.unsealed || inTail q n }
              let s := updReq s o.h fun x => { x with saturated := false, resumed := false, replay := some { r with next := n + 1 } }
              match t with
              | some (t, _, _) => compareEnd s o.h (skipSeals r r.entries.length (n + 1)) (some t)
              | none =>
                let s := updReq s o.h fun x => if o.pause.isSome then { x with conv := .held } else x
                replayAdvance r.entries.length s o.h
        | none, some (t, _, _) => compareEnd s o.h n (some t)
        | none, none => replayAdvance r.entries.length (updReplay s q fun x => { x with st := 1 }) o.h

/-! ### Item 10 (R168, R188) -/

/-- One request's journal entries and then its record, at the commit with stamp C (R188, R168). -/
def writeOut (s : State) (c : Nat) (o : StepOut) : State :=
  let s := o.events.foldl (fun t e => jrnWrite t o.h e.1 e.2.1 e.2.2) s
  match reqOf s o.h with
  | none => s
  | some q =>
    let s := match o.token with
      | some (y, f) => jrnWrite s o.h 6 40 (leBytes 8 (q.next - 1) ++ leBytes 4 y ++ leBytes 2 (tokenFlags f) ++ zeroBytes 2 ++
          leBytes 8 c ++ slice q.digest 0 16)
      | none => s
    match o.term with
    | some (t, detail, cs) =>
      let s := fixOutcome s o.h t detail
      let sat := o.token.isNone && q.saturated
      let s := jrnEnd s o.h t detail c cs s.boot.dtc sat
      let s := match o.token with
        | some (y, f) => ringWrite s o.h f y c 0 0
        | none => ringWrite s o.h (termFlags q t) 0 c detail cs
      retain s o.h t detail
    | none =>
      let s := if q.exports.isEmpty then s else answerExports (jrnSeal s o.h s.boot.dtc) o.h
      let s := jrnPidx s o.h
      match o.token with
      | some (y, f) => ringWrite s o.h f y c 0 0
      | none => s

/-- Whether every stream of a resumed conversation holds its condensed positions, so that their frames can go. DEDUCED: "the commit that
writes position S - 1" is the one after which no stream needs the vectors any more (R156; log 68). -/
def condWritten (q : Req) : Bool :=
  match q.cond with
  | some k => decide (k.s ≤ posBase q) && (!hasFb q || decide (k.s ≤ posFb q))
  | none => false

/-- What a commit does to a request after its record: the end action, the pause that was accepted, or its release (R136, R138). A turn
that ends at the commit of an accepted pause leaves the conversation HELD if the pause then fails. DEDUCED: its end stands (R140;
log 73). -/
def afterOut (s : State) (c : Nat) (o : StepOut) : State :=
  match reqOf s o.h with
  | none => s
  | some q =>
    if !living q then releaseReq s o.h
    else
      let s := if q.conv == .live && condWritten q then dropCond s o.h else s
      if q.replay.isSome then s
      else if q.conv == .condensed then
        (match q.wantCtx with
        | some x => respond (updReq s o.h fun y => { y with want := none, wantCtx := none }) x .success
            (leBytes 4 (match q.cond with | some k => k.s | none => 0))
        | none => updReq s o.h fun y => { y with want := none })
      else if q.want.isSome then
        applyWant (if o.pause.isSome then updReq s o.h fun x => { x with conv := .held, idleAt := some c } else s) o.h
      else match o.pause with
        | some .hold => updReq s o.h fun x => { x with conv := .held, idleAt := some c }
        | some .park =>
          (match tenantOf s q.tenant with
          | some t => beginPark s o.h t.parkOffset t.parkStride t.parkTtl (match currentKey s q.tenant with | some k => k.gen | none => 0)
          | none => pauseFails s o.h)
        | some .condense => beginCondense s o.h
        | _ => s

/-! ### The commit -/

/-- Items 3 to 11 of R120 on this member, with stamp C and the handles the cut suppresses. -/
def commitItems (s : State) (p c : Nat) (cut : List Nat) : State :=
  match (partOf s p).attempt with
  | none => s
  | some a =>
    let hs := planHandles a
    let conds := hs.filter fun h => match reqOf s h with | some q => q.conv == .condensing | none => false
    let r := hs.foldl (fun (acc : State × List StepOut) h =>
      let x := commitReq acc.1 a c cut h
      (x.1, acc.2 ++ [x.2])) (s, [])
    let s := accountStep (settleBudgets r.1 a cut) p a c r.2
    let s := hs.foldl (fun t h => countWait t p c h) s
    let s := admitRows s p c a.segs (hs.filter fun h => !cut.contains h)
    let s := a.clusters.foldl dropClusterPermits s
    let s := freeClusters s a.clusters
    let s := markIdlePorts (updPart s p fun x =>
      { x with attempt := none, sems := x.sems.filter (fun m => m.st != .armed), probes := [], serial := x.serial + 1
               lastFbOnly := a.plan.fbOnly && leads s p })
    let s := { s with boot := { s.boot with dtc := max s.boot.dtc (c + 1) }
                      ports := s.ports.map fun q => { q with reclaimRx := q.reclaimRx.filter fun e => e.1 != p } }
    let s := r.2.foldl (fun t o =>
      match reqOf t o.h with
      | some q => if !living q then t else if q.replay.isSome then replayCompare t o (conds.contains o.h) else writeOut t c o
      | none => t) s
    let s := r.2.foldl (fun t o => afterOut t c o) s
    closeLedger (reapModels (settleRetiring s p) p) [p]

/-- The handles a cut at C suppresses (R120 item 3, R175). -/
def cutHandles (s : State) (a : Attempt) (c : Nat) : List Nat :=
  (planHandles a).filter fun h => match reqOf s h with
    | some q => (match q.cancel with | some (st, _) => decide (st < c) | none => false)
    | none => false

/-- Item 12: the next plan, from the state items 3 to 11 leave, unless the close raised doubt (R438). -/
def nextPlan (s : State) (p c : Nat) : State :=
  if s.flt.pkg != .serving then s else endCancelled (freeze s p c 0) p

/-! ### Readiness (R120 item 1, R220, R234, R322) -/

/-- Whether every rank has reached STEP_END and every shadow pair is compared. -/
def stepReady (s : State) (a : Attempt) : Bool :=
  !a.clusters.isEmpty && a.clusters.all (fun c => (clusterOf s c).finished && (clusterOf s c).twinQ.isEmpty) &&
    a.twins.all fun t => t.primaryDigest.isSome && t.shadowDigest.isSome

/-- A cluster of an attempt with a message left in a channel (R220). -/
def residue (s : State) (a : Attempt) : Option Nat :=
  a.clusters.find? fun c => (clusterOf s c).chans.any fun e => !e.2.msgs.isEmpty

/-- The READY message of a member: the indexes of the rings and journals it owns in the partition (Table LNK-8, R169). -/
def readyBody (s : State) (p : Nat) : List Bytes :=
  (s.reqs.filter fun q => q.part == p && living q && q.ownsRing && q.replay.isNone).map fun q =>
    leBytes 8 q.h ++ leBytes 4 q.ring.cidx ++ leBytes 4 q.jrn.ring.cidx

/-- A member whose part of item 1 holds reports READY to the leader (R322), but not while it activates firmware (R485); a message left over
is doubt (R220). -/
def memberReady (s : State) (p : Nat) : State :=
  let x := partOf s p
  match x.attempt with
  | none => s
  | some a =>
    if a.phase != .run || !stepReady s a || (s.boot.fwPhase == .quiesce && !leads s p) then s
    else match residue s a with
      | some c => doubt s 0x09 p c 0
      | none =>
        let s := updPart s p fun y => { y with attempt := some { a with phase := .ready } }
        if leads s p then s
        else
          let es := readyBody s p
          sendMember s x.items.groupSize 0 0 (linkHeader 0x04 0x02 (16 * es.length) p 0 0 (hubTag s p a) es.length ++ es.flatten)

end Sys2Proof.Machine
end

