-- ==== Sys2Proof/Machine/Cluster.lean ====
section
/-! DEFINITION. What every cluster command shares: the rank a cluster runs, queues and the scoreboard, draw permits of a
cluster, operand ports, Twin Check, and the start of an invocation (08 §2, §7, §8; 14 R412). -/

namespace Sys2Proof.Machine

/-! ### The rank a cluster runs -/

/-- A cluster that executes a rank of a step attempt. -/
structure Cx where
  p : Nat
  rank : Nat
  part : Part
  att : Attempt
  slot : Nat
  model : Model
  lay : Layout
  cl : Cluster

/-- The rank cluster c executes, if it executes one (R277, R112). -/
def cxOf (s : State) (c : Nat) : Option Cx :=
  let cl := clusterOf s c
  match cl.holder with
  | none => none
  | some (p, r) =>
    let x := partOf s p
    match x.attempt, cl.invs.head? with
    | some a, some slot =>
      if a.phase == .run || a.phase == .shelving then
        match modelAt x slot with
        | none => none
        | some m =>
          match layoutIn x.items m with
          | none => none
          | some l => some { p := p, rank := r, part := x, att := a, slot := slot, model := m, lay := l, cl := cl }
      else none
    | _, _ => none

/-- The attempt of a partition changed. -/
def updAtt (s : State) (p : Nat) (f : Attempt → Attempt) : State := updPart s p fun x => { x with attempt := x.attempt.map f }

/-! ### The scoreboard and the queues (R206, R207) -/

/-- Whether a command's wait tag lets it issue. -/
def waitOk (cl : Cluster) (k : QCmd) : Bool := k.issued || k.cmd.wait == 0xFFFF || decide (0 < lookupD cl.tags k.cmd.wait 0)

/-- A tag counted up by n; 0xFFFF is none. -/
def raiseTag (cl : Cluster) (t n : Nat) : Cluster :=
  if t = 0xFFFF then cl else { cl with tags := storeD cl.tags t (lookupD cl.tags t 0 + n) 0 }

/-- The wait tag of a command taken as it issues. -/
def takeTag (cl : Cluster) (k : QCmd) : Cluster :=
  if k.issued || k.cmd.wait = 0xFFFF then cl
  else { cl with tags := storeD cl.tags k.cmd.wait (lookupD cl.tags k.cmd.wait 0 - 1) 0 }

/-- Commands of the stream written to their queues while those hold fewer than 64; the fuel is their number. -/
def refill : Nat → Cluster → Cluster
  | 0, c => c
  | n + 1, c =>
    match c.todo with
    | [] => c
    | k :: ks =>
      if (c.queues.getD k.cmd.queue []).length < 64 then
        refill n { c with todo := ks, queues := modAt c.queues k.cmd.queue fun q => q ++ [k] }
      else c

/-- The head of a queue retired: its signal tag, its LAYER_END, the no-retire clock, and the queue filled again. -/
def retireHead (now q : Nat) (cl : Cluster) (k : QCmd) : Cluster :=
  let cl := { takeTag cl k with queues := modAt cl.queues q (fun l => l.drop 1), lastRetire := now
                                layers := cl.layers + b2n (bit k.cmd.flags 2) }
  let cl := raiseTag cl k.cmd.signal 1
  refill cl.todo.length cl

/-- The head of a queue marked as issued, its wait tag taken. -/
def issueOnly (q : Nat) (cl : Cluster) (k : QCmd) (f : QCmd → QCmd) : Cluster :=
  { takeTag cl k with queues := modAt cl.queues q fun l => f { k with issued := true } :: l.drop 1 }

/-! ### Draw permits of a cluster (R411, R412) -/

/-- DU of a class (Table PWR-3). -/
def classDu : PClass → Nat
  | .array4 => 14
  | .array8 => 11
  | .array16 => 8
  | .amvu => 3
  | .hbmTrain => 6
  | .sinter => 4
  | .linkTrain => 3
  | .domainUp => 4
  | .standing => 1

/-- Whether a class is an array class. -/
def isArray (c : PClass) : Bool := c == .array4 || c == .array8 || c == .array16

/-- The array class of a format (Table PWR-3). -/
def fmtClass (f : Fmt) : PClass :=
  match fmtWidth f with
  | 4 => .array4
  | 8 => .array8
  | _ => .array16

/-- The larger of two array classes. -/
def maxClass (a b : PClass) : PClass := if classDu a < classDu b then b else a

/-- The array class of an MA_MAC. -/
def macClass (c : Cmd) : PClass :=
  match fmtOfCode (c.fmt % 256), fmtOfCode (c.fmt / 256) with
  | some f, some g => maxClass (fmtClass f) (fmtClass g)
  | _, _ => .array16

/-- The class the MA work of a rank's layer needs, if it has any (R412). -/
def layerClass (l : Layout) (rank layer : Nat) : Option PClass :=
  let cmds := l.cmds.getD rank []
  let cs := ((cmds.zip (streamLayers 0 cmds)).filter fun e => e.1.op == 1 && e.2 == layer).map fun e => macClass e.1
  match cs with
  | [] => none
  | c :: rest => some (rest.foldl maxClass c)

/-- DU of the array permit a cluster holds and that has reached it. -/
def arrayHeld (g : Gov) (c : Nat) : Nat :=
  sumNat ((g.permits.filter fun p => p.req == c && isArray p.cls && p.delivered).map (·.du))

/-- Whether a request of a requester is under way or granted and not yet delivered. -/
def asking (g : Gov) (req : Nat) (f : PClass → Bool) : Bool :=
  (g.queue ++ g.arrivals).any (fun r => r.req == req && f r.cls) || g.permits.any fun p => p.req == req && f p.cls && !p.delivered

/-- A cluster asks for an array class: the difference to what it holds. -/
def askArray (s : State) (c : Nat) (k : PClass) : State :=
  if asking s.gov c isArray then s else { s with gov := govAsk s.gov c k (classDu k - arrayHeld s.gov c) s.boot.dtc }

/-- A requester asks for a permit it neither holds nor waits for. -/
def askPermit (s : State) (req : Nat) (k : PClass) : State :=
  if s.gov.permits.any fun p => p.req == req && p.cls == k then s
  else { s with gov := govAsk s.gov req k (classDu k) s.boot.dtc }

/-- Whether a requester holds a permit of a class that has reached it. -/
def holds (g : Gov) (req : Nat) (k : PClass) : Bool := g.permits.any fun p => p.req == req && p.cls == k && p.delivered

/-- Run once a cluster holds an array class; otherwise it asks and waits (R412). -/
def withArray (s : State) (c : Nat) (k : PClass) (t : State) : State :=
  if classDu k ≤ arrayHeld s.gov c then t else askArray s c k

/-- Run once a cluster holds its AMVU permit; otherwise it asks and waits (R411). -/
def withAmvu (s : State) (c : Nat) (t : State) : State := if holds s.gov (192 + c) .amvu then t else askPermit s (192 + c) .amvu

/-- A lower class taken at once at the end of a layer: the difference released (R412). -/
def lowerClass (s : State) (c : Nat) (k : PClass) : State :=
  let h := arrayHeld s.gov c
  if h ≤ classDu k then s
  else
    { s with gov := { s.gov with
        permits := s.gov.permits.map fun p => if p.req == c && isArray p.cls && p.delivered then { p with cls := k, du := classDu k } else p
        releases := s.gov.releases + (h - classDu k) } }

/-- What LAYER_END does to a cluster's class when the command that bears it has retired. -/
def layerEnd (s : State) (c : Nat) (x : Cx) (k : QCmd) : State :=
  if bit k.cmd.flags 2 then
    match layerClass x.lay x.rank (x.cl.layers + 1) with
    | some n => lowerClass s c n
    | none => s
  else s

/-! ### Twin Check (R231-R234) -/

/-- The tile digest of output bytes: CRC-64/XZ forwards, then backwards (R234). -/
def tileDigest (bs : Bytes) : Nat := (crc64 bs).toNat * 2 ^ 64 + (crc64 bs.reverse).toNat

/-- The divisor of a Twin Check setting (R231). -/
def twinDivisor : Nat → Nat
  | 1 => 64
  | 2 => 16
  | 3 => 4
  | _ => 1

/-- The shadow rank of a rank among the clusters of an attempt (R232). -/
def shadowRank (clusters : List Nat) (r : Nat) : Nat :=
  let n := clusters.length
  let start := (r + ceilDiv n 2) % n
  let die := fun k => clusters.getD k 0 / 48
  (((List.range n).map fun i => (start + i) % n).find? fun k => die k != die r).getD start

/-- Whether a command is shadowed in this step (R232). -/
def shadowed (x : Cx) (k : QCmd) : Bool :=
  bit k.cmd.flags 0 && x.part.items.twin != 0 && (k.idx + x.part.serial) % twinDivisor x.part.items.twin == 0

/-- The cluster that shadows a rank's commands (R232). -/
def shadowOf (x : Cx) : Nat := x.att.clusters.getD (shadowRank x.att.clusters x.rank) 0

/-- A command's shadow put in the TWIN queue of its shadow cluster, with the primary's digest; its inputs stay as they are until the
copy has read them (R232, R233). -/
def twinPut (s : State) (x : Cx) (k : QCmd) (out : Bytes) (inputs : List (Nat × Nat)) : State :=
  if shadowed x k then
    let sc := shadowOf x
    let pair : TwinPair :=
      { inv := x.slot, rank := x.rank, cmd := k.idx, shadow := sc, inputs := inputs, output := out
        primaryDigest := some (tileDigest out), shadowDigest := none }
    let s := updAtt s x.p fun a => { a with twins := a.twins ++ [pair] }
    updPart (updCluster s sc fun cl => { cl with twinQ := cl.twinQ ++ [(x.slot, x.rank, k.idx)] }) x.p fun y =>
      { y with twinShadowed := satAdd 64 y.twinShadowed 1 }
  else s

/-- Whether a range of a rank's store is an input that a shadow has still to read (R233). -/
def inputHeld (a : Attempt) (rank lo n : Nat) : Bool :=
  a.twins.any fun t => t.rank == rank && t.shadowDigest.isNone &&
    t.inputs.any fun r => decide (lo < r.1 + r.2 ∧ r.1 < lo + n)

/-- The command of a TWIN queue entry: the same position of its rank's stream. -/
def shadowCmd (s : State) (p : Nat) (e : Nat × Nat × Nat) : Option Cmd :=
  match modelAt (partOf s p) e.1 with
  | none => none
  | some m => match layoutIn (partOf s p).items m with
    | none => none
    | some l => (l.cmds.getD e.2.1 [])[e.2.2]?

/-- Whether the next issue slot of a unit, by its queue 0 to 2, belongs to the TWIN queue: its head is a command of that unit, and
the unit has issued seven commands since the TWIN queue last had a slot (R233; log 57). -/
def twinSlot (s : State) (p : Nat) (cl : Cluster) (q : Nat) : Bool :=
  match cl.twinQ with
  | [] => false
  | e :: _ => match shadowCmd s p e with
    | none => false
    | some k => queueOf k.op == q && decide (7 ≤ cl.twinTurns.getD q 0)

/-! ### Issue -/

/-- A command of opcode op at the head of its queue that may issue now, with the rank it belongs to; otherwise the state
stays as it is. A cluster at the cheap point it is being shelved at issues nothing more (R293). An issue slot that is the TWIN queue's
is not the command's (R233), and one that is shadowed waits while the shadow's TWIN queue holds its 64 commands (R206). -/
def withCmd (s : State) (c op : Nat) (f : Cx → QCmd → State) : State :=
  match cxOf s c with
  | none => s
  | some x =>
    if x.cl.finished || x.cl.atCheap.isSome then s
    else
      match (x.cl.queues.getD (queueOf op) []).head? with
      | none => s
      | some k =>
        if k.cmd.op == op && waitOk x.cl k && !twinSlot s x.p x.cl (queueOf op) &&
            !(shadowed x k && decide (64 ≤ (clusterOf s (shadowOf x)).twinQ.length)) then f x k else s

/-- Whether a KV_STAGE writes where an unwritten page of its layer still stands (R129). -/
def kvWaits (x : Cx) (k : QCmd) : Bool := x.part.handed.any fun r => r.layer == some (k.cmd.aux % 65536)

/-- A cluster row: no such cluster is a fault, and nothing runs in UNCONTAINED. -/
def clusterRow (s : State) (c : Nat) (t : State) : Out := inRange c 192 (guarded s t)

/-! ### Completing a command -/

/-- The head command retired on a cluster that its effect has left as `cl`, with LAYER_END, and its output's shadow where the command
has one. -/
def completeOut (s : State) (c : Nat) (x : Cx) (k : QCmd) (cl : Cluster) (out : Bytes) (inputs : List (Nat × Nat)) : State :=
  let q := queueOf k.cmd.op
  let cl := if cl.twinQ.isEmpty then cl else { cl with twinTurns := modAt cl.twinTurns q (· + 1) }
  layerEnd (twinPut (putCluster s (retireHead s.boot.dtc q cl k)) x k out inputs) c x k

/-- The head command retired on a cluster that its effect has left as `cl`: a command that gives no output to shadow. -/
def complete (s : State) (c : Nat) (x : Cx) (k : QCmd) (cl : Cluster) : State := completeOut s c x k cl [] []

/-- Corrected words of Cluster Store counted (R208), and corrected words of HBM counted, their frames moved to the front of the scrub
order (R254). -/
def noteEcc (s : State) (p : Nat) (e : Ecc) : State :=
  let s := updPart s p fun x => { x with csCorrected := satAdd 64 x.csCorrected e.cs }
  { s with tele := { s.tele with
      hbmCorrected := satAdd 64 s.tele.hbmCorrected (sumNat (e.hbm.map (·.2)))
      scrubFront := ((e.hbm.filter fun f => decide (0 < f.2)).map (·.1) ++ s.tele.scrubFront).eraseDups } }

/-! ### Operands (R205, Table CLU-9; log 15) -/

/-- Whether n bytes of an operand come from a port's delivered bytes: it holds that many (log 15). -/
def fromPort (cl : Cluster) (port n : Nat) : Bool :=
  match cl.ports.find? fun e => e.1 == port with
  | some e => decide (n ≤ e.2.length ∧ 0 < n)
  | none => false

/-- n bytes of an operand: from a port's delivered bytes when it holds that many, else from the store at a 512-byte unit. -/
def operandBytes (cl : Cluster) (port unit n : Nat) : Bytes × Cluster :=
  if fromPort cl port n then
    let bs := ((cl.ports.find? fun e => e.1 == port).map (·.2)).getD []
    (bs.take n, { cl with ports := (cl.ports.filter fun f => f.1 != port) ++ (if n = bs.length then [] else [(port, bs.drop n)]) })
  else (csRead cl.cs (512 * unit) n, cl)

/-- The bytes of the store an operand is read from. -/
def operandRange (cl : Cluster) (port unit n : Nat) : List (Nat × Nat) := if fromPort cl port n then [] else [(512 * unit, n)]

/-- A command whose reads and writes stay in the 4 MiB of its Cluster Store runs; any other is refused, which is doubt (R236, R241).
It waits while a byte it would write is an input that a shadow has still to read (R233). -/
def withStore (s : State) (c : Nat) (x : Cx) (reads writes : List (Nat × Nat)) (t : State) : State :=
  if (reads ++ writes).any fun r => decide (4194304 < r.1 + r.2) then doubt s 0x08 x.p c 0
  else if writes.any fun r => inputHeld x.att x.rank r.1 r.2 then s
  else t

/-- Data and scale granules of a run of n data granules of a format, in bytes. -/
def runBytes (f : Fmt) (n : Nat) : Nat := 512 * n + 64 * scaleGranules f n

/-- A run of n granules as rows of values with their block scales. -/
def runRows (f : Fmt) (bs : Bytes) (n : Nat) : List (List (FVal × Option Nat)) :=
  (List.range (tileRows f)).map fun r => runRow f (bs.take (512 * n)) (bs.drop (512 * n)) n r

/-- Bytes written to a store at a 512-byte unit. -/
def csPut (cl : Cluster) (unit : Nat) (bs : Bytes) : Cluster := { cl with cs := csWrite cl.cs (512 * unit) bs }

/-- Rows marked SATURATED for the requests they belong to (R44). -/
def markSat (s : State) (p : Nat) (rows : List Nat) : State :=
  updAtt s p fun a =>
    let ix := indexRows 0 a.plan.rows
    let hs := rows.filterMap fun i => (ix.find? fun e => decide (e.1 ≤ i ∧ i < e.1 + e.2.n)).map fun e => (e.2.h, i)
    { a with satRows := (a.satRows ++ hs).eraseDups }

/-! ### EAR sets (R36, R37, R42) -/

/-- The EAR set open at a destination. -/
def earAt (cl : Cluster) (d : Nat) : Option Ear := cl.ears.find? fun e => e.d == d

/-- An EAR set kept under its destination. -/
def putEar (cl : Cluster) (e : Ear) : Cluster := { cl with ears := (cl.ears.filter fun f => f.d != e.d) ++ [e] }

/-- The EAR set at a destination closed. -/
def dropEar (cl : Cluster) (d : Nat) : Cluster := { cl with ears := cl.ears.filter fun f => f.d != d }

/-- The EAR set at a destination, or a clear one of a tensor with rows and columns. A set that reductions opened before any
product takes its shape here. -/
def openEar (cl : Cluster) (d tensor rows cols : Nat) : Ear :=
  match earAt cl d with
  | some e =>
    if e.rows = 0 then
      { e with tensor := tensor, rows := rows, cols := cols, els := e.els ++ List.replicate (rows * cols - e.els.length) EarEl.clear }
    else e
  | none => { d := d, tensor := tensor, rows := rows, cols := cols, els := List.replicate (rows * cols) EarEl.clear, parts := []
              scaleFrom := [], scaleSent := [], planRows := [] }

/-- Whether a set's images may be formed: its scales are not exchanged, or every other member of the block has been heard (R42, R320). -/
def scalesHeard (size own : Nat) (e : Ear) : Bool :=
  (e.scaleFrom.isEmpty && e.scaleSent.isEmpty) || (List.range size).all fun g => g == own || e.scaleFrom.contains g

/-- The fixed anchor of a declaration; none for SCALE-DERIVED (R41, R42). -/
def anchorOf (a : Anchor) : Option Int := if a.mode = 0 then some a.value else none

/-- Xa + Xb of a base product (R42 step 1). -/
def prodScale (u v : FVal × Option Nat) : Int :=
  let x := fun (o : Option Nat) => match o with | some b => (b : Int) - 127 | none => 0
  x u.2 + x v.2

/-- One base product into an EAR element; a SCALE-DERIVED element notes its scales, 0xFF giving NaN (R37, R42). -/
def baseProduct (a : Anchor) (e : EarEl) (u v : FVal × Option Nat) : EarEl :=
  let e := earProduct (anchorOf a) e u.1 v.1
  if a.mode = 0 then e
  else if u.2 == some 255 || v.2 == some 255 then { e with ind := setBit e.ind 2 }
  else { e with scale := some (match e.scale with | some m => max m (prodScale u v) | none => prodScale u v) }

/-- One row of A against one row of B added to an element. -/
def dotInto (a : Anchor) (e : EarEl) (us vs : List (FVal × Option Nat)) : EarEl :=
  (us.zip vs).foldl (fun acc p => baseProduct a acc p.1 p.2) e

/-- The anchor an element's result is rounded under. -/
def elAnchor (a : Anchor) (e : EarEl) : Int :=
  if a.mode = 0 then a.value else scaleAnchor (e.scale.getD 0) a.value

/-- An element with its kept products in it, under its anchor. -/
def elSettled (a : Anchor) (e : EarEl) : EarEl := if a.mode = 0 then e else earSettle (elAnchor a e) e

/-- FP32 of an EAR state, and whether it saturated (R39, R50 step 1). -/
def elF32 (a : Anchor) (e : EarEl) : W32 × Bool :=
  let r := earResult .fp32 (elAnchor a e) (elSettled a e)
  (BitVec.ofNat 32 r.1, r.2)

/-- The FP32 partials other members sent for an element, by member (R50). -/
def partsFor (ear : Ear) (i : Nat) : List (Nat × W32) :=
  ear.parts.filterMap fun t => if t.2.1 ≤ i then (t.2.2[i - t.2.1]?).map fun v => (t.1, v) else none

/-- r of R50: partials added in ascending group index; an addition past the FP32 maximum saturates, and says so. -/
def addParts (vs : List W32) : W32 × Bool :=
  match vs with
  | [] => (0, false)
  | v :: rest => rest.foldl (fun acc w =>
      let r := vuAdd acc.1 w
      match f32 r, f32 acc.1, f32 w with
      | .inf s, .fin _ _ _, .fin _ _ _ => (BitVec.ofNat 32 (maxEnc .fp32 s), true)
      | _, _, _ => (r, acc.2)) (v, false)

/-- An element's result in a format, with other members' FP32 partials of it where there are any, and whether it saturated (R39, R50). -/
def elOut (a : Anchor) (f : Fmt) (own : Nat) (e : EarEl) (ps : List (Nat × W32)) : Nat × Bool :=
  if ps.isEmpty then earResult f (elAnchor a e) (elSettled a e)
  else
    let mine := elF32 a e
    let r := addParts ((sortBy (·.1) ((own, mine.1) :: ps)).map (·.2))
    let o := if f == .fp32 then (r.1.toNat, false) else convert f r.1
    (o.1, o.2 || mine.2 || r.2)

/-- The result of element i of an EAR set in its output format, and whether it saturated (R39, R50). -/
def earOut (a : Anchor) (own : Nat) (ear : Ear) (i : Nat) : Nat × Bool :=
  elOut a ((fmtOfCode a.outFmt).getD .fp32) own (ear.els.getD i EarEl.clear) (partsFor ear i)

/-- The bytes of a finished EAR set in tile layout, and the rows that saturated (R39, R250). -/
def earBytes (a : Anchor) (own : Nat) (ear : Ear) : Bytes × List Nat :=
  let f := (fmtOfCode a.outFmt).getD .fp32
  let vs := (List.range (ear.rows * ear.cols)).map fun i => earOut a own ear i
  (packTensor f ear.rows ear.cols fun r c => (vs.getD (r * ear.cols + c) (0, false)).1,
   (List.range ear.rows).filter fun r => (List.range ear.cols).any fun c => (vs.getD (r * ear.cols + c) (0, false)).2)

/-- What a command that leaves its EAR set open gives as output bytes: the exact partials of its elements (log 15). -/
def earPartials (ear : Ear) : Bytes := ear.els.flatMap fun e => leBytes 12 (partialEnc 96 e)

/-- Bytes of a set's rounded result. -/
def earLen (a : Anchor) (ear : Ear) : Nat := 512 * tensorGranules ((fmtOfCode a.outFmt).getD .fp32) ear.rows ear.cols

/-- A products command's EAR set kept open, or, with FINAL, rounded and written at its destination (R39). FINAL waits until every
other member's scales have been heard where they are exchanged (R320). -/
def finishEar (s : State) (c : Nat) (x : Cx) (k : QCmd) (cl : Cluster) (a : Anchor) (ear : Ear) (rows : List Nat)
    (reads : List (Nat × Nat)) : State :=
  let ear := { ear with planRows := (ear.planRows ++ rows).eraseDups }
  if bit k.cmd.flags 1 then
    let size := x.part.items.groupSize
    let own := ownIndex s size
    if !scalesHeard size own ear then s
    else
      withStore s c x reads [(512 * ear.d, earLen a ear)] (
        let r := earBytes a own ear
        let s := if r.2.isEmpty then s else markSat s x.p (r.2.filterMap fun i => rows[i]?)
        completeOut s c x k (csPut (dropEar cl ear.d) ear.d r.1) r.1 reads)
  else withStore s c x reads [] (completeOut s c x k (putEar cl ear) (earPartials ear) reads)

/-- The anchor declaration of a tensor, with XP96 in place of XP64 where it has been promoted (R40, R48). -/
def anchorFor (m : Model) (tensor : Nat) : Option Anchor :=
  (m.prog.anchors.find? fun a => a.tensor == tensor).map fun a =>
    if m.xp96.contains tensor then { a with xp := 1 } else a

/-! ### The start of an invocation (R226, R218, R224) -/

/-- The commands of a rank's stream with their position, route phase and layer. -/
def streamOf (cmds : List Cmd) : List QCmd :=
  let ph := streamPhases none cmds
  let ly := streamLayers 0 cmds
  (cmds.zipIdx).map fun e =>
    { cmd := e.1, idx := e.2, phase := (ph.getD e.2 none).getD 0, layer := ly.getD e.2 0, sent := 0, issued := false, probed := false }

/-- The escape route of a command's outbound channel, in the phase the command belongs to (R218, R224). -/
def escRoute (l : Layout) (rank : Nat) (k : QCmd) : Option Route := routeAt l.clusters l.esc k.phase rank (k.cmd.aux % 16)

/-- The stream of a rank in escape mode: its SENDs of each layer in ascending ESC_RANK (R224). -/
def escapeStream (l : Layout) (rank : Nat) (cmds : List Cmd) : List QCmd :=
  let qs := streamOf cmds
  let esc := fun (k : QCmd) => match escRoute l rank k with | some r => r.esc | none => 0
  qs.map fun k =>
    if k.cmd.op != 5 then k
    else
      let group := qs.filter fun j => j.cmd.op == 5 && j.layer == k.layer
      let n := (group.filter fun j => decide (j.idx < k.idx)).length
      (sortBy esc group).getD n k

/-- The stream a rank runs. -/
def rankStream (l : Layout) (escape : Bool) (rank : Nat) : List QCmd :=
  let cmds := l.cmds.getD rank []
  if escape then escapeStream l rank cmds else streamOf cmds

/-- Whether a command names a semaphore as a counter, or as a lock (Table CLU-12). -/
def semUse (lock : Bool) (id : Nat) (c : Cmd) : Bool :=
  (if lock then c.op == 9 || c.op == 10 else c.op == 7 || c.op == 8) && c.aux % 256 == id

/-- The semaphores of a layout armed as counters: its first SEMAPHORES, but for those used only as locks. The owner is the first rank
that signals it; one that no rank signals is owned by rank 0 (R226; log 58). -/
def armSems (l : Layout) (serial no member inv : Nat) : List Sem :=
  (List.range l.sems).filterMap fun id =>
    let uses := fun lock => l.cmds.any fun st => st.any (semUse lock id)
    if uses true && !uses false then none
    else
      let owner := ((l.cmds.zipIdx).find? fun e => e.1.any fun c => c.op == 7 && c.aux % 256 == id).map (·.2)
      some { id := id, st := .armed, value := 0, owner := ownerTag serial no member inv (owner.getD 0), waiters := [] }

/-- The number within its step of the invocation that has a list of model slots left (R112, Table CLU-13). -/
def invNumber (a : Attempt) (left : List Nat) : Nat := (invsOf a.plan.rows).length - left.length

/-- Every cluster of an attempt given the streams of the invocations left, the first of them now. The counters of its layout are armed
for the invocation, since an owner tag names one (Table CLU-13; log 58); locks stay as they are (R112, R207, R226). -/
def startInvocation (s : State) (p : Nat) (left : List Nat) : State :=
  let x := partOf s p
  match x.attempt, left.head? with
  | some a, some slot =>
    match modelAt x slot with
    | none => s
    | some m =>
      match layoutIn x.items m with
      | none => s
      | some l =>
        let armed := armSems l x.serial a.no (ownIndex s x.items.groupSize) (invNumber a left)
        let s := updPart s p fun y =>
          { y with sems := armed.foldl (fun acc m => if acc.any (·.id == m.id) then acc else insertBy (·.id) m acc)
                             (y.sems.filter fun m => m.st != .armed) }
        (a.clusters.zipIdx).foldl (fun t e =>
          updCluster t e.1 fun cl =>
            let st := rankStream l a.escape e.2
            refill st.length { cl with invs := left, tags := [], queues := List.replicate 4 [], todo := st, routes := [], phase := 0
                                       unret := cl.unret.map fun u => { u with old := true }
                                       ears := [], halves := [[], []], ports := [], layers := 0, lastRetire := t.boot.dtc
                                       finished := false }) s
  | _, _ => s

end Sys2Proof.Machine
end

