-- ==== Sys2Proof/Machine/Move.lean ====
section
/-! DEFINITION. The meanings of LOAD, SEND, BIND, ROUTE_LOAD, CHANNEL_DELIVERY, PROBE_LAUNCH, PROBE and NO_RETIRE
(08 §5, §6; 09 R262, R263; 11 R319, R320, R329). -/

namespace Sys2Proof.Machine

/-! ### LOAD -/

/-- Whether a tensor's layer is streamed and not sealed in the ring (R263). -/
def weightStall (m : Model) (t : Tensor) : Bool :=
  m.stream && t.layer != 0xFFFF && decide (m.resident ≤ t.layer) && !m.ring.contains t.layer

/-- The frames of a slot's model, ascending: the resident part of its image, its stream ring, its program (log 23). -/
def modelFrames (s : State) (p slot : Nat) : List Nat := ((framesOf s p).filter fun f => f.owner == .model slot).map (·.no)

/-- Frames of a model's image that stay resident (R260). -/
def residentFrames (m : Model) : Nat :=
  weightsFixed m.tensors + sumNat ((List.range (if m.stream then m.resident else imageLayers m)).map (layerFrames m.tensors))

/-- Frames of one half of a model's stream ring (R262). -/
def ringHalf (m : Model) : Nat := ((List.range (imageLayers m)).map (layerFrames m.tensors)).foldl max 0

/-- First image frame of a layer. -/
def layerStart (ts : List Tensor) (l : Nat) : Nat := match ts.find? fun t => t.layer == l with | some t => t.frame | none => 0

/-- The HBM frame that holds a granule of a tensor of a slot's model: in the resident part, or in the half of the ring that
holds its layer. -/
def tensorFrame (s : State) (p slot : Nat) (t : Tensor) (gran : Nat) : Nat :=
  let fs := modelFrames s p slot
  match modelAt (partOf s p) slot with
  | none => 0
  | some m =>
    let at_ := t.frame + gran / 128
    if t.layer != 0xFFFF && m.ring.contains t.layer then
      fs.getD (residentFrames m + m.ring.idxOf t.layer * ringHalf m + (at_ - layerStart m.tensors t.layer)) 0
    else fs.getD at_ 0

/-- LOADs of a layer's tensors that an attempt's clusters have still to complete (R262). -/
def loadsLeft (s : State) (a : Attempt) (m : Model) (layer : Nat) : Bool :=
  let isL := fun (k : QCmd) => k.cmd.op == 4 && (m.tensors.any fun t => t.id == k.cmd.aux && t.layer == layer)
  a.clusters.any fun c =>
    let cl := clusterOf s c
    cl.todo.any isL || (cl.queues.getD 3 []).any isL

/-- The frames of a half of a model's stream ring. -/
def halfFrames (s : State) (p slot : Nat) (m : Model) (half : Nat) : List Nat :=
  ((modelFrames s p slot).drop (residentFrames m + half * ringHalf m)).take (ringHalf m)

/-- A half of a stream ring released: its frames are open again, and the Sinter runs that will fill them ask for their permits
(R243, R245, R262). -/
def freeHalf (s : State) (p slot : Nat) (m : Model) (half : Nat) : State :=
  let fs := halfFrames s p slot m half
  let s := updModel s p slot fun y => { y with ring := y.ring.set half 0xFFFF }
  fs.foldl (fun t n => askSinter (updFrame t n fun f => { f with sealed := false, written := 0, digest := [] }) n) s

/-- A half of the stream ring released once every LOAD of its layer has completed (R262). -/
def releaseHalf (s : State) (x : Cx) (t : Tensor) : State :=
  match (partOf s x.p).attempt, modelAt (partOf s x.p) x.slot with
  | some a, some m =>
    if m.ring.contains t.layer && !loadsLeft s a m t.layer then
      freeHalf s x.p x.slot m (m.ring.idxOf t.layer)
    else s
  | _, _ => s

/-- Whether a partition has a LOAD that may start: at the head of a queue of one of its clusters, its wait tag raised, and its HBM read
regulator above 0 (R285, R287). -/
def hbmWants (s : State) (p : Nat) : Bool :=
  mayStart (partOf s p) 0 && s.clusters.any fun cl => cl.holder.any (fun h => h.1 == p) &&
    (match (cl.queues.getD 3 []).head? with | some k => k.cmd.op == 4 && waitOk cl k | none => false)

/-- Whether the queue for HBM reads serves a partition next (R285; log 74). -/
def hbmTurn (s : State) (p : Nat) : Bool :=
  match nextServed s.served.hbm fun x => x == p || hbmWants s x with
  | some x => x == p
  | none => false

/-- LOAD: LEN granules of a tensor from granule A on into the store at D. It waits for a streamed layer (R263), the HBM read
regulator (R287), the turn of its partition (R285) and an HBM_TRAIN permit (R411). A tensor the model does not have, or granules past the tensor's frames, are outside
what the cluster may read, which is doubt (R241; log 61). -/
def execLoad (r : Reader) (s : State) : Out :=
  clusterRow s r.c <| withCmd s r.c 4 fun x k =>
    match x.model.tensors.find? fun t => t.id == k.cmd.aux with
    | none => doubt s 0x08 x.p r.c 0
    | some t =>
      if 128 * t.frames < k.cmd.a + k.cmd.len then doubt s 0x08 x.p r.c 0
      else if weightStall x.model t || !mayStart x.part 0 || !hbmTurn s x.p then s
      else
        let h := stackOf s (tensorFrame s x.p x.slot t k.cmd.a)
        if !holds s.gov (384 + h) .hbmTrain then askPermit s (384 + h) .hbmTrain
        else
          withStore s r.c x [] [(512 * k.cmd.d, 512 * k.cmd.len)] (
            let s := { s with gov := govDrop s.gov (384 + h) .hbmTrain, served := { s.served with hbm := some x.p } }
            let s := noteEcc (charge s x.p 0 (512 * k.cmd.len)) x.p r.ecc
            let bs := slice x.model.image (65536 * t.frame + 512 * k.cmd.a) (512 * k.cmd.len)
            releaseHalf (complete s r.c x k (csPut x.cl k.cmd.d bs)) x t)

/-! ### Channels (R217, R219) -/

/-- Places a message takes in an inbound channel. -/
def msgPlaces (m : ChanMsg) : Nat := max 1 (ceilDiv m.body.length 64)

/-- Inbound channel ch of a cluster. -/
def chanOf (cl : Cluster) (ch : Nat) : Chan := ((cl.chans.find? fun e => e.1 == ch).map (·.2)).getD { msgs := [], binds := [] }

/-- An inbound channel changed; an empty one is not listed. -/
def updChan (cl : Cluster) (ch : Nat) (f : Chan → Chan) : Cluster :=
  let v := f (chanOf cl ch)
  let rest := cl.chans.filter fun e => e.1 != ch
  { cl with chans := if v.msgs.isEmpty && v.binds.isEmpty then rest else rest ++ [(ch, v)] }

/-- Places taken in an inbound channel, of 8. -/
def chanUsed (cl : Cluster) (ch : Nat) : Nat := sumNat ((chanOf cl ch).msgs.map msgPlaces)

/-- A message put at the end of an inbound channel. -/
def chanPut (s : State) (c ch : Nat) (m : ChanMsg) : State :=
  updCluster s c fun cl => updChan cl ch fun v => { v with msgs := v.msgs ++ [m] }

/-- The ports of the bond an attempt uses to a member of its block, ascending (R329). -/
def bondOf (s : State) (a : Attempt) (g member : Nat) : List Nat :=
  a.bonds.filter fun n => match (portOf s n).peer with | some id => id.groupIndex == blockMember s g member | none => false

/-- The route of a SEND: the route register of its outbound channel, or in escape mode, where SENDs leave their phases' order, the
escape route of the SEND's own phase (R218, R224). -/
def routeReg (x : Cx) (k : QCmd) : Option Route :=
  if x.att.escape then escRoute x.lay x.rank k else (x.cl.routes.find? fun e => e.1 == k.cmd.aux % 16).map (·.2)

/-- Destination member of a route (Table CLU-10). -/
def routeMember (own g : Nat) (r : Route) : Nat := (own + r.member) % g

/-! ### What a SEND sends (R47, R48, R320; log 16) -/

/-- The kind of a reduction's values for a set to a member: across packages, SCALE_MAX first where the anchor is SCALE-DERIVED, then
FP32 under NL-T1, XP64 where declared, and XP96 otherwise; within the member XP96 (Table LNK-7, R320; log 16). -/
def xpKind (m : Model) (a : Anchor) (ear : Ear) (own dest : Nat) : Nat :=
  if dest == own then 1
  else if a.mode = 1 && !ear.scaleSent.contains dest then 4
  else if m.key.level == .nlT1 then 3
  else if a.xp = 2 then 2
  else 1

/-- Bytes of a value of a kind. -/
def xpWidth : Nat → Nat
  | 1 => 12
  | 2 => 8
  | 3 => 4
  | _ => 2

/-- Values a 64-byte message carries. -/
def xpPer (kind : Nat) : Nat := 64 / xpWidth kind

/-- The local M of an element as a SCALE_MAX value (R320). -/
def scaleMax (e : EarEl) : Nat :=
  if bit e.ind 2 && e.scale.isNone then 0x7FFF
  else match e.scale with
    | some m => toBits 16 m
    | none => if e.terms.isEmpty then 0x8000 else 0

/-- One value of a reduction message. -/
def xpValue (kind : Nat) (a : Anchor) (e : EarEl) : Nat :=
  match kind with
  | 1 => partialEnc 96 (elSettled a e)
  | 2 => partialEnc 64 (elSettled a e)
  | 3 => (elF32 a e).1.toNat
  | _ => scaleMax e

/-- Whether a finite partial breaks the XP64 bound (R48). -/
def xpBreaks (a : Anchor) (e : EarEl) : Bool := e.ind == 0 && decide ((2 : Int) ^ 62 ≤ |(elSettled a e).sum|)

/-- Values a message of a SEND carries: 64 bytes' worth of its kind. A message declared for XP64 and promoted to XP96 carries the same 8
values in 96 bytes, the command variant of R48, and takes two places (R48, R320; log 62). -/
def xpCount (m : Model) (tensor kind : Nat) : Nat := if kind = 1 && m.xp96.contains tensor then 8 else xpPer kind

/-- The elements a message number carries. -/
def xpEls (count n : Nat) (ear : Ear) : List EarEl := (ear.els.drop (n * count)).take count

/-- A SEND of an EAR set: the set, its anchor and the kind of its values. -/
def sendSet (s : State) (x : Cx) (k : QCmd) (r : Route) : Option (Ear × Anchor × Nat) :=
  if r.port = 4 then
    let own := ownIndex s x.part.items.groupSize
    match earAt x.cl k.cmd.a with
    | none => none
    | some ear => (anchorFor x.model ear.tensor).map fun a => (ear, a, xpKind x.model a ear own (routeMember own x.part.items.groupSize r))
  else none

/-- Message number n of a SEND with its kind and element base: exact partials of the EAR set at A for port RFU, else 64 bytes of
the store. -/
def sendBody (s : State) (x : Cx) (k : QCmd) (r : Route) (n : Nat) : Nat × Nat × Bytes :=
  if r.port = 4 then
    match sendSet s x k r with
    | none => (1, 0, [])
    | some (ear, a, kind) =>
      let m := xpCount x.model ear.tensor kind
      (kind, n * m, (xpEls m n ear).flatMap fun e => leBytes (xpWidth kind) (xpValue kind a e))
  else (0, if r.port = 5 then n / 8 else n, csRead x.cl.cs (512 * k.cmd.a + 64 * n) 64)

/-- The tensor whose XP64 bound message n of a SEND would break, if it would (R48). -/
def sendBreaks (s : State) (x : Cx) (k : QCmd) (r : Route) (n : Nat) : Option Nat :=
  match sendSet s x k r with
  | some (ear, a, 2) => if (xpEls 8 n ear).any (xpBreaks a) then some ear.tensor else none
  | _ => none

/-- Whether a SEND of partials waits for other members' scales: no image is formed before they are heard (R42, R320). -/
def sendWaits (s : State) (x : Cx) (k : QCmd) (r : Route) : Bool :=
  match sendSet s x k r with
  | some (ear, _, kind) =>
    let size := x.part.items.groupSize
    kind != 4 && !scalesHeard size (ownIndex s size) ear
  | none => false

/-- Whether every earlier SEND of this cluster and layer with a lower ESC_RANK has had its messages consumed (R224). -/
def lowerConsumed (s : State) (x : Cx) (k : QCmd) (r : Route) : Bool :=
  let own := ownIndex s x.part.items.groupSize
  x.att.clusters.all (fun c => (clusterOf s c).chans.all fun e => e.2.msgs.all fun m =>
    !(m.src.1 == own && m.src.2.1 == x.rank && m.layer == k.layer && decide (m.esc < r.esc))) &&
  x.cl.unret.all fun u => !(u.layer == k.layer && decide (u.esc < r.esc))

/-- Places of a remote channel that a cluster has taken since its ROUTE_LOAD (R319). -/
def placesOut (cl : Cluster) (ch : Nat) : Nat := sumNat ((cl.unret.filter fun u => u.ch == ch && !u.old).map (·.n))

/-- Whether a message of a SEND has its free places now (R219, R319), and may start under the link regulator (R287). -/
def placeFree (s : State) (x : Cx) (k : QCmd) (r : Route) : Bool :=
  let g := x.part.items.groupSize
  let own := ownIndex s g
  let need := max 1 (ceilDiv (sendBody s x k r k.sent).2.2.length 64)
  if routeMember own g r == own then
    decide (chanUsed (clusterOf s (x.att.clusters.getD r.dest 0)) r.ch + need ≤ 8)
  else decide (placesOut x.cl (k.cmd.aux % 16) + need ≤ 8) && mayStart (partOf s x.p) 2 &&
    !(bondOf s x.att g (routeMember own g r)).isEmpty

/-- Message n of a SEND placed: in the local channel, or on the wire (R319, R320, R329). -/
def placeMsg (s : State) (c : Nat) (x : Cx) (k : QCmd) (r : Route) (ch n : Nat) : State :=
  let g := x.part.items.groupSize
  let own := ownIndex s g
  let d := routeMember own g r
  let b := sendBody s x k r n
  if d == own then
    chanPut s (x.att.clusters.getD r.dest 0) r.ch
      { port := r.port, base := b.2.1, body := b.2.2, xp := b.1, esc := r.esc, layer := k.layer, src := (own, x.rank, ch) }
  else
    let ps := bondOf s x.att g d
    let port := ps.getD ((16 * x.rank + ch) % ps.length) 0
    let tag := ownerTag x.part.serial x.att.no own (invNumber x.att x.cl.invs) x.rank
    let ty := if r.port = 4 then 2 else 1
    let kind := if r.port = 4 then b.1 else r.port
    let u : Unret := { ch := ch, layer := k.layer, esc := r.esc, n := max 1 (ceilDiv b.2.2.length 64), old := false }
    let s := updCluster s c fun cl => { cl with unret := cl.unret ++ [u] }
    let s := updAtt (charge s x.p 2 b.2.2.length) x.p fun a => { a with used := (a.used ++ [port]).eraseDups }
    portSend s port (if ty = 2 then 2 else 1) (linkHeader ty kind b.2.2.length x.p r.ch r.dest tag b.2.1 ++ b.2.2)

/-- What a SEND of an EAR set leaves in it once every message is accepted: a member told of the scales, or, under NL-T1, the rows whose
FP32 partial saturated marked (R42, R44, R50; log 63). -/
def sendDone (s : State) (x : Cx) (k : QCmd) (r : Route) : State × Cluster :=
  let own := ownIndex s x.part.items.groupSize
  match sendSet s x k r with
  | some (ear, a, kind) =>
    if kind = 4 then
      (s, putEar x.cl { ear with scaleSent := (ear.scaleSent ++ [routeMember own x.part.items.groupSize r]).eraseDups })
    else if kind = 3 then
      let sat := (List.range ear.rows).filter fun i =>
        (List.range ear.cols).any fun j => (elF32 a (ear.els.getD (i * ear.cols + j) EarEl.clear)).2
      ((if sat.isEmpty then s else markSat s x.p (sat.filterMap fun i => ear.planRows[i]?)), x.cl)
    else (s, x.cl)
  | none => (s, x.cl)

/-- The step killed at a partial that breaks the XP64 bound; every member uses XP96 for the tensor from the re-run on, which a notice
tells it ahead of the ABORT (R48, R322; log 51). -/
def xpKill (s : State) (x : Cx) (tensor : Nat) : State :=
  let s := updPart s x.p fun y => { y with xpReruns := satAdd 64 y.xpReruns 1 }
  let key := keyBody x.model.key
  let s := promote s x.p tensor key
  killStart (if spans s x.p then tell s x.p x.part.items.groupSize .tensor tensor key else s) x.p 2 .same true

/-- Messages of the SEND at the head of a cluster's MOVE queue placed while places are free; the fuel is their number. The
step is killed at a partial that breaks the XP64 bound (R48). -/
def sendLoop (c : Nat) : Nat → State → State
  | 0, s => s
  | f + 1, s =>
    match cxOf s c with
    | none => s
    | some x =>
      match (x.cl.queues.getD 3 []).head? with
      | none => s
      | some k =>
        match routeReg x k with
        | none => s
        | some r =>
          let blocked := putCluster s (issueOnly 3 x.cl k fun j => j)
          if k.cmd.len ≤ k.sent then let d := sendDone s x k r; complete d.1 c x k d.2
          else if sendWaits s x k r then blocked
          else match sendBreaks s x k r k.sent with
            | some t => xpKill s x t
            | none =>
              if !placeFree s x k r || (x.att.escape && !lowerConsumed s x k r) then blocked
              else
                let s := placeMsg s c x k r (k.cmd.aux % 16) k.sent
                sendLoop c f (updCluster s c fun cl => issueOnly 3 cl k fun j => { j with sent := k.sent + 1, probed := false })

/-- SEND: messages placed on its outbound channel as places are free; it retires when every one is accepted (R207, R219). -/
def execSend (c : Nat) (s : State) : Out :=
  clusterRow s c <| withCmd s c 5 fun x k =>
    match routeReg x k with
    | some r =>
      let t := sendLoop c (k.cmd.len + 1) s
      if r.port = 4 then t else withStore s c x [(512 * k.cmd.a, 64 * k.cmd.len)] [] t
    | none => s

/-! ### BIND and delivery (R220) -/

/-- BIND: the next LEN messages of a channel land in a port; its signal tag rises when they have landed (R207, R220). -/
def execBind (c : Nat) (s : State) : Out :=
  clusterRow s c <| withCmd s c 6 fun x k =>
    let ch := k.cmd.aux % 16
    let quiet := { k with cmd := { k.cmd with signal := 0xFFFF } }
    let cl :=
      if k.cmd.len = 0 then raiseTag x.cl k.cmd.signal 1
      else updChan x.cl ch fun v =>
        { v with binds := v.binds ++ [{ port := k.cmd.aux / 16 % 16, d := k.cmd.d, left := k.cmd.len, signal := k.cmd.signal, done := 0 }] }
    complete s c x quiet cl

/-- One value of a reduction message into an element (R49, R50, R320). -/
def xpInto (kind v : Nat) (e : EarEl) : EarEl :=
  match kind with
  | 1 => earJoin e (partialDec 96 v)
  | 2 => earJoin e (partialDec 64 v)
  | 4 =>
    if v = 0x7FFF then { e with ind := setBit e.ind 2 }
    else if v = 0x8000 then e
    else { e with scale := some (match e.scale with | some m => max m (signed 16 v) | none => signed 16 v) }
  | _ => e

/-- A reduction message combined into the EAR set at d (R49, R50, R320). An exact partial is an element's whole state under the anchor
that every contributor has; it joins the sum, while products of this member's own wait for the anchor. -/
def reduceInto (cl : Cluster) (d : Nat) (g : ChanMsg) : Cluster :=
  let w := xpWidth g.xp
  let vs := (List.range (g.body.length / w)).map fun i => rd g.body (w * i) w
  let ear := (earAt cl d).getD
    { d := d, tensor := 0, rows := 0, cols := 0, els := [], parts := [], scaleFrom := [], scaleSent := [], planRows := [] }
  if g.xp = 3 then putEar cl { ear with parts := ear.parts ++ [(g.src.1, g.base, vs.map (BitVec.ofNat 32))] }
  else
    let els := ear.els ++ List.replicate (g.base + vs.length - ear.els.length) EarEl.clear
    let els := (vs.zipIdx).foldl (fun l e => modAt l (g.base + e.2) (xpInto g.xp e.1)) els
    putEar cl { ear with els := els, scaleFrom := if g.xp = 4 then (ear.scaleFrom ++ [g.src.1]).eraseDups else ear.scaleFrom }

/-- A delivered message in its port or region (Table CLU-1). -/
def deliverInto (cl : Cluster) (b : Binding) (g : ChanMsg) : Cluster :=
  if b.port = 4 then reduceInto cl b.d g
  else if b.port = 5 then { cl with cs := csWrite cl.cs (512 * b.d + 64 * b.done) g.body }
  else
    let old := ((cl.ports.find? fun e => e.1 == b.port).map (·.2)).getD []
    { cl with ports := (cl.ports.filter fun e => e.1 != b.port) ++ [(b.port, old ++ g.body)] }

/-- Messages of a BIND's LEN that a channel message is: its places, but one for a promoted XP96 message (R48; log 62). -/
def bindCount (m : Model) (g : ChanMsg) : Nat :=
  if g.xp = 1 && !m.xp96.isEmpty && g.base % 8 == 0 && decide (64 < g.body.length ∧ g.body.length ≤ 96) then 1 else msgPlaces g

/-- Consumed places of a message returned to a sender on another member (R319). -/
def returnPlaces (s : State) (x : Cx) (g : ChanMsg) : State :=
  let size := x.part.items.groupSize
  if g.src.1 == ownIndex s size then s
  else sendMember s size g.src.1 0 (linkHeader 0x01 0x10 0 x.p g.src.2.2 g.src.2.1 (hubTag s x.p x.att) (msgPlaces g))

/-- The first message of an inbound channel delivered where the channel's first binding says; the last of a binding raises
its BIND's signal tag (R207, R217, R220). Without a binding it waits. -/
def deliverHead (s : State) (c ch : Nat) : State :=
  match cxOf s c with
  | none => s
  | some x =>
    let v := chanOf x.cl ch
    match v.msgs, v.binds with
    | g :: gs, b :: bs =>
      let n := bindCount x.model g
      let last := decide (b.left ≤ n)
      let cl := updChan x.cl ch fun _ =>
        { msgs := gs, binds := if last then bs else { b with left := b.left - n, done := b.done + n } :: bs }
      let cl := deliverInto cl b g
      let cl := if last then raiseTag cl b.signal 1 else cl
      let t := returnPlaces (putCluster s { cl with lastRetire := if last then s.boot.dtc else cl.lastRetire }) x g
      if b.port = 5 then withStore s c x [] [(512 * b.d + 64 * b.done, g.body.length)] t else t
    | _, _ => s

/-- CHANNEL_DELIVERY: a message of an inbound channel reaches its port or region (R205, R217, R220). -/
def execChannelDelivery (c ch : Nat) (s : State) : Out := clusterRow s c (deliverHead s c ch)

/-! ### ROUTE_LOAD (R218, R224, R319) -/

/-- The valid route entries of a rank and phase, by outbound channel. -/
def routesFor (l : Layout) (escape : Bool) (phase rank : Nat) : List (Nat × Route) :=
  (List.range 16).filterMap fun ch => (routeAt l.clusters (if escape then l.esc else l.routes) phase rank ch).map fun r => (ch, r)

/-- ROUTE_LOAD: the 16 route registers from the phase's entries; the accounts of remote places start anew at 8 (R218, R319). -/
def execRouteLoad (c : Nat) (s : State) : Out :=
  clusterRow s c <| withCmd s c 11 fun x k =>
    complete s c x k { x.cl with
      routes := routesFor x.lay x.att.escape k.cmd.aux x.rank, phase := k.cmd.aux
      unret := x.cl.unret.map fun u => { u with old := true } }

/-! ### Routing deadlock (R222, R223, R225) -/

/-- The SEND at the head of a cluster's MOVE queue that is blocked, with its outbound channel and route. -/
def blockedSend (s : State) (x : Cx) : Option (QCmd × Nat × Route) :=
  match (x.cl.queues.getD 3 []).head? with
  | none => none
  | some k =>
    if k.cmd.op != 5 || !waitOk x.cl k || decide (k.cmd.len ≤ k.sent) then none
    else
      match routeReg x k with
      | none => none
      | some r =>
        if placeFree s x k r && !(x.att.escape && !lowerConsumed s x k r) && !sendWaits s x k r then none
        else some (k, k.cmd.aux % 16, r)

/-- The name of an origin in probes: member, then cluster. -/
def originName (s : State) (x : Cx) (c : Nat) : Nat := ownIndex s x.part.items.groupSize * 256 + c

/-- A probe sent along a blocked channel: on the die fabric it stands at its destination in the part, to another member it travels on
VC3 (R222, Table LNK-9; log 16). -/
def sendProbe (s : State) (x : Cx) (r : Route) (origin och hops : Nat) : State :=
  let g := x.part.items.groupSize
  let own := ownIndex s g
  let d := routeMember own g r
  if d == own then
    updPart s x.p fun y => { y with probes := y.probes ++ [{ rank := r.dest, ch := r.ch, origin := origin, originCh := och, hops := hops }] }
  else sendMember s g d 3 (linkHeader 0x05 0x07 8 x.p r.ch r.dest (hubTag s x.p x.att) hops ++ leBytes 4 origin ++ leBytes 4 och)

/-- Whether a link message is a given probe for a rank of a partition. -/
def isProbe (p : Nat) (b : Probe) (m : LinkMsg) : Bool :=
  m.kind == 7 && m.part == p && m.destChannel == b.ch && m.destRank == b.rank && m.arg == b.hops &&
    rd m.body 0 4 == b.origin && rd m.body 4 4 == b.originCh

/-- A probe taken where it stands: on the die fabric, or at the head of what has arrived on VC3; none where there is no such probe. -/
def takeProbe (s : State) (p : Nat) (b : Probe) : Option State :=
  if (partOf s p).probes.contains b then some (updPart s p fun x => { x with probes := x.probes.erase b })
  else match (s.ports.zipIdx).find? fun e => (linkHead e.1 5).any (isProbe p b) with
    | some e => some (takeLink s e.2 5 (isProbe p b))
    | none => none

/-- PROBE_LAUNCH: a SEND blocked for 4,096 FCLK cycles on its outbound channel sends a probe (R222). -/
def execProbeLaunch (c ch : Nat) (s : State) : Out :=
  clusterRow s c <|
    match cxOf s c with
    | none => s
    | some x => match blockedSend s x with
      | none => s
      | some (k, y, r) =>
        if y != ch then s
        else
          let s := sendProbe s x r (originName s x c) ch 1
          updCluster s c fun cl => issueOnly 3 cl k fun j => { j with probed := true }

/-- A cycle confirmed: the step killed for a re-run in escape mode, or doubt in escape mode (R223, R225). -/
def deadlock (s : State) (x : Cx) (c : Nat) : State :=
  if x.att.escape then doubt s 0x0A x.p c 0
  else killStart (updPart s x.p fun y => { y with deadlocks := satAdd 64 y.deadlocks 1 }) x.p 1 .escape true

/-- PROBE: a probe that has arrived at a cluster for its inbound channel ch. Back at its origin, with the SEND still blocked on the
same message, it confirms a cycle; it goes on along the blocked SEND that holds up the channel's consumer; otherwise, or
past its hop limit, it is dropped (R222, R223). -/
def execProbe (c ch origin originCh hops : Nat) (s : State) : Out :=
  clusterRow s c <|
    match cxOf s c with
    | none => s
    | some x => match takeProbe s x.p { rank := x.rank, ch := ch, origin := origin, originCh := originCh, hops := hops } with
      | none => s
      | some s =>
        if decide (16 * x.lay.clusters * x.part.items.groupSize < hops) then s
        else match blockedSend s x with
          | none => s
          | some (k, y, r) =>
            if origin == originName s x c then (if y == originCh && k.probed then deadlock s x c else s)
            else if (chanOf x.cl ch).msgs.isEmpty || !(chanOf x.cl ch).binds.isEmpty then s
            else sendProbe s x r origin originCh (hops + 1)

/-- Whether a cluster waits for something that is no fault of it: a permit, streamed weights, the Sinter Engine, a regulator or its
partition's turn (R129, R225, R285, R288, R418). -/
def excused (s : State) (c : Nat) (x : Cx) : Bool :=
  asking s.gov c isArray || asking s.gov (192 + c) (· == .amvu) ||
  (match (x.cl.queues.getD 3 []).head? with
    | some k =>
      if k.cmd.op == 4 then
        match x.model.tensors.find? fun t => t.id == k.cmd.aux with
        | some t => weightStall x.model t || !mayStart x.part 0 || !hbmTurn s x.p ||
            asking s.gov (384 + stackOf s (tensorFrame s x.p x.slot t k.cmd.a)) (· == .hbmTrain)
        | none => false
      else (k.cmd.op == 5 && !mayStart x.part 2) || (k.cmd.op == 13 && kvWaits x k)
    | none => false) ||
  (match (x.cl.queues.getD 1 []).head? with
    | some _ => !mayStart x.part 0
    | none => false)

/-- NO_RETIRE: a cluster that retires nothing for 10,000,000 ticks while its attempt executes is doubt (R225). -/
def execNoRetire (c : Nat) (s : State) : Out :=
  clusterRow s c <|
    match cxOf s c with
    | none => s
    | some x =>
      if x.cl.finished || x.cl.atCheap.isSome || excused s c x || decide (s.boot.dtc < x.cl.lastRetire + 10000000) then s
      else doubt s 0x0B x.p c 0

end Sys2Proof.Machine
end

