-- ==== Sys2Proof/Machine/Phy.lean ====
section
/-! DEFINITION. The physical layer of a Noyldo port: how flits lie in RS(544,514) codewords and superframes, how symbols lie on lane
positions and PAM4 levels, what the decoder counts, and steers at superframe boundaries (11 R302-R306). -/

namespace Sys2Proof.Machine

/-! ### Framing (R303) -/

/-- Message bits of a codeword: 514 symbols of ten bits (R302). -/
def cwBits : Nat := 5140

/-- Flits of a superframe of 512 codewords (R303). -/
def superFlits : Nat := 1285

/-- The codewords, counted since ALIGN, that hold a bit of the flit with number n (R303). -/
def flitCws (n : Nat) : List Nat :=
  let a := 2048 * n / cwBits
  let b := (2048 * n + 2047) / cwBits
  if a = b then [a] else [a, b]

/-! ### Codewords, lanes and levels (R302) -/

/-- A byte's bits, least significant first (R302). -/
def byteBits (b : Byte) : List Bool := (List.range 8).map fun i => bit b.toNat i

/-- The value of bits, least significant first. -/
def bitsVal : List Bool → Nat
  | [] => 0
  | b :: bs => b2n b + 2 * bitsVal bs

/-- The message symbols of flits: ten consecutive bits each (R302). -/
def symbols (fs : List Bytes) : List Nat := (chunks 10 (fs.flatten.flatMap byteBits)).map bitsVal

/-- Multiplication by alpha in GF(2^10), whose polynomial is x^10 + x^3 + 1 (IEEE 802.3 Clause 91; log 76). -/
def gfAlpha (a : Nat) : Nat := if a < 512 then 2 * a else (2 * a - 1024) ^^^ 9

/-- The product in GF(2^10) of a and the low n bits of b. -/
def gfMul (a : Nat) : Nat → Nat → Nat
  | 0, _ => 0
  | n + 1, b => gfAlpha (gfMul a n (b / 2)) ^^^ (if b % 2 = 1 then a else 0)

/-- The n-th power of alpha. -/
def gfPow : Nat → Nat
  | 0 => 1
  | n + 1 => gfAlpha (gfPow n)

/-- A polynomial, highest power first, times x + c. -/
def polyStep (p : List Nat) (c : Nat) : List Nat :=
  List.zipWith (· ^^^ ·) (p ++ [0]) (0 :: p.map fun a => gfMul a 10 c)

/-- The generator polynomial of RS(544,514), highest power first (IEEE 802.3 Clause 91; log 76). -/
def rsGen : List Nat := (List.range 30).foldl (fun p i => polyStep p (gfPow i)) [1]

/-- One message symbol divided into the parity register, highest power first. -/
def rsStep (r : List Nat) (m : Nat) : List Nat :=
  let f := r.headD 0 ^^^ m
  List.zipWith (· ^^^ ·) (r.drop 1 ++ [0]) ((rsGen.drop 1).map fun g => gfMul g 10 f)

/-- A codeword: 514 message symbols, then 30 parity symbols (R302). -/
def codeword (ms : List Nat) : List Nat := ms ++ ms.foldl rsStep (List.replicate 30 0)

/-- The codewords of a superframe's flits (R303). -/
def codewords (fs : List Bytes) : List (List Nat) := (chunks 514 (symbols fs)).map codeword

/-- The symbols of a codeword on lane position l: symbol i is sent on position i mod 4 (R302). -/
def onPosition (l : Nat) (cw : List Nat) : List Nat := ((cw.zipIdx).filter fun e => e.2 % 4 == l).map (·.1)

/-- The PAM4 level of a bit pair, Gray-coded (R302). -/
def grayLevel : Nat → Nat
  | 0 => 0
  | 1 => 1
  | 3 => 2
  | _ => 3

/-- The levels of a symbol's five unit intervals, bits [1:0] first (R302). -/
def symbolLevels (x : Nat) : List Nat := (List.range 5).map fun i => grayLevel (x / 4 ^ i % 4)

/-- The codeword of a HOLD ordered set (R333). -/
def holdCodeword : List Nat := codeword (List.replicate 514 0x2A5)

/-- Whether a port's transmitter sends HOLD ordered sets: in a harmless state, and for 10,000 ticks from a warm reset (R333, R480). -/
def sendsHold (now : Nat) (p : Port) : Bool := p.holding || decide (now < p.holdUntil)

/-- The flits of superframe k of a port's present framing (R303); a HOLD ordered set carries none. -/
def superframe (p : Port) (k : Nat) : List Bytes := ((p.wire.drop p.txStart).drop (superFlits * k)).take superFlits

/-- The position that a port sends on S in superframe k (R305). -/
def onSpare (p : Port) (k : Nat) : Option Nat :=
  match (p.txSteers.filter fun e => decide (e.1 ≤ p.txStart + superFlits * k)).getLast? with
  | some e => e.2
  | none => none

/-- The levels that a port sends in superframe k on physical lane l, 0-3 or S as 4 (R302, R305). -/
def laneLevels (p : Port) (k l : Nat) : List Nat :=
  let pos := if l = 4 then onSpare p k else if onSpare p k = some l then none else some l
  match pos with
  | some l => (codewords (superframe p k)).flatMap fun cw => (onPosition l cw).flatMap symbolLevels
  | none => []

/-! ### What the decoder counts (R304, R305) -/

/-- Lane position l of a port changed. -/
def updLane (p : Port) (l : Nat) (f : Lane → Lane) : Port := { p with lanes := modAt p.lanes l f }

/-- The physical lane that carries a position: S while it stands in for it (R305, R306). -/
def carrier (p : Port) (l : Nat) : Nat := if p.steered = some l ∨ p.recal = some l then 4 else l

/-- Codewords of which a lane's symbols make 2^30, 136 of each: the window of R305. -/
def errWindow : Nat := 7895160

/-- k symbols corrected on a lane in codeword cw (R304, R305). -/
def corrected (cw k : Nat) (x : Lane) : Lane :=
  if k = 0 then x
  else { x with corr := satAdd 32 x.corr k, errs := (x.errs.filter fun e => decide (cw < e.1 + errWindow)) ++ [(cw, k)] }

/-- Whether a lane's symbol error ratio exceeds 2 × 10^-4 over a window of 2^30 symbols that ends with codeword cw (R305). -/
def ratioBad (x : Lane) (cw : Nat) : Bool :=
  decide (2 ^ 30 < 5000 * sumNat ((x.errs.filter fun e => decide (cw < e.1 + errWindow)).map (·.2)))

/-- The codewords of the flit received next that cannot be corrected: those reported, and one found so with the flit before (R304). -/
def lostCws (p : Port) (fec : FecInfo) : List Nat :=
  ((flitCws p.rxCount).zipIdx.filter fun e => fec.lost.contains e.2 || p.lostCw == some e.1).map (·.1)

/-- The decoder's counts for the flit received next: corrected symbols of each lane, and each uncorrectable codeword once on each lane
that carried it (R304; log 19). -/
def countFec (p : Port) (fec : FecInfo) : Port :=
  let cw := (2048 * p.rxCount + 2047) / cwBits
  let fresh := ((lostCws p fec).filter fun c => p.lostCw != some c).length
  let q := (List.range 4).foldl (fun q l =>
    updLane q (carrier p l) fun x => { corrected cw (fec.corr.getD l 0) x with uncorr := satAdd 32 x.uncorr fresh }) p
  { q with lostCw := match (lostCws p fec).getLast? with | some c => some c | none => p.lostCw }

/-! ### Steers (R305, R306) -/

/-- A position steered onto S for good (R305). -/
def steerOn (p : Port) (l : Nat) : Port :=
  { updLane p l (fun x => { x with failed := true, steers := satAdd 32 x.steers 1 }) with steered := some l, spare := false, recal := none }

/-- A steer as it takes effect at the receiver. -/
def steerNow (p : Port) (l : Nat) : SteerAct → Port
  | .replace => steerOn p l
  | .recal => { p with recal := some l }
  | .back => { p with recal := none }

/-- The receiver at the next flit: an agreed steer takes effect where a superframe begins (R303, R305). -/
def atBoundary (p : Port) : Port :=
  if p.rxCount % superFlits != 0 then p
  else match p.due with
    | some (l, a) => steerNow { p with due := none } l a
    | none => p

/-- The flit of `wire` with which a port's next superframe begins. -/
def nextSuper (p : Port) : Nat := p.txStart + ((p.wire.length - p.txStart) / superFlits + 1) * superFlits

/-- A steer that the peer asks for, as this transmitter makes it at its next superframe (R305, R306). -/
def steerTx (p : Port) (l : Nat) (a : SteerAct) : Port :=
  { p with txSteers := p.txSteers ++ [(nextSuper p, if a = .back then none else some l)] }

/-- The code of a steer in a STEER message (log 19). -/
def steerCode : SteerAct → Nat
  | .replace => 0
  | .recal => 1
  | .back => 2

/-- A STEER message: lane, purpose, and whether it agrees (R305; layout log 19). -/
def steerMsg (l : Nat) (a : SteerAct) (agree : Bool) : Bytes :=
  linkHeader 0x05 0x05 0 0xFF 0 0 0 (l + 256 * steerCode a + 65536 * b2n agree)

/-- A steer asked of the peer (R305, R306). -/
def askSteer (s : State) (n l : Nat) (a : SteerAct) : State :=
  portSend { s with ports := modAt s.ports n fun p => { p with asked := some (l, a), due := none } } n 3 (steerMsg l a false)

/-- Whether a port's S is healthy and neither stands in for a failed position nor is about to. -/
def spareFree (p : Port) : Bool :=
  p.spare && p.steered.isNone && !(p.asked.any fun e => e.2 == .replace) && !(p.due.any fun e => e.2 == .replace)

end Sys2Proof.Machine
end

