-- ==== Sys2Proof/Machine/Sems.lean ====
section
/-! DEFINITION. Semaphores: the meanings of SEM_SIGNAL, SEM_WAIT, SEM_ACQUIRE, SEM_RELEASE and SEM_RELAY
(08 R226-R228, 11 R321). -/

namespace Sys2Proof.Machine

/-- The semaphore of a partition that is not plain FREE. -/
def semOf (x : Part) (id : Nat) : Option Sem := x.sems.find? fun m => m.id == id

/-- A semaphore kept under its number. -/
def putSem (s : State) (p : Nat) (m : Sem) : State :=
  updPart s p fun x => { x with sems := insertBy (·.id) m (x.sems.filter fun y => y.id != m.id) }

/-- A semaphore back to plain FREE. -/
def freeSem (s : State) (p id : Nat) : State := updPart s p fun x => { x with sems := x.sems.filter fun y => y.id != id }

/-- The owner tag of a rank that executes (Table CLU-13). -/
def rankTag (s : State) (x : Cx) : Nat :=
  ownerTag x.part.serial x.att.no (ownIndex s x.part.items.groupSize) (invNumber x.att x.cl.invs) x.rank

/-- A relay of one semaphore operation to a member of the partition's block (R321). -/
def relaySem (s : State) (p member kind id rank tag arg : Nat) : State :=
  sendMember s (partOf s p).items.groupSize member 0 (linkHeader 0x03 kind 0 p id rank tag arg)

/-- A COUNTER counted up by n for its owner: at 65,535 it saturates, which is doubt; waiters of other members whose value is
reached are answered (R227, R321). -/
def semAdd (s : State) (p : Nat) (m : Sem) (n : Nat) : State :=
  let v := m.value + n
  let own := ownIndex s (partOf s p).items.groupSize
  let met := fun (w : SemWaiter) => w.member != own && (match w.value with | some k => decide (k ≤ min v 65535) | none => false)
  let s := putSem s p { m with value := min v 65535, waiters := m.waiters.filter fun w => !met w }
  let s := (m.waiters.filter met).foldl (fun t w => relaySem t p w.member 0x03 m.id w.rank w.tag 0) s
  if 65535 < v then doubt s 0x0C p m.id 0 else s

/-- The waiting acquirer with the lowest (MEMBER, RANK) (R227). -/
def nextWaiter (ws : List SemWaiter) : Option SemWaiter := (sortBy (fun w => w.member * 256 + w.rank) ws).head?

/-- A lock given up by its holder: the next acquirer holds it, or it is FREE (R227). -/
def semPass (s : State) (p : Nat) (m : Sem) : State :=
  match nextWaiter m.waiters with
  | none => freeSem s p m.id
  | some w =>
    let s := putSem s p { m with st := .held, owner := w.tag, waiters := m.waiters.filter (· != w) }
    if w.member == ownIndex s (partOf s p).items.groupSize then s else relaySem s p w.member 0x05 m.id w.rank w.tag 0

/-- A waiter added once. -/
def addWaiter (s : State) (p : Nat) (m : Sem) (w : SemWaiter) : State :=
  if m.waiters.contains w then s else putSem s p { m with waiters := m.waiters ++ [w] }

/-- The attempt of an operation on a BROKEN semaphore killed for a re-run (R228). -/
def brokenKill (s : State) (p : Nat) : State := killStart s p 3 .same true

/-- A command that has issued and waits: its wait tag has been taken (R207). -/
def issueWait (s : State) (x : Cx) (k : QCmd) : State := putCluster s (issueOnly (queueOf k.cmd.op) x.cl k fun j => j)

/-- SEM_SIGNAL: the owner adds n to a COUNTER (R227). A signal of anyone but the owner adds nothing. -/
def execSemSignal (c : Nat) (s : State) : Out :=
  clusterRow s c <| withCmd s c 7 fun x k =>
    let id := k.cmd.aux % 256
    match semOf x.part id with
    | some m =>
      if m.st == .broken then brokenKill s x.p
      else
        let t := complete s c x k x.cl
        if m.st == .armed && m.owner == rankTag s x then semAdd t x.p m (k.cmd.aux / 65536) else t
    | none => complete s c x k x.cl

/-- SEM_WAIT: it completes once VALUE is at least v (R227); on a BROKEN semaphore its attempt is killed (R228). -/
def execSemWait (c : Nat) (s : State) : Out :=
  clusterRow s c <| withCmd s c 8 fun x k =>
    let v := k.cmd.aux / 65536
    let own := ownIndex s x.part.items.groupSize
    match semOf x.part (k.cmd.aux % 256) with
    | some m =>
      if m.st == .broken then brokenKill s x.p
      else if m.st == .armed && decide (v ≤ m.value) then
        complete (putSem s x.p { m with waiters := m.waiters.filter fun w => !(w.member == own && w.rank == x.rank) }) c x k x.cl
      else addWaiter (issueWait s x k) x.p m { member := own, rank := x.rank, tag := rankTag s x, value := some v }
    | none => issueWait s x k

/-- SEM_ACQUIRE: a FREE lock becomes HELD by the caller; on a HELD one, its own included, the caller waits until the lock is granted to it
(R227). A lock's home is member 0: from another member the operation is relayed, and its GRANT makes the lock the caller's here (R321). -/
def execSemAcquire (c : Nat) (s : State) : Out :=
  clusterRow s c <| withCmd s c 9 fun x k =>
    let id := k.cmd.aux % 256
    let own := ownIndex s x.part.items.groupSize
    let tag := rankTag s x
    let me : SemWaiter := { member := own, rank := x.rank, tag := tag, value := none }
    match semOf x.part id with
    | some m =>
      if m.st == .broken then brokenKill s x.p
      else if k.issued then (if m.st == .held && m.owner == tag && !m.waiters.contains me then complete s c x k x.cl else s)
      else
        let t := addWaiter (issueWait s x k) x.p m me
        if own = 0 then t else relaySem t x.p 0 0x04 id x.rank tag 0
    | none =>
      if own = 0 then complete (putSem s x.p { id := id, st := .held, value := 0, owner := tag, waiters := [] }) c x k x.cl
      else if k.issued then s
      else relaySem (issueWait s x k) x.p 0 0x04 id x.rank tag 0

/-- SEM_RELEASE: the holder makes the lock FREE, or the lowest waiting acquirer its holder (R227). -/
def execSemRelease (c : Nat) (s : State) : Out :=
  clusterRow s c <| withCmd s c 10 fun x k =>
    let id := k.cmd.aux % 256
    let own := ownIndex s x.part.items.groupSize
    let tag := rankTag s x
    match semOf x.part id with
    | some m =>
      if m.st == .broken then brokenKill s x.p
      else
        let t := complete s c x k x.cl
        if m.st == .held && m.owner == tag then
          (if own = 0 then semPass t x.p m else relaySem (freeSem t x.p id) x.p 0 0x06 id x.rank tag 0)
        else t
    | none => complete s c x k x.cl

/-! ### SEM_RELAY (R321) -/

/-- A relayed operation at its home, or an answer at the requester's member. -/
def semRelayIn (s : State) (m : LinkMsg) : State :=
  let p := m.part
  let id := m.destChannel
  let from_ := tagMember m.tag
  let w : SemWaiter := { member := from_, rank := m.destRank, tag := m.tag, value := if m.kind = 2 then some m.arg else none }
  match m.kind, semOf (partOf s p) id with
  | 1, some z => if z.st == .armed && z.owner == m.tag then semAdd s p z m.arg else s
  | 2, some z =>
    if z.st == .broken then relaySem s p from_ 0x07 id m.destRank m.tag 0
    else if z.st == .armed && decide (m.arg ≤ z.value) then relaySem s p from_ 0x03 id m.destRank m.tag 0
    else addWaiter s p z w
  | 3, _ => putSem s p { id := id, st := .armed, value := 65535, owner := m.tag, waiters := [] }
  | 4, none =>
    relaySem (putSem s p { id := id, st := .held, value := 0, owner := m.tag, waiters := [] }) p from_ 0x05 id m.destRank m.tag 0
  | 4, some z => if z.st == .broken then relaySem s p from_ 0x07 id m.destRank m.tag 0 else addWaiter s p z w
  | 5, z =>
    let ws := match z with | some y => y.waiters.filter fun w => w.rank != m.destRank | none => []
    putSem s p { id := id, st := .held, value := 0, owner := m.tag, waiters := ws }
  | 6, some z => if z.st == .held && z.owner == m.tag then semPass s p z else s
  | 7, some z => putSem s p { z with st := .broken }
  | 7, none => putSem s p { id := id, st := .broken, value := 0, owner := m.tag, waiters := [] }
  | _, _ => s

end Sys2Proof.Machine
end

