-- ==== Sys2Proof/Machine/Stage.lean ====
section
/-! DEFINITION. The meanings of KV_STAGE, SAMPLE, CHEAP_POINT and STEP_END (02 R58-R61, 05 R127, R153, 08 R230, 10 R293). -/

namespace Sys2Proof.Machine

/-- The plan row indexes of an invocation, in plan order, each with its plan row and its offset in it. -/
def invRows (a : Attempt) (slot : Nat) : List (Nat × PlanRow × Nat) :=
  ((indexRows 0 a.plan.rows).filter fun e => e.2.slot == slot).flatMap fun e => (List.range e.2.n).map fun i => (e.1 + i, e.2, i)

/-- Row r of a tensor of k columns stored in tiles from the start of bs, as element encodings (R250, R251). -/
def tileRow (f : Fmt) (bs : Bytes) (k r : Nat) : List Nat :=
  (List.range k).map fun c =>
    let g := r / tileRows f * ceilDiv k (tileCols f) + c / tileCols f
    tileGet f ((bs.drop (512 * g)).take 512) (r % tileRows f) (c % tileCols f)

/-- The rows LEN granules of a tensor of k columns hold. -/
def rowsIn (f : Fmt) (k len : Nat) : Nat := len / ceilDiv k (tileCols f) * tileRows f

/-! ### KV_STAGE -/

/-- Rows already staged of a (slot, layer, head, stream). -/
def stagedCount (a : Attempt) (slot layer head stream : Nat) : Nat :=
  (a.staged.filter fun r => r.slot == slot && r.layer == layer && r.head == head && r.stream == stream).length

/-- The heads whose K or V block of a layer the KV map puts on a rank, ascending (Table CLU-4). -/
def rankHeads (l : Layout) (rank layer stream : Nat) : List Nat :=
  sortBy id ((l.kvMap.filter fun e => e.rank == rank && e.layer == layer && e.stream == stream).map (·.head))

/-- KV_STAGE of a model program: E4M3 rows of the next head with rows to stage (R55, R127). -/
def stageKv (s : State) (c : Nat) (x : Cx) (k : QCmd) : State :=
  let layer := k.cmd.aux % 65536
  let stream := k.cmd.aux / 65536 % 2
  let rows := invRows x.att x.slot
  let w := x.model.prog.headWidth
  match (rankHeads x.lay x.rank layer stream).find? fun h => decide (stagedCount x.att x.slot layer h stream < rows.length) with
  | none => complete s c x k x.cl
  | some h =>
    let at_ := stagedCount x.att x.slot layer h stream
    let n := min (rowsIn .e4m3 w k.cmd.len) (rows.length - at_)
    let bs := csRead x.cl.cs (512 * k.cmd.a) (512 * k.cmd.len)
    let new := ((rows.drop at_).take n).zipIdx.map fun e =>
      { slot := x.slot, layer := layer, head := h, stream := stream, row := e.1.1, body := (tileRow .e4m3 bs w e.2).map (BitVec.ofNat 8) : KvRow }
    withStore s c x [(512 * k.cmd.a, 512 * k.cmd.len)] [] (complete (updAtt s x.p fun a => { a with staged := a.staged ++ new }) c x k x.cl)

/-- KV_STAGE of a condenser program: BF16 state vectors of the next rows (R153, R253). -/
def stageVec (s : State) (c : Nat) (x : Cx) (k : QCmd) : State :=
  let rows := (invRows x.att x.slot).filter fun r => !x.att.condVecs.any fun v => v.1 == r.1
  let w := x.model.prog.modelWidth
  let n := rowsIn .bf16 w k.cmd.len
  let bs := csRead x.cl.cs (512 * k.cmd.a) (512 * k.cmd.len)
  let new := (rows.take n).zipIdx.map fun e => (e.1.1, padTo ((tileRow .bf16 bs w e.2).flatMap (leBytes 2)) 512)
  withStore s c x [(512 * k.cmd.a, 512 * k.cmd.len)] [] (complete (updAtt s x.p fun a => { a with condVecs := a.condVecs ++ new }) c x k x.cl)

/-- KV_STAGE: the rows' K or V of a layer, or a condenser's state vectors, put in the staging area; it waits while a page of the layer
that was handed over is not written (R127, R129, R153; log 16). -/
def execKvStage (c : Nat) (s : State) : Out :=
  clusterRow s c <| withCmd s c 13 fun x k => if kvWaits x k then s else if x.model.prog.kind = 2 then stageVec s c x k else stageKv s c x k

/-! ### SAMPLE -/

/-- The emitting rows of an invocation, in plan order: handle and plan row index of its last row. -/
def emitRows (a : Attempt) (slot : Nat) : List (Nat × Nat) :=
  ((indexRows 0 a.plan.rows).filter fun e => e.2.slot == slot && e.2.emits).map fun e => (e.2.h, e.1 + e.2.n - 1)

/-- What SAMPLE finds for one logit row (R58-R61, R63). -/
def sampleOne (q : Req) (l : List W32) : Sampled :=
  match sampleRow l q.samp q.next with
  | .token y => { h := q.h, token := y, invalid := 0, rowDigest := rowDigest l }
  | .invalid d => { h := q.h, token := 0, invalid := d, rowDigest := rowDigest l }

/-- SAMPLE: the sampler over the logit rows at A, for the emitting rows of the invocation from number `first` on
(R58, R61). -/
def execSample (c first : Nat) (s : State) : Out :=
  clusterRow s c <| withCmd s c 14 fun x k =>
    withAmvu s c (
      let v := x.model.prog.vocab
      let n := rowsIn .fp32 v k.cmd.len
      let bs := csRead x.cl.cs (512 * k.cmd.a) (512 * k.cmd.len)
      let new := ((emitRows x.att x.slot).drop first |>.take n).zipIdx.filterMap fun e =>
        (reqOf s e.1.1).map fun q => sampleOne q ((tileRow .fp32 bs v e.2).map (BitVec.ofNat 32))
      withStore s c x [(512 * k.cmd.a, 512 * k.cmd.len)] [] (complete (updAtt s x.p fun a =>
        { a with sampled := (a.sampled.filter fun z => !new.any fun y => y.h == z.h) ++ new }) c x k x.cl))

/-! ### CHEAP_POINT (R230, R293, R294) -/

/-- Whether every command of a rank's stream before position i has retired. -/
def allBefore (cl : Cluster) (i : Nat) : Bool :=
  cl.queues.all (fun q => q.all fun k => decide (i ≤ k.idx)) && cl.todo.all fun k => decide (i ≤ k.idx)

/-- Whether a port has anything of a partition under way on VC1 or VC2: a message waiting, or a flit whose credit has not come back. -/
def portBusy (p : Nat) (q : Port) : Bool :=
  q.txq.any (fun m => (m.vc == 1 || m.vc == 2) && m.part == p) || [1, 2].any fun v => (vcOf q v).outBy.contains p

/-- Whether the report at a cheap point is CLEAN (R230). -/
def cleanPoint (s : State) (p : Nat) (a : Attempt) : Bool :=
  (partOf s p).sems.all (fun m => !(m.st == .held || (m.st == .armed && !m.waiters.isEmpty))) &&
    a.clusters.all (fun c => (clusterOf s c).chans.all (fun e => e.2.msgs.isEmpty) && (clusterOf s c).unret.isEmpty) &&
    s.ports.all fun q => !portBusy p q

/-- Whether every rank stands at the cheap point its attempt aims at. -/
def atPoint (s : State) (a : Attempt) : Bool :=
  !a.clusters.isEmpty && a.cheap.isSome && a.clusters.all fun c => (clusterOf s c).atCheap == a.cheap

/-- A SHELVE turned into a KILL (R294); after a turn's SHELVE the next attempt is protected (R281). -/
def downgrade (s : State) (p : Nat) : State :=
  let s := if (partOf s p).items.full then updPart s p fun x => { x with downgrades := satAdd 64 x.downgrades 1 } else s
  killStart (updPart s p fun x => { x with protectNext := x.protectNext || s.boot.fwPhase != .quiesce }) p 4 .fresh true

/-- CHEAP_POINT: outside a SHELVE it only reports; at the point a SHELVE aims at, the rank stops there once everything before
it has retired, and when every rank has, a report of NOT_CLEAN turns the SHELVE into a KILL (R230, R293, R294). -/
def execCheapPoint (c : Nat) (s : State) : Out :=
  clusterRow s c <| withCmd s c 12 fun x k =>
    if x.att.phase == .shelving && x.att.cheap == some k.cmd.aux then
      if !allBefore x.cl k.idx then s
      else
        let s := putCluster s { x.cl with atCheap := some k.cmd.aux, lastRetire := s.boot.dtc }
        match (partOf s x.p).attempt with
        | some a => if atPoint s a && !cleanPoint s x.p a then downgrade s x.p else s
        | none => s
    else complete s c x k x.cl

/-! ### STEP_END -/

/-- STEP_END: the rank has finished the invocation once every queue of it is empty. With every rank of the member there, the next
invocation starts; after the last, the rank is done and the member may be ready (R112, R120 item 1, R412). -/
def execStepEnd (c : Nat) (s : State) : Out :=
  clusterRow s c <| withCmd s c 15 fun x k =>
    if !allBefore x.cl k.idx then s
    else
      let s := dropClusterPermits (complete s c x k { x.cl with finished := true }) c
      if !x.att.clusters.all fun d => (clusterOf s d).finished then s
      else match x.cl.invs.drop 1 with
        | [] => memberReady s x.p
        | left => startInvocation s x.p left

end Sys2Proof.Machine
end

