-- ==== Sys2Proof/Machine/Turns.lean ====
section
/-! DEFINITION. Placement, TIME turns, pre-emption by KILL or SHELVE, and resuming a shelved attempt: the meanings of
STEP_PLACE, STEP_SYNC_TURN, TURN_PREEMPT, SHELVE_CHEAP_POINT_CLEAN, SHELVE_DONE, SHELVE_TIMEOUT and SHELVE_RESUME
(10 §4, §7). -/

namespace Sys2Proof.Machine

/-- A partition row: no such partition is a fault, and nothing runs in UNCONTAINED. -/
def partRow (s : State) (p : Nat) (t : State) : Out := inRange p 8 (guarded s t)

/-! ### TIME sets and claims (R277, R278, R280, R282) -/

/-- Whether two partitions are TIME and share a cluster. -/
def overlap (s : State) (p q : Nat) : Bool :=
  let x := partOf s p
  let y := partOf s q
  x.st != .disabled && y.st != .disabled && x.items.time && y.items.time && (clusterSet x.items).any fun c => bit y.items.groups (c / 8)

/-- Partitions reached from some by overlaps; the fuel is the number of partitions. -/
def reach (s : State) : Nat → List Nat → List Nat
  | 0, ps => ps
  | n + 1, ps => reach s n ((List.range 8).filter fun q => ps.contains q || ps.any fun p => overlap s p q)

/-- The TIME set of a partition, itself included (R278). -/
def timeSet (s : State) (p : Nat) : List Nat := reach s 8 [p]

/-- Whether the leader of a group decides turns for a partition's TIME set (R282). -/
def groupTurns (s : State) (p : Nat) : Bool := (partOf s p).items.time && (timeSet s p).any (spans s)

/-- Whether a partition has a claim: an attempt in phase 4, or a shelved one that waits to resume (R280). -/
def isClaim (s : State) (p : Nat) : Bool :=
  match (partOf s p).attempt with
  | some a => a.phase == .claim || a.phase == .shelved
  | none => false

/-- Whether every cluster of a partition's set is free and powered (R277, R406). -/
def clustersFree (s : State) (p : Nat) : Bool :=
  (clusterSet (partOf s p).items).all fun c => (clusterOf s c).holder.isNone && s.gov.on.contains c

/-- Partitions of a TIME set in turn order, after the one granted last (R280). -/
def turnOrder (s : State) (ps : List Nat) : List Nat :=
  let last := ps.foldl (fun b p => if (partOf s b).grantNo < (partOf s p).grantNo then p else b) (ps.headD 0)
  if (partOf s last).grantNo = 0 then ps else (ps.filter (fun p => decide (last < p))) ++ ps.filter fun p => decide (p ≤ last)

/-- Whether a claim is the next to be granted: no claim earlier in turn order has its clusters free (R277, R280). -/
def mayGrant (s : State) (p : Nat) : Bool :=
  s.flt.pkg == .serving && s.boot.fwPhase != .quiesce && isClaim s p && clustersFree s p &&
    (!(partOf s p).items.time ||
      (((turnOrder s (timeSet s p)).takeWhile (· != p)).all fun q => !(isClaim s q && clustersFree s q)))

/-- Whether a claim is to be granted here: the next in turn, or, where the leader of a group decides, by that leader (R277, R280, R282). -/
def placed (s : State) (p : Nat) : Bool :=
  if groupTurns s p && !leads s p then
    (partOf s p).turn && s.flt.pkg == .serving && s.boot.fwPhase != .quiesce && isClaim s p && clustersFree s p
  else mayGrant s p

/-! ### Grants -/

/-- The ports of every bond an attempt may use: ACTIVE and not LEAVING (R329, R332). -/
def stepBonds (s : State) (p : Nat) : List Nat :=
  let g := (partOf s p).items.groupSize
  if g ≤ 1 then [] else (List.range g).flatMap fun k => if k == ownIndex s g then [] else bondPorts s (blockMember s g k)

/-- The number of the next grant. -/
def nextGrant (s : State) : Nat := s.parts.foldl (fun m x => max m x.grantNo) 0 + 1

/-- A waiting claim's bookkeeping at its grant: place in the turn order, and TURN_WAIT of a TIME partition (R280, Table PAR-3). -/
def countGrant (s : State) (p : Nat) (a : Attempt) : State :=
  let n := nextGrant s
  updPart s p fun x =>
    { x with grantNo := n, turn := false, turnWait := if x.items.full && x.items.time then satAdd 64 x.turnWait (s.boot.dtc - a.claimAt) else x.turnWait }

/-- The stream ring of every STREAM model of a plan made ready for its first streamed layers (R262). -/
def rewindRings (s : State) (p : Nat) (slots : List Nat) : State :=
  slots.foldl (fun t i => match modelAt (partOf t p) i with
    | some m =>
      if m.stream && !m.ring.contains m.resident then
        freeHalf (freeHalf (updModel t p i fun y => { y with nextLayer := m.resident, tries := [], got := [] }) p i m 0) p i m 1
      else t
    | none => t) s

/-- The clusters of a set bound to an attempt's ranks in ascending order, their stores as new (R270, R277). -/
def bindClusters (s : State) (p : Nat) (cs : List Nat) : State :=
  (cs.zipIdx).foldl (fun t e => putCluster t { idleCluster e.1 with holder := some (p, e.2), lastRetire := t.boot.dtc }) s

/-- A fresh claim granted: clusters bound, bonds fixed, and the first invocation started (R277, R329). -/
def grantFresh (s : State) (p : Nat) (a : Attempt) : State :=
  let cs := clusterSet (partOf s p).items
  let invs := invsOf a.plan.rows
  let s := bindClusters (rewindRings (countGrant s p a) p invs) p cs
  let bonds := stepBonds s p
  let s := updAtt s p fun b => { b with phase := .run, clusters := cs, bonds := bonds, grantedAt := s.boot.dtc }
  startInvocation s p invs

/-- A claim of an attempt in phase 4 granted. A claim left by a KILL freezes its plan at this instant (R292). -/
def grantClaim (s : State) (p : Nat) : State :=
  match (partOf s p).attempt with
  | none => s
  | some a =>
    if a.phase != .claim then s
    else if a.plan.rows.isEmpty then
      let t := freeze (updPart s p fun x => { x with attempt := none }) p s.boot.dtc a.no
      match (partOf t p).attempt with
      | some b => grantFresh t p { b with claimAt := a.claimAt }
      | none => closeInterval t p a
    else grantFresh s p a

/-! ### The shelf (R293, R295) -/

/-- The layout of the invocation a cluster of an attempt runs, with its slot. -/
def runningLayout (s : State) (p : Nat) (a : Attempt) : Option (Nat × Layout) :=
  match a.clusters.head? with
  | none => none
  | some c => match (clusterOf s c).invs.head? with
    | none => none
    | some slot => match modelAt (partOf s p) slot with
      | none => none
      | some m => (layoutIn (partOf s p).items m).map fun l => (slot, l)

/-- Layers every rank has completed, Lb (R293). -/
def layersDone (s : State) (a : Attempt) : Nat :=
  match a.clusters.map fun c => (clusterOf s c).layers with
  | [] => 0
  | n :: ns => ns.foldl min n

/-- The next cheap point: the lowest CP_ID whose LAYER is at least Lb (R293). -/
def nextCheap (l : Layout) (lb : Nat) : Option CheapPt := (sortBy (·.id) (l.cheap.filter fun c => decide (lb ≤ c.layer))).head?

/-- B_shelf (R290). -/
def shelfRate (s : State) (p : Nat) : Nat :=
  let wr := ((partOf s p).items.rates.getD 1 (0, 0)).1
  if wr = 0 then sinterLimit s else min wr (sinterLimit s)

/-- T_reach (R296). -/
def tReach (a : Attempt) (layers layer lb : Nat) : Nat := ceilDiv ((layer - lb) * a.plan.tPred) layers

/-- C_S of R296. -/
def shelveCost (s : State) (p : Nat) (reach_ live : Nat) : Nat :=
  let t := ceilDiv live (shelfRate s p)
  reach_ + (200 + t + 150) + (t + 150)

/-- A TURN message to every other member (Table LNK-8): partition, method, and the cheap point of a SHELVE (log 17). -/
def sendTurn (s : State) (p method point : Nat) : State :=
  match (partOf s p).attempt with
  | some a =>
    if spans s p && leads s p then
      sendOthers s (partOf s p).items.groupSize 0 (linkHeader 0x04 0x05 0 p 0 0 (hubTag s p a) (point * 65536 + method * 256 + p))
    else s
  | none => s

/-- An attempt killed by pre-emption, with every member told unless the leader has; after a turn the next attempt is protected
(R281, R292). -/
def preemptKill (s : State) (p : Nat) (turn told : Bool) : State :=
  killStart (if turn then updPart s p fun x => { x with protectNext := true } else s) p 4 .fresh told

/-- A running attempt set on its way to a cheap point: the next one, which a leader tells its members, or the one it has told
(R282, R293; log 17). Without one the SHELVE becomes a KILL (R294). -/
def beginShelve (s : State) (p : Nat) (point : Option Nat) : State :=
  match (partOf s p).attempt with
  | none => s
  | some a =>
    match runningLayout s p a with
    | none => s
    | some (slot, l) =>
      let lb := layersDone s a
      let n := match modelAt (partOf s p) slot with | some m => m.prog.layers | none => 1
      match (match point with | some i => l.cheap.find? fun c : CheapPt => c.id == i | none => nextCheap l lb) with
      | none => downgrade s p
      | some c => updAtt (sendTurn s p 2 c.id) p fun b =>
          { b with phase := .shelving, cheap := some c.id, shelveBy := s.boot.dtc + 2 * tReach a n c.layer lb + 10000 }

/-- Whether AUTO shelves at this instant (R296). -/
def autoShelves (s : State) (p : Nat) (a : Attempt) : Bool :=
  match runningLayout s p a with
  | none => false
  | some (slot, l) =>
    let lb := layersDone s a
    let n := match modelAt (partOf s p) slot with | some m => m.prog.layers | none => 1
    match nextCheap l lb with
    | none => false
    | some c => decide (shelveCost s p (tReach a n c.layer lb) c.live < (s.boot.dtc - a.grantedAt) + 200)

/-- A running attempt pre-empted by its partition's PREEMPT item (R291, R296). -/
def preempt (s : State) (p : Nat) (turn : Bool) : State :=
  match (partOf s p).attempt with
  | none => s
  | some a =>
    if a.phase != .run then s
    else
      let shelve := match (partOf s p).items.preempt with
        | .kill => false
        | .shelve => true
        | .auto => autoShelves s p a
      if shelve then beginShelve s p none else preemptKill (sendTurn s p 1 0) p turn true

/-- A member asks for the pre-emption of a spanning attempt, for its FW_ACTIVATE: by the partition's PREEMPT item, or by KILL where this
member has done its part and cannot stop at a cheap point any more (R291, R482; log 24). -/
def preemptAsked (s : State) (p : Nat) : State :=
  match (partOf s p).attempt with
  | some a => if !leads s p then s else if a.phase == .ready then preemptKill (sendTurn s p 1 0) p false true else preempt s p false
  | none => s

/-- STEP_PLACE: a waiting attempt is granted its clusters when all of them are free, in turn order for TIME partitions; a leader
tells the members of its TIME set, and a member goes by what the leader has told (R277, R280, R282). -/
def execStepPlace (p : Nat) (s : State) : Out :=
  partRow s p <|
    if !placed s p then s
    else match (partOf s p).attempt with
      | some a => if a.phase == .claim then grantClaim (if groupTurns s p then sendTurn s p 0 0 else s) p else s
      | none => s

/-- TURN_PREEMPT: an attempt that has held its clusters for its QUANTUM while another partition's claim waits on one of them is
pre-empted, unless it is protected (R281, R291). -/
def execTurnPreempt (p : Nat) (s : State) : Out :=
  partRow s p <|
    match (partOf s p).attempt with
    | none => s
    | some a =>
      let x := partOf s p
      let wanted := (List.range 8).any fun q => q != p && overlap s p q && isClaim s q
      if !x.items.time || a.guarded || a.phase != .run || decide (s.boot.dtc < a.grantedAt + x.items.quantum) || !wanted ||
          (groupTurns s p && !leads s p) then s
      else preempt s p true

/-- The live ranges of a cheap point read from the clusters of an attempt, in rank order and range order (R293). -/
def liveRanges (s : State) (a : Attempt) (c : CheapPt) : List Bytes :=
  (sortBy (·.rank) c.ranges).map fun r => csRead (clusterOf s (a.clusters.getD r.rank 0)).cs (512 * r.off) r.len

/-- This member's arrival at its cheap point with a CLEAN report, told to the others (R293; log 24). -/
def tellCheap (s : State) (p : Nat) (a : Attempt) : State :=
  if spans s p then announce s p (partOf s p).items.groupSize .cheap ((partOf s p).serial * 16 + a.no % 16) (leBytes 2 (a.cheap.getD 0)) else s

/-- Whether every other member has arrived at the cheap point with a CLEAN report (R293). -/
def cheapEverywhere (s : State) (p : Nat) (a : Attempt) : Bool :=
  !spans s p || othersTold s p .cheap ((partOf s p).serial * 16 + a.no % 16) fun b => b == leBytes 2 (a.cheap.getD 0)

/-- What was told of cheap points of a partition forgotten. -/
def clearCheap (s : State) (p : Nat) : State :=
  { s with notices := s.notices.filter fun n => !(n.part == p && n.kind == NoticeKind.cheap.code) }

/-- SHELVE_CHEAP_POINT_CLEAN: with every rank of every member at the point and the report CLEAN the attempt quiesces: its draw permits go
back and its live ranges are handed to the Sinter Engine in shelf frames, the last filled up with zeros (R293). Without frames for them
it is killed (log 17). -/
def execShelveCheapPointClean (p : Nat) (s : State) : Out :=
  partRow s p <|
    match (partOf s p).attempt with
    | none => s
    | some a =>
      let s := if a.phase == .shelving && atPoint s a && cleanPoint s p a then tellCheap s p a else s
      if a.phase != .shelving || !atPoint s a || !cleanPoint s p a || !cheapEverywhere s p a then s
      else match runningLayout s p a with
        | none => s
        | some (_, l) => match l.cheap.find? fun c => some c.id == a.cheap with
          | none => s
          | some c =>
            let k := ceilDiv c.live 65536
            let live := liveRanges s a c
            let invs := match a.clusters.head? with | some n => (clusterOf s n).invs | none => []
            let s := a.clusters.foldl dropClusterPermits (clearCheap s p)
            if usableFree s p < k then downgrade s p
            else match openFrames s p .transit .shelf k with
              | none => downgrade s p
              | some (fs, s) =>
                updAtt (handRuns s p (wholeRuns fs)) p fun b => { b with phase := .sintering, shelf := live, shelfFrames := fs, shelfInvs := invs }

/-- The bytes of shelf frame number i (R293 step 3). -/
def shelfChunk (a : Attempt) (i : Nat) : Bytes := slice a.shelf.flatten (65536 * i) 65536

/-- SHELVE_DONE: with every shelf frame sealed the clusters are released and the attempt is a claim again (R280, R293). -/
def execShelveDone (p : Nat) (s : State) : Out :=
  partRow s p <|
    match (partOf s p).attempt with
    | none => s
    | some a =>
      let done := a.shelfFrames.all fun n => match frameOf s n with | some f => f.sealed | none => false
      if a.phase != .sintering || !done then s
      else
        let s := freeClusters (countPreempt s p a false) a.clusters
        updAtt (closeInterval s p a) p fun b => { b with phase := .shelved, clusters := [], claimAt := s.boot.dtc }

/-- SHELVE_TIMEOUT: the cheap point is not reached in time and the SHELVE becomes a KILL (R294). -/
def execShelveTimeout (p : Nat) (s : State) : Out :=
  partRow s p <|
    match (partOf s p).attempt with
    | none => s
    | some a => if a.phase == .shelving && decide (a.shelveBy ≤ s.boot.dtc) then downgrade s p else s

/-- A cluster of a resumed attempt: its live ranges back in place, the route phase in force, the commands after its CHEAP_POINT
(R295). -/
def resumeCluster (s : State) (l : Layout) (a : Attempt) (c : CheapPt) (rank : Nat) (cl : Cluster) : Cluster :=
  let rs := sortBy (·.rank) c.ranges
  let cs := (rs.zip a.shelf).foldl (fun m e => if e.1.rank == rank then csWrite m (512 * e.1.off) e.2 else m) []
  let st := rankStream l a.escape rank
  let at_ := match st.find? fun k => k.cmd.op == 12 && k.cmd.aux == c.id with | some k => k | none => { cmd := default12, idx := 0, phase := 0, layer := 0, sent := 0, issued := false, probed := false }
  let rest := st.filter fun k => decide (at_.idx < k.idx)
  let cl := { cl with invs := a.shelfInvs, cs := cs, routes := routesOf l a.escape at_.phase rank, phase := at_.phase, todo := rest
                      layers := c.layer, lastRetire := s.boot.dtc }
  refill rest.length (raiseTag cl at_.cmd.signal 1)
where
  default12 : Cmd := { op := 12, queue := 3, flags := 0, wait := 0xFFFF, signal := 0xFFFF, aux := 0, a := 0, b := 0, d := 0, len := 0, fmt := 0 }
  routesOf (l : Layout) (escape : Bool) (phase rank : Nat) : List (Nat × Route) :=
    (List.range 16).filterMap fun ch => (routeAt l.clusters (if escape then l.esc else l.routes) phase rank ch).map fun r => (ch, r)

/-- The first shelf frame whose digest differs from the bytes it should hold (R295). -/
def shelfBad (s : State) (a : Attempt) : Option Nat :=
  ((a.shelfFrames.zipIdx).find? fun e => match frameOf s e.1 with
    | some f => f.digest != sha256 (shelfChunk a e.2)
    | none => true).map (·.1)

/-- The shadows an attempt still has to run put back in the TWIN queues of their clusters (R293, Table PAR-6). -/
def requeueTwins (s : State) (a : Attempt) : State :=
  (a.twins.filter fun t => t.shadowDigest.isNone).foldl (fun t w =>
    updCluster t w.shadow fun cl => { cl with twinQ := cl.twinQ ++ [(w.inv, w.rank, w.cmd)] }) s

/-- A shelved attempt granted its clusters again: digests checked, ranges reloaded, shelf frames freed (R295). It is not
pre-empted by turn any more (R281). -/
def grantShelved (s : State) (p : Nat) : State :=
  match (partOf s p).attempt with
  | none => s
  | some a =>
    match shelfBad s a with
    | some f => doubt s 0x07 p f 0
    | none =>
      match a.shelfInvs.head? with
      | none => s
      | some slot => match modelAt (partOf s p) slot with
        | none => s
        | some m => match layoutIn (partOf s p).items m with
          | none => s
          | some l => match l.cheap.find? fun c => some c.id == a.cheap with
            | none => s
            | some c =>
              let cs := clusterSet (partOf s p).items
              let s := bindClusters (countGrant s p a) p cs
              let s := requeueTwins ((cs.zipIdx).foldl (fun t e => updCluster t e.1 (resumeCluster t l a c e.2)) s) a
              let bonds := stepBonds s p
              let s := freeFrames s a.shelfFrames
              updAtt s p fun b => { b with phase := .run, guarded := true, clusters := cs, bonds := bonds, grantedAt := s.boot.dtc
                                           cheap := none, shelf := [], shelfFrames := [], shelfInvs := [] }

/-- SHELVE_RESUME: a shelved attempt is granted its clusters again, in turn order (R280, R295). -/
def execShelveResume (p : Nat) (s : State) : Out :=
  partRow s p <|
    if !placed s p then s
    else match (partOf s p).attempt with
      | some a => if a.phase == .shelved then grantShelved (if groupTurns s p then sendTurn s p 0 0 else s) p else s
      | none => s

/-- STEP_SYNC_TURN: a member applies the leader's grant or pre-emption of a partition, a grant as soon as it has the claim and its
clusters are free (R282; log 17). -/
def execStepSyncTurn (p arg : Nat) (s : State) : Out :=
  partRow s p <|
    if leads s p || s.flt.pkg != .serving then s
    else match arg / 256 % 256 with
      | 0 =>
        let s := updPart s p fun x => { x with turn := true }
        (match (partOf s p).attempt with
          | some a => if !placed s p then s else if a.phase == .shelved then grantShelved s p else grantClaim s p
          | none => s)
      | 1 =>
        (match (partOf s p).attempt with
          | some a => if a.phase == .run then preemptKill s p true false else updPart s p fun x => { x with turn := false }
          | none => updPart s p fun x => { x with turn := false })
      | _ =>
        (match (partOf s p).attempt with
          | some a => if a.phase == .run then beginShelve s p (some (arg / 65536)) else s
          | none => s)

end Sys2Proof.Machine
end

