-- ==== Sys2Proof/Machine/Steps.lean ====
section
/-! DEFINITION. The step loop: the meanings of IDLE_FREEZE, STEP_SYNC_PLAN, STEP_SYNC_READY, STEP_COMMIT, STEP_SYNC_RELEASE,
STEP_KILL, KILL_COMPLETE, STEP_SYNC_ABORT, DRAIN_TIMEOUT and LEDGER_CLOSE (01 R19-R24; 04 R108, R120; 10 R292, R298;
11 R322; 15 R438). -/

namespace Sys2Proof.Machine

/-- IDLE_FREEZE: an idle partition's first plan is frozen at its freeze instant (R108, R111). -/
def execIdleFreeze (p : Nat) (s : State) : Out :=
  partRow s p <|
    match (partOf s p).freezeAt with
    | some f => if (partOf s p).attempt.isNone && canFreeze s p && decide (f ≤ s.boot.dtc) then freeze s p f 0 else s
    | none => s

/-! ### STEP_SYNC PLAN (R21, R322, R91) -/

/-- A plan row from its entry in a PLAN message (Table LNK-8); a fallback row is one in its request's fallback slot that is no
shadow row. -/
def readPlanRow (s : State) (x : Part) (e : Bytes) : PlanRow :=
  let h := rd e 0 8
  let slot := rd e 14 1
  let fl := rd e 15 1
  let q := reqOf s h
  let shadow := bit fl 1
  { h := h, first := rd e 8 4, n := rd e 12 2, slot := slot
    cls := (match q with | some q => classOfReq q | none => .decode)
    emits := bit fl 0, shadow := shadow, catchUp := bit fl 2, cond := bit fl 3
    fb := !shadow && (match q with | some q => q.fb.isSome && decide (fbSlot x q = slot) && decide (baseSlot x q ≠ slot) | none => false) }

/-- PLAN messages, header and body each, as (TAG, ARG, body); the fuel is the number of bytes. -/
def planMsgs : Nat → Bytes → List (Nat × Nat × Bytes)
  | 0, _ => []
  | f + 1, bs =>
    if bs.length < 16 then []
    else
      let n := rd bs 2 2
      (rd bs 8 4, rd bs 12 4, slice bs 16 n) :: planMsgs f (bs.drop (16 + n))

/-- A piece of a plan joined to those a member holds. -/
def addPiece (ps : List (Nat × Bytes)) (i : Nat) (b : Bytes) : List (Nat × Bytes) :=
  insertBy (·.1) (i, b) (ps.filter fun e => e.1 != i)

/-- A member's attempt of a plan whose pieces are all there: rows, segments, pins, its own fetch demands; the
leader alone reserves (R85, R91, R96, R102). -/
def planWhole (s : State) (p : Nat) (a : Attempt) : State :=
  let s := updPart s p fun x => { x with attempt := none }
  let s := atFreeze s p s.boot.dtc
  let x := partOf s p
  let rows := (chunks 16 (a.pieces.flatMap (·.2))).map (readPlanRow s x)
  let plan : Plan := { rows := rows, fbOnly := rows.all (·.fb), tPred := predict s p rows, reserved := [] }
  let s := takePins (memberDemands s p rows) rows
  updPart s p fun y => { y with attempt := some (newAttempt plan a.no y.protectNext s.boot.dtc (segmentsOf s.reqs rows)), protectNext := false }

/-- One PLAN message at a member (R322). -/
def planPiece (s : State) (p : Nat) (m : Nat × Nat × Bytes) : State :=
  let x := partOf s p
  let no := bits m.1 19 16
  let nothing : Plan := { rows := [], fbOnly := false, tPred := 0, reserved := [] }
  let fresh : Attempt := { newAttempt nothing no false s.boot.dtc [] with phase := Phase.plan }
  if bits m.1 31 20 != x.serial % 4096 then s
  else
    let a := match x.attempt with
      | some a => if a.phase == Phase.plan && a.no == no then some a else none
      | none => some fresh
    match a with
    | none => s
    | some a =>
      let a := { a with pieces := addPiece a.pieces (m.2.1 / 65536) m.2.2 }
      let s := updPart s p fun y => { y with attempt := some a }
      if m.2.1 % 65536 ≤ a.pieces.length then planWhole s p a else s

/-- STEP_SYNC_PLAN: a member receives plan pieces of the leader, PLAN messages one after another; with every piece it sorts the rows
into segments, pins and waits for its clusters (R21, R91, R322). A kill whose reclaims are done completes first. -/
def execStepSyncPlan (p : Nat) (pieces : Bytes) (s : State) : Out :=
  partRow s p <|
    let x := partOf s p
    if leads s p || !spans s p || x.st == .disabled || s.flt.pkg != .serving then s
    else
      let s := match x.attempt with
        | some a => if a.phase == .killing && a.reclaims.isEmpty then completeKill s p else s
        | none => s
      (planMsgs pieces.length pieces).foldl (fun t m => planPiece t p m) s

/-! ### READY, commit, RELEASE (R120, R169, R322) -/

/-- Ring and journal CIDX of READY entries taken over (R169). -/
def takeCidx (s : State) (es : List Bytes) : State :=
  es.foldl (fun t e => updReq t (rd e 0 8) fun q =>
    { q with ring := { q.ring with cidx := rd e 8 4 }, jrn := { q.jrn with ring := { q.jrn.ring with cidx := rd e 12 4 } } }) s

/-- STEP_SYNC_READY: the leader notes a member's readiness and the CIDX values of the rings that member owns (R169, R322). -/
def execStepSyncReady (port p member : Nat) (entries : Bytes) (s : State) : Out :=
  if port < 12 then
    partRow s p <|
      match (partOf s p).attempt with
      | none => s
      | some a =>
        if !leads s p || !(a.phase == .run || a.phase == .ready) || s.flt.pkg != .serving then s
        else updAtt (takeCidx s (chunks 16 entries)) p fun b => { b with readyFrom := (b.readyFrom ++ [member]).eraseDups }
  else .fault .noSuchUnit

/-- Whether the leader holds readiness from every other member (R322). -/
def allReady (s : State) (p : Nat) (a : Attempt) : Bool :=
  let g := (partOf s p).items.groupSize
  (List.range g).all fun k => k == ownIndex s g || a.readyFrom.contains k

/-- STEP_COMMIT: a step whose readiness holds everywhere is stamped with the DTC and its items 3 to 12 take effect; the members get
RELEASE with the stamp and the handles of the cut (R120-R122, R322). The stamp is later than every acceptance so far, so that no message
stamped at C has been answered as if it came before C (R175; log 72). -/
def execStepCommit (p : Nat) (s : State) : Out :=
  partRow s p <|
    match (partOf s p).attempt with
    | none => s
    | some a =>
      if a.phase != .ready || !leads s p || s.flt.pkg != .serving || !s.host.linkUp || !allReady s p a then s
      else match residue s a with
        | some c => doubt s 0x09 p c 0
        | none =>
          let c := max s.boot.dtc (s.host.lastAccept + 1)
          let cut := cutHandles s a c
          let body := leBytes 8 c ++ cut.flatMap (leBytes 8)
          let s := if spans s p then
            sendOthers s (partOf s p).items.groupSize 0 (linkHeader 0x04 0x03 body.length p 0 0 (hubTag s p a) cut.length ++ body) else s
          nextPlan (commitItems s p c cut) p c

/-- STEP_SYNC_RELEASE: a member applies the commit with the leader's stamp C and cut (R122, R322). -/
def execStepSyncRelease (p : Nat) (body : Bytes) (s : State) : Out :=
  partRow s p <|
    match (partOf s p).attempt with
    | none => s
    | some a =>
      if a.phase != .ready || leads s p || s.flt.pkg != .serving then s
      else endCancelled (commitItems s p (rd body 0 8) ((chunks 8 (body.drop 8)).map leNat)) p

/-! ### Kills (R24, R292, R322) -/

/-- What follows a kill of an ABORT reason (Table LNK-8, Table PAR-5). -/
def rerunFor : Nat → Rerun
  | 1 => .escape
  | 2 => .same
  | 3 => .same
  | 4 => .fresh
  | 5 => .same
  | _ => .none

/-- STEP_KILL: a partition's attempt is discarded for a cause of Table LNK-8, and every member told (R24, R221, R246, R292). -/
def execStepKill (p cause : Nat) (s : State) : Out :=
  partRow s p <| if decide (1 ≤ cause ∧ cause ≤ 6) then killStart s p cause (rerunFor cause) true else s

/-- KILL_COMPLETE: with every reclaim acknowledged the semaphores are FREE, the clusters free, and the re-run of the cause follows
(R228, R292, R324). -/
def execKillComplete (p : Nat) (s : State) : Out :=
  partRow s p <|
    match (partOf s p).attempt with
    | some a => if a.phase == .killing && a.reclaims.isEmpty then completeKill s p else s
    | none => s

/-- STEP_SYNC_ABORT: a member's ABORT names an attempt; the part kills its own part of it (R322). -/
def execStepSyncAbort (p reason tag : Nat) (s : State) : Out :=
  partRow s p <|
    match (partOf s p).attempt with
    | some a =>
      if attemptTag (partOf s p) a == tagAttempt tag then
        killStart s p reason (rerunFor reason) false
      else s
    | none => s

/-! ### Draining and the periodic close -/

/-- DRAIN_TIMEOUT: with requests left at s + DRAIN_TICKS, ABORT applies with that stamp (R298). -/
def execDrainTimeout (p : Nat) (s : State) : Out :=
  partRow s p <|
    match (partOf s p).disable with
    | none => s
    | some d =>
      match d.deadline with
      | none => s
      | some t =>
        if (partOf s p).st == .draining && decide (t ≤ s.boot.dtc) && (s.reqs.any fun q => q.part == p && living q) then
          abortPart (updPart s p fun x => { x with disable := some { d with deadline := none, stamp := t } }) p t
        else s

/-- Whether an idle partition has a request that could have rows (R87, R89, R108). -/
def waitingWork (s : State) (p : Nat) : Bool := s.reqs.any fun q => candidate p (s.boot.dtc + 1) q

/-- Idle partitions with waiting requests get a freeze instant after a close (log 18). -/
def rearm (s : State) : State :=
  (List.range 8).foldl (fun t p =>
    if (partOf t p).attempt.isNone && (partOf t p).freezeAt.isNone && canFreeze t p && waitingWork t p then wake t p t.boot.dtc else t) s

/-- LEDGER_CLOSE: the package's close of every millisecond while it serves (R438-R440), with what completes at one. In quarantine
only resets and disables complete (R481; log 18). -/
def execLedgerClose (s : State) : Out :=
  match s.flt.pkg with
  | .serving => .next (rearm (packageClose s))
  | .quarantined => .next ((List.range 8).foldl (fun t p => finishReset (finishDisable t p) p) s)
  | _ => .next s

end Sys2Proof.Machine
end

