-- ==== Sys2Proof/Machine/Link.lean ====
section
/-! DEFINITION. The link layer of a Noyldo port: flits received, credits, acknowledgement, NAK and replay, RECOVERY and DOWN:
the meanings of LINK_FLIT_RECEIVED, NAK_RESEND_TIMEOUT, ACK_CREDIT_TIMER, PORT_DOWN, LEDGER, LEDGER_SEND
(11 R304, R310-R318, R330, R331, R334, R335). -/

namespace Sys2Proof.Machine

/-- A port row: no such port is a fault, and nothing runs in UNCONTAINED. -/
def portRow (s : State) (n : Nat) (t : State) : Out := inRange n 12 (guarded s t)

/-- Initial credits of a VC on B0 (Table LNK-5). -/
def bufferOf (v : Nat) : Nat := [32, 256, 256, 32].getD v 0

/-! ### A port without a link -/

/-- A port's link-layer state as it is before LINK_INIT; its error counters stay (R336). -/
def clearLink (p : Port) : Port :=
  { p with recal := none, asked := none, due := none, pings := [], echoes := 0, txSeq := 0, rxSeq := 0, replay := [], txq := [], naking := false
           unacked := 0, sameReplays := 0, vcs := List.replicate 4 .reset, permit := false, train := 0, disableSent := false
           reclaimRx := [], holding := false, startAt := none }

/-- The power domain of port n (Table PWR-2). -/
def portDomain (n : Nat) : Nat := 208 + n

/-- Port n without power or permits (R405, R415). -/
def portPowerOff (s : State) (n : Nat) : State :=
  let s := portPermits s n
  { s with gov := { govDropReq s.gov (412 + portDomain n) with on := s.gov.on.filter (· != portDomain n), rising := s.gov.rising.filter (· != portDomain n) } }

/-- The group index of a port's peer. -/
def peerIndex (s : State) (n : Nat) : Option Nat := (portOf s n).peer.map (·.groupIndex)

/-- Whether a partition that is not DISABLED spans the member with group index i (R327, R333). -/
def spansPeer (s : State) (p i : Nat) : Bool :=
  let x := partOf s p
  let g := x.items.groupSize
  x.st != .disabled && decide (1 < g) && decide (i / g = s.group.index / g) && i != s.group.index

/-- Whether an ACTIVE partition spans the member with group index i (R331, R332). -/
def activeSpans (s : State) (p i : Nat) : Bool := (partOf s p).st == .active && spansPeer s p i

/-- A port no longer among those an attempt used, or whose reclaims it awaits. -/
def forgetPort (s : State) (n : Nat) : State :=
  { s with parts := s.parts.map fun x => { x with attempt := x.attempt.map fun a =>
      { a with used := a.used.filter (· != n), reclaims := a.reclaims.filter (· != n) } } }

/-- PORT_LOST on a surviving port: the lost port's number at the peer, and the last SEQ delivered here (R330 item 2; log 19). -/
def sendPortLost (s : State) (n via : Nat) : State :=
  let x := portOf s n
  let far := match x.peer with | some id => id.port | none => n
  portSend s via 3 (linkHeader 0x05 0x08 8 0xFF 0 0 0 0 ++ leBytes 4 far ++ leBytes 4 ((x.rxSeq + 4095) % 4096))

/-- Every attempt that uses a bond port n belonged to killed for a re-run (R330 item 1). -/
def killBond (s : State) (n : Nat) : State :=
  (List.range 8).foldl (fun t p =>
    match (partOf t p).attempt with
    | some a =>
      if a.bonds.contains n && a.phase != .killing then
        killStart { t with group := { t.group with lostKills := satAdd 32 t.group.lostKills 1 } } p 5 .same true
      else t
    | none => t) s

/-- A LINK_SET DISABLE in progress on a port completed; the port is DISABLED (R332). -/
def finishLeaving (s : State) (n : Nat) : State :=
  match (portOf s n).leaving with
  | none => s
  | some (c, _) =>
    respond (updPort (portPowerOff s n) n fun p => { clearLink p with st := .disabled, leaving := none }) c .success []

/-- Port n goes DOWN (R330, R331, R332): a bond that keeps a port re-runs its attempts and tells the peer what arrived; the last
port to a peer that a partition spans is doubt. -/
def portDown (s : State) (n : Nat) (r : DownReason) : State :=
  let x := portOf s n
  if x.st == .disabled || x.st == .down then s
  else
    let was := x.st == .active || (x.st == .recovery && x.back == .active)
    let s := portPowerOff s n
    let s := updPort s n fun p =>
      { clearLink p with st := .down, reason := r, downs := satAdd 32 p.downs 1, replay := p.replay, txq := p.txq, rxSeq := p.rxSeq }
    match (if was then peerIndex s n else none) with
    | none => finishLeaving s n
    | some i =>
      match bondPorts s i with
      | via :: _ => finishLeaving (sendPortLost (killBond (forgetPort s n) n) n via) n
      | [] =>
        let s := forgetMember (finishLeaving s n) i
        if (List.range 8).any fun p => activeSpans s p i then doubt s 0x10 0xFF n 0 else s

/-- A reason from its code. -/
def downOf : Nat → DownReason
  | 0 => .none
  | 1 => .groupMismatch
  | 2 => .rttExceeded
  | 3 => .timeout
  | 4 => .recoveryFailed
  | k => .other k

/-- PORT_DOWN: a port goes DOWN for a reason (R330, R331). -/
def execPortDown (port reason : Nat) (s : State) : Out := portRow s port (portDown s port (downOf reason))

/-- A port in a state of Table LNK-2, the attempt of which begins now (R307). -/
def inState (s : State) (n : Nat) (st : PortState) : State := updPort s n fun p => { p with st := st, since := s.boot.dtc }

/-- RECOVERY entered; the third within one second sends the port DOWN (R310). A port that was not ACTIVE yet returns from it to the
state it was in (log 77). -/
def enterRecovery (s : State) (n : Nat) : State :=
  let now := s.boot.dtc
  let recent := (portOf s n).recoveries.filter fun t => decide (now < t + 100000000)
  let s := updPort (portPermits s n) n fun p =>
    { p with recoveries := recent ++ [now], recCount := satAdd 32 p.recCount 1, sameReplays := 0, recal := none
             asked := none, due := none, back := p.st }
  if 2 ≤ recent.length then portDown s n .recoveryFailed else inState s n .recovery

/-! ### Sending (R311-R315) -/

/-- IDLE flits until every freed credit and every accepted flit has been reported; the fuel bounds their number. -/
def idleFlits : Nat → Port → Port
  | 0, p => p
  | k + 1, p => if p.vcs.any (fun v => decide (0 < v.owed)) || decide (0 < p.unacked) then idleFlits k (putIdle p) else p

/-- Whether a port's transmitter sends flits at all (R307, R333). -/
def txOn (p : Port) : Bool := !p.holding && (p.st == .linkInit || p.st == .rtt || p.st == .active)

/-- The replay buffer sent again from its oldest flit (R315). -/
def goBack (p : Port) : Port :=
  { p with wire := p.wire ++ p.replay.map (·.bytes), replayed := satAdd 32 p.replayed p.replay.length }

/-- Whether a LEAVING port has nothing outstanding (R332 step 2). -/
def drained (p : Port) : Bool :=
  p.replay.isEmpty && p.txq.isEmpty &&
    (p.vcs.zipIdx).all fun e => match p.peer with | some id => e.1.credits == id.buffers.getD e.2 0 | none => true

/-- DISABLE_REQ sent once a LEAVING port is unused and drained (R332 step 3). -/
def leaveStep (s : State) (n : Nat) : State :=
  let s := markIdlePorts s
  let p := portOf s n
  match p.leaving with
  | some (_, t) =>
    if p.st == .active && t != 0 && drained p && !p.disableSent then
      portSend (updPort s n fun q => { q with disableSent := true }) n 3 (linkHeader 0x05 0x09 0 0xFF 0 0 0 0)
    else s
  | none => s

/-! ### Messages out of flits (R317, R318) -/

/-- Whether a message's TYPE, KIND and BODY_LEN are ones of Table LNK-7 to Table LNK-9 on VC v. -/
def msgKnown (v ty kind len : Nat) : Bool :=
  match ty with
  | 1 => if kind = 0x10 then v == 0 && len == 0 else v == 1 && decide (kind ≤ 5 ∧ kind ≠ 4 ∧ len % 64 = 0 ∧ 64 ≤ len ∧ len ≤ 512)
  | 2 => v == 2 && decide (1 ≤ kind ∧ kind ≤ 4 ∧ len % xpWidth kind = 0 ∧ 0 < len ∧ len ≤ 512)
  | 3 => v == 0 && decide (1 ≤ kind ∧ kind ≤ 7 ∧ len = 0)
  | 4 => v == 0 && decide (1 ≤ kind ∧ kind ≤ 5 ∧ len ≤ 4080)
  | 5 => decide (len ≤ 4080) && (if kind = 1 then v == 0 else v == 3 && decide (2 ≤ kind ∧ kind ≤ 10))
  | 6 => v == 3 && ((kind == 1 && len == 16) || (kind == 2 && len == 0))
  | _ => false

/-- What a VC's stream gives. -/
structure Parsed where
  rest : Bytes
  msgs : List (LinkMsg × Nat × Nat)
  /-- flits that hold padding alone -/
  freed : Nat
  bad : Bool
  deriving DecidableEq, Repr

/-- The last message of a list completes one flit more. -/
def lastFlit (l : List (LinkMsg × Nat × Nat)) : List (LinkMsg × Nat × Nat) := modAt l (l.length - 1) fun m => (m.1, m.2.1, m.2.2 + 1)

/-- Messages taken from the front of a VC's stream, which ends at the end of a flit (R317); the fuel is its length. -/
def parseVc (v : Nat) : Nat → Bytes → List (LinkMsg × Nat × Nat) → Nat → Parsed
  | 0, st, acc, fr => { rest := st, msgs := acc, freed := fr, bad := false }
  | f + 1, st, acc, fr =>
    if st.isEmpty then { rest := [], msgs := acc, freed := fr, bad := false }
    else if rd st 0 1 = 0 then
      let k := if st.length % 240 = 0 then 240 else st.length % 240
      if k = 240 then parseVc v f (st.drop k) acc (fr + 1) else parseVc v f (st.drop k) (lastFlit acc) fr
    else
      let ty := rd st 0 1
      let kind := rd st 1 1
      let len := rd st 2 2
      let whole := ceilDiv (16 + len) 8 * 8
      if st.length < 16 then { rest := st, msgs := acc, freed := fr, bad := false }
      else if !msgKnown v ty kind len then { rest := st, msgs := acc, freed := fr, bad := true }
      else if st.length < whole then { rest := st, msgs := acc, freed := fr, bad := false }
      else
        let m : LinkMsg := { kind := kind, part := rd st 4 1, destChannel := rd st 5 1, destRank := rd st 6 2, tag := rd st 8 4
                             arg := rd st 12 4, body := slice st 16 len }
        let k := ceilDiv st.length 240 - ceilDiv (st.length - whole) 240
        parseVc v f (st.drop whole) (acc ++ [(m, ty, k)]) fr

/-- Whether a message belongs to an attempt whose reclaim is open on a port (R324). -/
def reclaimed (p : Port) (m : LinkMsg) : Bool := p.reclaimRx.contains (m.part, m.tag / 65536)

/-- A payload joined to the stream of VC v: whole messages wait, those under reclaim are discarded and their flits freed. -/
def takePayload (s : State) (n v : Nat) (payload : Bytes) : State :=
  let p := portOf s n
  let st := (vcOf p v).stream ++ payload
  let r := parseVc v st.length st [] 0
  let gone := r.msgs.filter fun m => (m.2.1 == 1 || m.2.1 == 2) && v != 0 && reclaimed p m.1
  let keep := r.msgs.filter fun m => !((m.2.1 == 1 || m.2.1 == 2) && v != 0 && reclaimed p m.1)
  let s := updPort s n fun q => updVc q v fun c =>
    freeRx s.boot.dtc (r.freed + sumNat (gone.map (·.2.2))) { c with stream := r.rest, msgs := c.msgs ++ keep }
  if r.bad then doubt s 0x0E 0xFF n 0 else s

/-! ### LINK_FLIT_RECEIVED -/

/-- Replay-buffer flits that ACK acknowledges removed (R314, R315). -/
def ackFlits (p : Port) (ack : Nat) : Port :=
  let keep := p.replay.filter fun f => decide (2048 ≤ (ack + 4096 - f.seq) % 4096)
  { p with replay := keep, sameReplays := if keep.length = p.replay.length then p.sameReplays else 0 }

/-- Credits returned for VC v (R313). -/
def creditFlits (p : Port) (v k : Nat) : Port :=
  updVc p v fun c => { c with credits := c.credits + k, outBy := c.outBy.drop k, rxCredits := (c.rxCredits + k) % 2 ^ 48 }

/-- ACK and credits of an intact flit. -/
def applyHeader (p : Port) (h : Nat) : Port :=
  let p := if bit h 35 then ackFlits p (bits h 51 40) else p
  creditFlits p (bits h 34 33) (bits h 32 24)

/-- A NAK sent unless one is outstanding (R315). -/
def nakOnce (p : Port) : Port := if p.naking then p else putNak p

/-- A flit that fails its CRC or whose codeword cannot be corrected (R304, R315). -/
def badFlit (p : Port) (ctrl : Bool) : Port :=
  if ctrl then { p with crcCtrl := satAdd 32 p.crcCtrl 1 } else nakOnce { p with crcData := satAdd 32 p.crcData 1 }

/-- An intact NAK flit: go back, and RECOVERY at the eighth replay of one SEQ in a row (R310, R315). -/
def nakIn (s : State) (n : Nat) : State :=
  let s := updPort s n fun p =>
    let p := { p with nakRecv := satAdd 32 p.nakRecv 1 }
    if p.replay.isEmpty then p else goBack { p with sameReplays := p.sameReplays + 1 }
  if 8 ≤ (portOf s n).sameReplays then enterRecovery s n else s

/-- An intact DATA flit with the expected SEQ accepted (R313, R314). -/
def dataIn (s : State) (n v : Nat) (payload : Bytes) : State :=
  if bufferOf v ≤ (vcOf (portOf s n) v).rxUsed then doubt s 0x0E 0xFF n 0
  else
    let s := updPort s n fun p =>
      updVc { p with rxSeq := (p.rxSeq + 1) % 4096, naking := false, unacked := p.unacked + 1 } v fun c =>
        { c with rxUsed := c.rxUsed + 1, rxFlits := (c.rxFlits + 1) % 2 ^ 48 }
    let s := takePayload s n v payload
    updPort s n fun p => if 16 ≤ p.unacked && txOn p then putIdle p else p

/-- The receiver at a flit: an agreed steer takes effect where a superframe begins, and the decoder's counts are kept (R303-R305). -/
def framed (p : Port) (fec : FecInfo) : Port :=
  let p := countFec (atBoundary p) fec
  { p with rxCount := p.rxCount + 1 }

/-- LINK_FLIT_RECEIVED: a flit is decoded, then checked by CRC and SEQ; its ACK and credits are applied; a DATA flit is accepted or
NAKed (R304, R313-R315). The header of a DATA flit that is discarded is applied when it is replayed. -/
def execLinkFlitReceived (port : Nat) (flit : Bytes) (fec : FecInfo) (s : State) : Out :=
  portRow s port <|
    let p := portOf s port
    if !txOn p then s
    else
      let fecOk := (lostCws p fec).isEmpty
      let s := updPort s port fun p => framed p fec
      let h := rd flit 0 8
      let ty := bits h 37 36
      let good := fecOk && flit.length == 256 && slice flit 248 8 == leBytes 8 (crc64 (slice flit 0 248)).toNat
      let s :=
        if !good then updPort s port fun p => badFlit p (ty == 1 || ty == 2)
        else if ty = 0 then
          (if bits h 63 52 = p.rxSeq then dataIn (updPort s port fun p => applyHeader p h) port (bits h 39 38) (slice flit 8 240)
           else updPort s port nakOnce)
        else if ty = 1 then updPort s port fun p => applyHeader p h
        else if ty = 2 then nakIn (updPort s port fun p => applyHeader p h) port
        else s
      leaveStep (pumpState s port) port

/-- NAK_RESEND_TIMEOUT: the awaited flit has not arrived, and the NAK is sent again (R315). -/
def execNakResendTimeout (port : Nat) (s : State) : Out :=
  portRow s port (updPort s port fun p => if txOn p && p.naking then putNak p else p)

/-- ACK_CREDIT_TIMER: accepted flits and freed credits not yet reported go out in IDLE flits (R313, R314). -/
def execAckCreditTimer (port : Nat) (s : State) : Out :=
  portRow s port (leaveStep (updPort s port fun p => if txOn p then idleFlits 5 p else p) port)

/-! ### LEDGER (R335) -/

/-- LEDGER_SEND: an ACTIVE port sends its TX_FLITS and TX_CREDITS, as they stand when the LEDGER flit enters the wire (R335). -/
def execLedgerSend (port : Nat) (s : State) : Out :=
  portRow s port <|
    if (portOf s port).st != .active || (portOf s port).holding then s
    else
      let s := updPort s port (idleFlits 5)
      let p := portOf s port
      let ahead := sumNat ((p.txq.filter fun m => m.vc == 3).map fun m => ceilDiv m.bytes.length 240)
      let flits := (p.vcs.zipIdx).map fun e => (e.1.txFlits + if e.2 = 3 then ahead + 1 else 0) % 2 ^ 48
      leaveStep (portSend s port 3 (linkHeader 0x05 0x06 64 0xFF 0 0 0 0 ++ flits.flatMap (leBytes 8) ++
        p.vcs.flatMap fun v => leBytes 8 v.txCredits)) port

/-- LEDGER: the peer's TX_FLITS and TX_CREDITS must equal this end's RX_FLITS and RX_CREDITS; any difference is doubt (R335). -/
def execLedger (port : Nat) (txFlits txCredits : List Nat) (s : State) : Out :=
  portRow s port <|
    if (portOf s port).st != .active then s
    else
      let s := takeLink s port 5 fun m => m.kind == 6
      let p := portOf s port
      if txFlits == p.vcs.map (·.rxFlits) && txCredits == p.vcs.map (·.rxCredits) then s else doubt s 0x0F 0xFF port 0

end Sys2Proof.Machine
end

