-- ==== Sys2Proof/Machine/Ports.lean ====
section
/-! DEFINITION. Port training, lanes, and the port half of LINK_SET: the meanings of LINK_SET_GROUP, LINK_SET_PORT_ENABLE,
LINK_SET_PORT_DISABLE, LINK_SET_PORT_RETRAIN, IDENT, PING, ECHO, STEER, LANE_FAILURE, LANE_RECAL_START, LANE_RECAL_DONE,
PORT_STATE_DONE, PORT_STATE_TIMEOUT, PORT_DISABLE_TIMEOUT, DISABLE_REQ, DISABLE_ACK and PEER_LEAVES_HOLD
(11 R305-R310, R326, R332, R333; 13 R379; 14 R402). -/

namespace Sys2Proof.Machine

/-! ### LINK_SET (R326, R332, R379) -/

/-- Whether a command is LINK_SET with an operation and action. -/
def isLinkSet (op act : Nat) (cmd : Bytes) : Bool := isOp2 0x0014 8 op cmd && rd cmd 9 1 == act

/-- Whether a LINK_SET's reserved fields and enumerations are as Table MSG-4 has them. Under each OP only the fields that OP uses are
checked: what the others hold is not looked at (DESIGN CHOICE, log 21: the spec does not say whether they are reserved there). -/
def linkSetOk (cmd : Bytes) : Bool :=
  bodyZero cmd [(8, 1), (9, 1), (10, 2), (12, 1), (13, 1), (16, 8)] &&
    (if rd cmd 8 1 = 1 then [1, 2, 4, 8].contains (rd cmd 12 1) && decide (rd cmd 13 1 < rd cmd 12 1)
     else rd cmd 8 1 == 2 && decide (1 ≤ rd cmd 9 1 ∧ rd cmd 9 1 ≤ 3 ∧ rd cmd 10 2 < 4096))

/-- Ports a mask names, ascending. -/
def portsOf (mask : Nat) : List Nat := (List.range 12).filter (bit mask)

/-- LINK_SET GROUP with its checks behind it (R326, R379, R402). -/
def setGroup (s : State) (m : Taken) : State :=
  if !linkSetOk m.cmd then refuse s m.ctx .invalidField
  else if s.ports.any (fun p => p.st != .disabled && p.st != .down) ||
      s.parts.any (fun p => p.st != .disabled && decide (1 < p.items.groupSize)) then refuse s m.ctx .busy
  else
    let g := { s.group with id := rd m.cmd 16 8, size := rd m.cmd 12 1, index := rd m.cmd 13 1 }
    respond { s with group := g, notices := [], pins := { s.pins with coarseSet := false } } m.ctx .success []

/-- LINK_SET_GROUP: GROUP_ID, GROUP_SIZE and GROUP_INDEX set while every port is DISABLED or DOWN (R326, R379). A LINK_SET of an
unknown OP is this row's INVALID_FIELD. -/
def execLinkSetGroup (fn : Nat) (via : Via) (s : State) : Out :=
  msgRow s fn via (fun c => isOp 0x0014 c && rd c 8 1 != 2) setGroup

/-- A port started on its training (R307, R405). -/
def detectPort (s : State) (n : Nat) : State :=
  domainUp (updPort s n fun p => { clearLink p with st := .detect, since := s.boot.dtc, peer := none, limited := false, rtt := 0, leaving := none }) (portDomain n)

/-- Ports of a mask that are DISABLED or DOWN started: the first now, each later one 1,000 ticks after the one before, none while it still
sends HOLD of a warm reset (R307, R472, R480). -/
def enablePorts (s : State) (mask : Nat) : State :=
  let ns := (portsOf mask).filter fun n => (portOf s n).st == .disabled || (portOf s n).st == .down
  (ns.zipIdx).foldl (fun t e =>
    let at_ := max (s.boot.dtc + 1000 * e.2) (portOf t e.1).holdUntil
    if at_ ≤ s.boot.dtc then detectPort t e.1 else updPort t e.1 fun p => { p with startAt := some at_ }) s

/-- A port that waits to start, started once its time has come (R472). -/
def startPort (s : State) (n : Nat) : State :=
  match (portOf s n).startAt with
  | some t => if t ≤ s.boot.dtc then detectPort s n else s
  | none => s

/-- The ports whose time has come started, in ascending order. -/
def startPorts (s : State) : State := (List.range 12).foldl startPort s

/-- LINK_SET_PORT_ENABLE: the named ports leave DISABLED or DOWN for DETECT (R307). A PORT operation of an unknown ACTION is this
row's INVALID_FIELD. -/
def execLinkSetPortEnable (fn : Nat) (via : Via) (s : State) : Out :=
  msgRow s fn via (fun c => isOp2 0x0014 8 2 c && rd c 9 1 != 2 && rd c 9 1 != 3) fun s m =>
    if !linkSetOk m.cmd then refuse s m.ctx .invalidField
    else respond (enablePorts s (rd m.cmd 10 2)) m.ctx .success []

/-- LINK_SET_PORT_RETRAIN: the named ports in ACTIVE enter RECOVERY; those DOWN start again (R307, R310). -/
def execLinkSetPortRetrain (fn : Nat) (via : Via) (s : State) : Out :=
  msgRow s fn via (isLinkSet 2 3) fun s m =>
    if !linkSetOk m.cmd then refuse s m.ctx .invalidField
    else
      let s := (portsOf (rd m.cmd 10 2)).foldl (fun t n =>
        match (portOf t n).st with
        | .active => enterRecovery t n
        | .down => detectPort t n
        | _ => t) s
      respond s m.ctx .success []

/-- LINK_SET_PORT_DISABLE: the port becomes LEAVING and is drained, unless it is the last ACTIVE port to a member that a partition
spans (R332, R379). A port that carries no link is DISABLED at once; one that is DOWN stays DOWN (R307). -/
def execLinkSetPortDisable (fn : Nat) (via : Via) (s : State) : Out :=
  msgRow s fn via (isLinkSet 2 2) fun s m =>
    match portsOf (rd m.cmd 10 2) with
    | [n] =>
      if !linkSetOk m.cmd then refuse s m.ctx .invalidField
      else
        let x := portOf s n
        if x.leaving.isSome then refuse s m.ctx .busy
        else if x.st == .down then respond (updPort s n fun p => { p with startAt := none }) m.ctx .success []
        else if x.st != .active then
          respond (updPort (portPowerOff s n) n fun p => { clearLink p with st := .disabled }) m.ctx .success []
        else
          let last := match peerIndex s n with
            | some i => (bondPorts s i) == [n] && (List.range 8).any fun p => activeSpans s p i
            | none => false
          if last then refuse s m.ctx .conflict
          else leaveStep (updPort s n fun p => { p with leaving := some (m.ctx, 0) }) n
    | _ => refuse s m.ctx .invalidField

/-- PORT_DISABLE_TIMEOUT: credits or acknowledgements of a LEAVING port still outstanding 10,000 ticks after its last use are doubt
while it is ACTIVE (R332). -/
def execPortDisableTimeout (port : Nat) (s : State) : Out :=
  portRow s port <|
    let s := markIdlePorts s
    let p := portOf s port
    match p.leaving with
    | some (_, t) =>
      if t = 0 ∨ s.boot.dtc < t + 10000 then s
      else if p.st == .down then finishLeaving s port
      else if p.st == .active && !drained p then doubt s 0x0F 0xFF port 0
      else leaveStep s port
    | none => s

/-- DISABLE_REQ: with no attempt using the port here, the request is acknowledged and this end goes DISABLED (R332 step 3). -/
def execDisableReq (port : Nat) (s : State) : Out :=
  portRow s port <|
    if (portOf s port).st != .active || portInUse s port then s
    else
      let s := portSend (takeLink s port 5 fun m => m.kind == 9) port 3 (linkHeader 0x05 0x0A 0 0xFF 0 0 0 0)
      if (portOf s port).leaving.isSome then finishLeaving s port
      else updPort (portPowerOff s port) port fun p => { clearLink p with st := .disabled }

/-- DISABLE_ACK: the peer has acknowledged, and the port is DISABLED (R332 step 3). -/
def execDisableAck (port : Nat) (s : State) : Out :=
  portRow s port (if (portOf s port).disableSent then finishLeaving s port else s)

/-! ### Training (R307-R310) -/

/-- The IDENT message of a port (R308; its layout is the model's, log 19). -/
def identMsg (s : State) (n : Nat) : Bytes :=
  let part := match s.boot.part with | .swl9400 => 0x9400 | .swl9300 => 0x9300
  let body := leBytes 2 part ++ leBytes 2 0xB0 ++ leBytes 8 s.group.id ++ leBytes 1 s.group.size ++ leBytes 1 s.group.index ++
    leBytes 1 n ++ leBytes 1 (b2n (portOf s n).spare) ++ [0, 1, 2, 3].flatMap fun v => leBytes 2 (bufferOf v)
  linkHeader 0x05 0x02 24 0xFF 0 0 0 0 ++ body

/-- The lanes after ALIGN: a failed lane that passes its test is healthy, and no symbols are counted yet (R304, R305). -/
def retested (p : Port) (info : TrainInfo) : List Lane :=
  p.lanes.map fun l : Lane => { l with errs := [], failed := l.failed && info.goodLanes != 5 }

/-- LINK_INIT begun: codewords, superframes, SEQ, credits and counters set, IDENT sent (R308, R314). -/
def beginInit (s : State) (n : Nat) (info : TrainInfo) : State :=
  let s := updPort s n fun p =>
    { clearLink p with st := .linkInit, since := s.boot.dtc, rxCount := 0, lostCw := none, txStart := p.wire.length, txSteers := [], turned := []
                       peer := none, spare := info.spare && decide (info.goodLanes = 5)
                       steered := if info.spare && decide (info.goodLanes = 5) then none else p.steered, rtt := 0, limited := false
                       lanes := retested p info
                       vcs := (List.range 4).map fun v => { VcState.reset with credits := bufferOf v } }
  portSend s n 3 (identMsg s n)

/-- A PING sent, its departure noted (R309). -/
def sendPing (s : State) (n : Nat) : State :=
  portSend (updPort s n fun p => { p with pings := p.pings ++ [s.boot.dtc] }) n 3 (linkHeader 0x05 0x03 0 0xFF 0 0 0 0)

/-- A port that has measured its round trip (R309, R415); to a peer that no other port reaches, this member's state is told anew (log 24). -/
def finishRtt (s : State) (n : Nat) : State :=
  let p := portOf s n
  if p.echoes < 16 then s
  else if 120 < p.rtt then portDown s n .rttExceeded
  else
    let first := match peerIndex s n with | some i => (bondPorts s i).isEmpty | none => false
    let s := updPort (inState s n .active) n fun q => { q with limited := decide (60 < p.rtt) }
    let s := if first then retell s else s
    pumpState { s with gov := govAsk s.gov (400 + n) .standing 1 s.boot.dtc } n

/-- A port whose RECOVERY has trained four good lanes: framing found anew, and replay from the last acknowledged SEQ (R303, R310). -/
def finishRecovery (s : State) (n : Nat) (info : TrainInfo) : State :=
  if info.goodLanes < 4 then portDown s n .recoveryFailed
  else
    let s := updPort s n fun p =>
      let whole := info.spare && decide (info.goodLanes = 5)
      goBack { p with st := p.back, since := s.boot.dtc, spare := whole, steered := if whole then none else p.steered, lanes := retested p info
                      rxCount := 0, lostCw := none, txStart := p.wire.length, turned := []
                      txSteers := if whole then [] else p.txSteers }
    if (portOf s n).st == .active then pumpState { s with gov := govAsk s.gov (400 + n) .standing 1 s.boot.dtc } n else pumpState s n

/-- The limit of an attempt of a state, in ticks (Table LNK-2). -/
def stateLimit : PortState → Nat
  | .detect => 100000
  | .eq => 4000000
  | .align => 200000
  | .linkInit => 100000
  | .rtt => 10000
  | .recovery => 200000
  | _ => 0

/-- Whether the present attempt of a port's state is within its limit (R307). -/
def inLimit (s : State) (p : Port) : Bool := decide (s.boot.dtc ≤ p.since + stateLimit p.st)

/-- PORT_STATE_DONE: a training state completes within its limit and the port moves on (R307-R310). -/
def execPortStateDone (port : Nat) (info : TrainInfo) (s : State) : Out :=
  portRow s port <|
    let p := portOf s port
    if !inLimit s p then s
    else match p.st with
    | .detect => if 4 ≤ info.goodLanes ∧ s.gov.on.contains (portDomain port) = true then inState s port .eq else s
    | .eq => inState s port .align
    | .align => if 4 ≤ info.goodLanes then beginInit s port info else s
    | .linkInit => if p.peer.isSome then sendPing (inState s port .rtt) port else s
    | .rtt => finishRtt s port
    | .recovery => finishRecovery s port info
    | _ => s

/-- PORT_STATE_TIMEOUT: a state that exceeds its limit returns the port to DETECT; DETECT itself is tried again 1,000,000 ticks after
its last attempt began; a RECOVERY that fails sends the port DOWN (R307, R310). -/
def execPortStateTimeout (port : Nat) (s : State) : Out :=
  portRow s port <|
    if inLimit s (portOf s port) then s
    else match (portOf s port).st with
    | .detect => if s.boot.dtc < (portOf s port).since + 1000000 then s else inState s port .detect
    | .eq => detectPort s port
    | .align => detectPort s port
    | .linkInit => detectPort s port
    | .rtt => detectPort s port
    | .recovery => portDown s port .recoveryFailed
    | _ => s

/-- Whether a peer's IDENT matches this end's group (R308). -/
def identOk (s : State) (i : IdentInfo) : Bool :=
  i.groupId == s.group.id && i.groupSize == s.group.size && i.groupIndex != s.group.index && decide (i.groupIndex < s.group.size)

/-- IDENT: in LINK_INIT it sets the credits of each VC to what the peer advertises, or sends the port DOWN with GROUP_MISMATCH (R308). -/
def execIdent (port : Nat) (info : IdentInfo) (s : State) : Out :=
  portRow s port <|
    if (portOf s port).st != .linkInit then s
    else
      let s := takeLink s port 5 fun m => m.kind == 2
      if !identOk s info then portDown s port .groupMismatch
      else updPort s port fun p =>
        { p with peer := some info
                 vcs := (p.vcs.zipIdx).map fun e => { e.1 with credits := info.buffers.getD e.2 0 - (e.1.txFlits - e.1.rxCredits) } }

/-- PING: answered with an ECHO that carries the DTC (R309, R402). -/
def execPing (port : Nat) (s : State) : Out :=
  portRow s port <|
    if (portOf s port).st == .linkInit || (portOf s port).st == .rtt || (portOf s port).st == .active then
      portSend (takeLink s port 5 fun m => m.kind == 3) port 3 (linkHeader 0x05 0x04 8 0xFF 0 0 0 0 ++ leBytes 8 s.boot.dtc)
    else s

/-- The coarse set of the DTC from an ECHO of member 0 (R402). -/
def coarseSet (s : State) (n dtc rtt : Nat) : State :=
  if s.group.index != 0 && peerIndex s n == some 0 && !s.pins.coarseSet && !groupFormed s then
    { s with boot := { s.boot with dtc := (dtc + rtt / 2) % 2 ^ 64 }, pins := { s.pins with coarseSet := true } }
  else s

/-- ECHO: one round trip measured in RTT, the DTC set coarsely where R402 says, and the next PING sent until 16 are done (R309). -/
def execEcho (port dtc : Nat) (s : State) : Out :=
  portRow s port <|
    let p := portOf s port
    match p.st, p.pings with
    | .rtt, t :: ts =>
      let r := s.boot.dtc - t
      let s := takeLink s port 5 fun m => m.kind == 4
      let s := updPort s port fun q => { q with pings := ts, echoes := q.echoes + 1, rtt := max q.rtt r }
      let s := coarseSet s port dtc r
      if p.echoes + 1 < 16 then sendPing s port else s
    | _, _ => s

/-- PEER_LEAVES_HOLD: a port in HOLD whose peer stops sending HOLD returns to DETECT, unless this end sends HOLD itself (R333). -/
def execPeerLeavesHold (port : Nat) (s : State) : Out :=
  portRow s port (if (portOf s port).st == .hold && !(portOf s port).holding then detectPort s port else s)

/-! ### Lanes (R305, R306) -/

/-- Whether a port carries flits or is measuring its link. -/
def linkUp (p : Port) : Bool := p.st == .active || p.st == .rtt || p.st == .linkInit

/-- STEER: the peer asks for a steer, which this end agrees to and makes at its next superframe sent; or the peer agrees to the steer
this end asked for, which takes effect at the next superframe received (R305, R306). -/
def execSteer (port : Nat) (r : SteerTold) (s : State) : Out :=
  if r.lane < 4 then
    portRow s port <|
      if !linkUp (portOf s port) then s
      else
        let s := takeLink s port 5 fun m => m.kind == 5
        if r.agree then
          updPort s port fun p => if p.asked == some (r.lane, r.act) then { p with asked := none, due := some (r.lane, r.act) } else p
        else portSend (updPort s port fun p => steerTx p r.lane r.act) port 3 (steerMsg r.lane r.act true)
  else .fault .noSuchUnit

/-- The codeword that a receiver has reached (R303). -/
def cwNow (p : Port) : Nat := 2048 * p.rxCount / cwBits

/-- LANE_FAILURE: a lane that has lost lock, or whose error ratio is beyond R305's, fails. A failed position goes onto a healthy S by a
steer that the peer is asked for, a lane being recalibrated going back at once, unfinished; without one the port enters RECOVERY
(R305, R310). Position 4 is S itself. -/
def execLaneFailure (port : Nat) (r : LaneLoss) (s : State) : Out :=
  if r.lane < 5 then
    portRow s port <|
      let p := portOf s port
      let failed := fun q => updLane q r.lane fun x => { x with failed := true }
      if !linkUp p || !(r.lock || ratioBad (p.lanes.getD r.lane .reset) (cwNow p)) then s
      else if r.lane < 4 && spareFree p then askSteer (updPort s port failed) port r.lane .replace
      else if r.lane = 4 && p.steered.isNone then
        let s := updPort s port fun q => { failed q with spare := false }
        (match p.recal with
          | some k => if k < 4 then askSteer s port k .back else updPort s port fun q => { q with recal := none }
          | none => s)
      else enterRecovery (updPort s port failed) port
  else .fault .noSuchUnit

/-- Whether it is a lane's turn: a position that has had none since S had its, or S once every position has (R306). -/
def turnDue (p : Port) (lane : Nat) : Bool :=
  if lane = 4 then (List.range 4).all p.turned.contains else !p.turned.contains lane

/-- LANE_RECAL_START: a position in its turn is to be steered onto S, or S taken while it carries nothing, for recalibration; while S
replaces a failed lane the pause is counted (R306). -/
def execLaneRecalStart (port lane : Nat) (s : State) : Out :=
  if lane < 5 then
    portRow s port <|
      let p := portOf s port
      if p.st != .active || p.recal.isSome || p.asked.isSome || p.due.isSome then s
      else if p.steered.isSome then updPort s port fun p => updLane p lane fun x => { x with paused := satAdd 32 x.paused 1 }
      else if !p.spare || !turnDue p lane then s
      else if lane = 4 then updPort s port fun p => { p with recal := some 4 }
      else askSteer s port lane .recal
  else .fault .noSuchUnit

/-- A lane's turn of recalibration ended (R306). -/
def recalDone (p : Port) (lane : Nat) : Port :=
  { updLane p lane (fun x => { x with recals := satAdd 32 x.recals 1 }) with turned := if lane = 4 then [] else p.turned ++ [lane] }

/-- LANE_RECAL_DONE: a recalibrated position is steered back; one whose error ratio is bad has failed and stays on S (R305, R306). -/
def execLaneRecalDone (port lane : Nat) (good : Bool) (s : State) : Out :=
  if lane < 5 then
    portRow s port <|
      let p := portOf s port
      if p.recal != some lane || p.asked.isSome || p.due.isSome then s
      else
        let s := updPort s port fun p => recalDone p lane
        if lane = 4 then
          updPort s port fun p =>
            if good then { p with recal := none } else { updLane p 4 (fun x => { x with failed := true }) with spare := false, recal := none }
        else if good then askSteer s port lane .back
        else updPort s port fun p => steerOn p lane
  else .fault .noSuchUnit

end Sys2Proof.Machine
end

