-- ==== Sys2Proof/Machine/Resets.lean ====
section
/-! DEFINITION. Function-level, warm and cold resets, and the PCIe link: the meanings of COLD_RESET, PERST_N_ASSERT,
PERST_N_DEASSERT, PCIE_LINK_DOWN, PCIE_LINK_UP, PCIE_HOT_RESET, FLR_VF, FLR_PF, FLR_DMA_DRAINED and PARTITION_RESET
(12 R340, R364-R366; 17 R478-R481; 18 R497; 19 R506). -/

namespace Sys2Proof.Machine

/-! ### FLR (R364-R366) -/

/-- A context that answers to nobody in place of one of function n. -/
def muteCtx (n : Nat) (c : MsgCtx) : MsgCtx :=
  match c.origin with
  | .mbox f => if f = n then noCtx else c
  | .queue f _ _ => if f = n then noCtx else c
  | _ => c

/-- Every pending message of function n left without a response (R364 item 3). -/
def muteFn (s : State) (n : Nat) : State :=
  let m := muteCtx n
  { s with
    regs := s.regs.map fun r => { r with ctx := m r.ctx }
    parts := s.parts.map fun p => { p with load := p.load.map fun l => { l with ctx := m l.ctx }
                                           disable := p.disable.map fun d => { d with ctxs := d.ctxs.map m } }
    reqs := s.reqs.map fun q => { q with wantCtx := q.wantCtx.map m, exports := q.exports.map m }
    boot := { s.boot with staged := s.boot.staged.map fun f => { f with ctx := m f.ctx } }
    pins := { s.pins with mf := s.pins.mf.map fun x => { x with arming := x.arming.map fun a => (a.1, a.2.1, m a.2.2) } }
    ports := s.ports.map fun p => { p with leaving := p.leaving.map fun l => (m l.1, l.2) }
    flt := { s.flt with recCtx := s.flt.recCtx.map m }
    host := { s.host with
      forwarded := s.host.forwarded.map m
      barriers := s.host.barriers.map fun b =>
        match b.why with | .output c w body => { b with why := .output (m c) w body } | _ => b } }

/-- A request whose ring owner is in reset ended without a record, cut at the stamp, which the other members of a group are told (R364
item 2; log 24). -/
def flrEnd (s : State) (st : Nat) (q : Req) : State :=
  let s := if spans s q.part then tell s q.part (partOf s q.part).items.groupSize .cut q.h (leBytes 8 st) else s
  endSilent (updReq s q.h fun x => { x with cancel := some (match x.cancel with | some c => c | none => (st, 1)) }) q.h

/-- The FLR of one function begins; one that is under way absorbs a second. Writes held for a link that is down are discarded (R364). -/
def flrStart (s : State) (n : Nat) : State :=
  if (fnOf s n).flr.isSome || !fnEnabled s n then s
  else
    let st := s.boot.dtc
    let s := updFn (muteFn s n) n fun _ => { Fn.reset with flr := some st }
    let s := (sortBy (·.h) (s.reqs.filter fun q => q.fn == n && q.ownsRing && q.replay.isNone && living q)).foldl (fun t q => flrEnd t st q) s
    { s with host := { s.host with wins := s.host.wins.map (fun w : Win => if w.owner == n then { w with valid := false } else w)
                                   held := s.host.held.filter fun w : BusWrite => w.fn != n } }

/-- FLR_VF: the VF stops, its requests end without records, its queues and windows go (R364). -/
def execFlrVf (n : Nat) (s : State) : Out :=
  if 1 ≤ n ∧ n ≤ 15 then .next (guarded s (flrStart s n)) else .fault .noSuchUnit

/-- FLR_PF: R364 for the PF and every enabled VF; VF Enable is cleared (R365). -/
def execFlrPf (s : State) : Out :=
  .next <| guarded s <|
    let s := (List.range 16).foldl flrStart s
    { s with host := { s.host with vfs := 0 } }

/-- FLR_DMA_DRAINED: no DMA of the function is outstanding any more, and its FLR completes (R364 item 5, R366). -/
def execFlrDmaDrained (fn : Nat) (s : State) : Out :=
  inRange fn 16 <| guarded s <|
    if (fnOf s fn).flr.isNone then s
    else
      let s := { s with host := { s.host with reads := s.host.reads.filter (fun r : DmaRead => r.fn != fn)
                                              barriers := s.host.barriers.filter fun b : Barrier => b.fn != fn || b.why == .quarantine } }
      updFn s fn fun f => { f with flr := none }

/-! ### The PCIe data link (R340) -/

/-- PCIE_LINK_DOWN: writes are held from now on; freezes, commits and transfers wait (R340). -/
def execPcieLinkDown (s : State) : Out := .next (guarded s { s with host := { s.host with linkUp := false } })

/-- PCIE_LINK_UP: held writes are issued in order, then waiting work goes on (R340). -/
def execPcieLinkUp (s : State) : Out :=
  .next <| guarded s <|
    if s.host.linkUp || !s.boot.pllLocked || s.boot.perst then s
    else rearm { s with host := { s.host with linkUp := true, bus := s.host.bus ++ s.host.held, held := [] } }

/-! ### Warm and cold resets (R478-R480, Table BRU-7) -/

/-- The default power limit of a part (R409). -/
def defaultGov (p : PartNo) : Gov :=
  match p with
  | .swl9400 => .reset
  | .swl9300 => { Gov.reset with limitW := 1200, bEffLast := 2175 }

/-- The parts of the package that a cold and a warm reset clear alike, with the boot block the reset leaves; fuses, non-volatile
words and the fault log stay, and a new scrub pass starts (R257, R479, R442). -/
def resetTo (s : State) (b : Boot) : State :=
  { State.reset with
    boot := b
    flt := { Flt.reset with log := s.flt.log, logCount := s.flt.logCount, logClearedAt := s.flt.logClearedAt }
    pins := { Pins.reset with throttle := s.pins.throttle, vFuse := s.pins.vFuse }
    gov := defaultGov s.boot.part
    host := { HostIf.reset with smbPtr := s.host.smbPtr, smbData := s.host.smbData, readData := s.host.readData }
    tele := { State.reset.tele with scrubStart := b.dtc }
    freeCtr := s.freeCtr
    pending := s.pending }

/-- What of the boot block outlives every reset: fuses, CUR_FW, PREV_FW, BOOT_EPOCH, the flash writes made (R470, R479). -/
def bootKept (b : Boot) : Boot :=
  { Boot.reset with part := b.part, disabledDie := b.disabledDie, romVersion := b.romVersion, keyHashes := b.keyHashes
                    revoked := b.revoked, minSvn := b.minSvn, deviceSecret := b.deviceSecret, debugKeyHash := b.debugKeyHash
                    lock := if b.lock == .debug then .locked else b.lock, curFw := b.curFw, prevFw := b.prevFw, epoch := b.epoch
                    flashOut := b.flashOut, perst := b.perst }

/-- COLD_RESET: PWR_GOOD low for 10 microseconds; the boot starts over when it rises (R478, R506). -/
def execColdReset (s : State) : Out := .next (resetTo s (bootKept s.boot))

/-- A port at a warm reset: DISABLED and cleared; one that is not DISABLED or DOWN sends HOLD for 10,000 ticks more (R479, R480). -/
def portWarm (now : Nat) (p : Port) : Port :=
  if p.st == .disabled || p.st == .down then { Port.reset with holdUntil := p.holdUntil } else { Port.reset with holdUntil := now + 10000 }

/-- A warm reset: the DTC counts on and the PLL stays locked; the boot ROM runs again (R479), while every peer sees HOLD before the
transmitters go off (R480). -/
def warmReset (s : State) : State :=
  let t := resetTo s { bootKept s.boot with dtc := s.boot.dtc, pllLocked := s.boot.pllLocked, pwrGood := s.boot.pwrGood
                                            keyBar := s.boot.keyBar, cold := false
                                            stage := if s.boot.pllLocked || s.boot.stage != .pllFail then .rom else .pllFail }
  { t with ports := s.ports.map (portWarm s.boot.dtc) }

/-- PERST_N_ASSERT: a warm reset if PWR_GOOD is high; the pin is recognised as asserted (R478, R480, R506). -/
def execPerstNAssert (s : State) : Out :=
  let t := { s with boot := { s.boot with perst := true } }
  .next (if s.boot.perst || !s.boot.pwrGood then t else warmReset t)

/-- PERST_N_DEASSERT: the endpoint may train (R465); a pin-driving boundary-scan instruction no longer acts (R461). -/
def execPerstNDeassert (s : State) : Out :=
  .next { s with boot := { s.boot with perst := false, extest := if s.boot.lock == .manufacturing then s.boot.extest else none } }

/-- PCIE_HOT_RESET: a hot reset or link disable is a warm reset (R340, R478). -/
def execPcieHotReset (s : State) : Out := .next (if s.boot.pwrGood then warmReset s else s)

/-! ### Partition reset (R481, R497) -/

/-- The partition reset register written with a key and a partition number; an ignored write is counted (R497). -/
def partitionReset (s : State) (value : Nat) : State :=
  let p := bits value 2 0
  let x := partOf s p
  if bits value 31 16 != 0xC1EA || x.st == .disabled || x.resetting || s.flt.pkg == .uncontained then
    { s with flt := { s.flt with resetIgnored := (s.flt.resetIgnored + 1) % 2 ^ 32 } }
  else resetPart s p

/-- PARTITION_RESET: a keyed PF write resets a partition (R481, R497). In UNCONTAINED the write is counted and nothing else. -/
def execPartitionReset (value : Nat) (s : State) : Out := .next (partitionReset s value)

end Sys2Proof.Machine
end

