-- ==== Sys2Proof/Machine/Queues.lean ====
section
/-! DEFINITION. Mailboxes, queues, host reads and barriers: the meanings of QUEUE_CREATE, QUEUE_DELETE, INVALID_OPCODE,
MAILBOX_DOORBELL, SQ_TAIL_WRITE, CQ_HEAD_WRITE, SQ_ENTRY_FETCH, DMA_READ_COMPLETION, COMPLETION_BARRIER_DONE, CIDX_POLL,
CIDX_READ_DONE, RING_IRQ_TICKS and VECTOR_HOLDOFF_END (06 R166, R169, R171; 12 R339, R350-R363; 13 R378). -/

namespace Sys2Proof.Machine

/-! ### QUEUE_CREATE and QUEUE_DELETE (R354, Table MSG-4) -/

/-- Whether QUEUE_CREATE's fields are in range; fields of the other kind are reserved (R354, R371; log 21). -/
def queueFieldsOk (s : State) (fn : Nat) (c : Bytes) : Bool :=
  let log2 := rd c 10 1
  let common := decide (rd c 9 1 < 16) && decide (4 ≤ log2 ∧ log2 ≤ 12) && rd c 16 8 % 4096 == 0
  if rd c 8 1 = 1 then
    common && bodyZero c [(8, 4), (16, 8)] && (cqOf s fn (rd c 11 1)).isSome && (sqOf s fn (rd c 9 1)).isNone
  else if rd c 8 1 = 2 then
    let v := rd c 12 2
    common && bodyZero c [(8, 3), (12, 2), (16, 16)] && rd c 24 8 % 64 == 0 && (decide (1 ≤ v ∧ v ≤ 127) || v == 0xFFFF) &&
      (cqOf s fn (rd c 9 1)).isNone
  else false

/-- The queue a QUEUE_CREATE makes. -/
def addQueue (s : State) (fn : Nat) (c : Bytes) : State :=
  if rd c 8 1 = 1 then
    updFn s fn fun f => { f with sqs := insertBy (·.qid) { qid := rd c 9 1, base := rd c 16 8, log2 := rd c 10 1, cqid := rd c 11 1, tail := 0
                                                           head := 0, fetching := 0, fetched := [], stopped := false } f.sqs }
  else
    updFn s fn fun f => { f with cqs := insertBy (·.qid) { qid := rd c 9 1, base := rd c 16 8, log2 := rd c 10 1, ctrl := rd c 24 8
                                                           vector := rd c 12 2, pidx := 0, head := 0, reserved := 0 } f.cqs }

/-- QUEUE_CREATE: a submission or completion queue of the sending function (R354). -/
def execQueueCreate (fn : Nat) (via : Via) (s : State) : Out :=
  msgRow s fn via (isOp 0x0001) fun s m =>
    if queueFieldsOk s m.fn m.cmd then respond (addQueue s m.fn m.cmd) m.ctx .success [] else refuse s m.ctx .invalidField

/-- Whether a read in flight is for an entry of SQ q of a function. -/
def readsSq (fn q : Nat) (r : DmaRead) : Bool :=
  match r.why with
  | .sqEntry f k _ => f == fn && k == q
  | .cidx _ _ => false

/-- An SQ gone: entries fetched or being fetched are discarded and their CQ slots freed (R354, R356). -/
def dropSq (s : State) (fn : Nat) (x : Sq) : State :=
  let s := { s with host := { s.host with reads := s.host.reads.filter fun r => !readsSq fn x.qid r } }
  let s := updCq s fn x.cqid fun c => { c with reserved := c.reserved - (x.fetching + x.fetched.length) }
  updFn s fn fun f => { f with sqs := f.sqs.filter fun y => y.qid != x.qid }

/-- QUEUE_DELETE: an SQ with its untaken entries, or a CQ that nothing is bound to or reserved in (R354). -/
def execQueueDelete (fn : Nat) (via : Via) (s : State) : Out :=
  msgRow s fn via (isOp 0x0002) fun s m =>
    let q := rd m.cmd 9 1
    if !bodyZero m.cmd [(8, 2)] then refuse s m.ctx .invalidField
    else if rd m.cmd 8 1 = 1 then
      (match sqOf s m.fn q with
        | none => refuse s m.ctx .invalidField
        | some x =>
          if (match m.ctx.origin with | .queue _ k _ => k == q | _ => false) then refuse s m.ctx .busy
          else respond (dropSq s m.fn x) m.ctx .success [])
    else if rd m.cmd 8 1 = 2 then
      (match cqOf s m.fn q with
        | none => refuse s m.ctx .invalidField
        | some x =>
          if 0 < x.reserved ∨ (fnOf s m.fn).sqs.any (fun y => y.cqid == q) = true then refuse s m.ctx .busy
          else respond (updFn s m.fn fun f => { f with cqs := f.cqs.filter fun y => y.qid != q }) m.ctx .success [])
    else refuse s m.ctx .invalidField

/-- INVALID_OPCODE: a taken message with an unknown opcode completes INVALID_OPCODE (R350). -/
def execInvalidOpcode (fn : Nat) (via : Via) (s : State) : Out :=
  msgRow s fn via (fun c => (classOf (rd c 0 2)).isNone) fun s m => refuse s m.ctx .invalidOpcode

/-! ### Doorbells (R353, R355, R436, R477) -/

/-- A DOORBELL write (R353): SEQ and BUSY, or OVERRUN. The front end answers it in UNCONTAINED and after a boot failure (R436, R477). -/
def doorbell (s : State) (fn value : Nat) : State :=
  let f := fnOf s fn
  if !fnEnabled s fn || f.flr.isSome then s
  else if f.mbox.st == .busy then updFn s fn fun f => { f with mbox := { f.mbox with overrun := true } }
  else
    let s := updFn s fn fun f => { f with mbox := { f.mbox with seq := value % 65536, st := .busy, taken := false } }
    if s.flt.pkg == .uncontained || bootFailed s.boot.stage then refuse s (ctxOf (.mbox fn) f.mbox.cmd 0) .deviceQuarantined else s

/-- MAILBOX_DOORBELL: the CMD slot is passed to firmware (R353). -/
def execMailboxDoorbell (fn value : Nat) (s : State) : Out := inRange fn 16 (doorbell s fn value)

/-- A distance of free-running 32-bit counts. -/
def dist32 (a b : Nat) : Nat := (a % 2 ^ 32 + (2 ^ 32 - b % 2 ^ 32)) % 2 ^ 32

/-- SQ_TAIL of queue q written; an invalid value, or one for a queue that does not exist, is counted (R355; log 21). -/
def sqTail (s : State) (fn q value : Nat) : State :=
  if !fnEnabled s fn || (fnOf s fn).flr.isSome then s
  else match sqOf s fn q with
    | some x =>
      if dist32 value x.head ≤ 2 ^ x.log2 ∧ dist32 x.tail x.head ≤ dist32 value x.head then
        updSq s fn q fun y => { y with tail := value % 2 ^ 32 }
      else { s with host := { s.host with sqTailInvalid := satAdd 64 s.host.sqTailInvalid 1 } }
    | none => { s with host := { s.host with sqTailInvalid := satAdd 64 s.host.sqTailInvalid 1 } }

/-- SQ_TAIL_WRITE (R355). -/
def execSqTailWrite (fn q value : Nat) (s : State) : Out :=
  if q < 16 then inRange fn 16 (guarded s (sqTail s fn q value)) else .fault .noSuchUnit

/-- CQ_HEAD of queue q written; the validity rule is that of SQ_TAIL against PIDX (R355). -/
def cqHead (s : State) (fn q value : Nat) : State :=
  if !fnEnabled s fn || (fnOf s fn).flr.isSome then s
  else match cqOf s fn q with
    | some x =>
      if dist32 value x.head ≤ dist32 x.pidx x.head then updCq s fn q fun y => { y with head := value % 2 ^ 32 }
      else { s with host := { s.host with cqHeadInvalid := satAdd 64 s.host.cqHeadInvalid 1 } }
    | none => { s with host := { s.host with cqHeadInvalid := satAdd 64 s.host.cqHeadInvalid 1 } }

/-- CQ_HEAD_WRITE (R355). -/
def execCqHeadWrite (fn q value : Nat) (s : State) : Out :=
  if q < 16 then inRange fn 16 (guarded s (cqHead s fn q value)) else .fault .noSuchUnit

/-! ### Host reads (R339, R356, R358) -/

/-- A DMA read issued for something (R338). -/
def issueRead (s : State) (fn : Nat) (why : ReadFor) : State :=
  { s with host := { s.host with reads := s.host.reads ++ [{ tag := s.host.nextTag, fn := fn, why := why }]
                                 nextTag := s.host.nextTag + 1 } }

/-- Whether the endpoint may read host memory through a function (R340, R364, R428). -/
def mayRead (s : State) (fn : Nat) : Bool :=
  s.host.linkUp && s.flt.dma && s.flt.pkg == .serving && (fnOf s fn).flr.isNone

/-- SQ_ENTRY_FETCH: the next announced entry is read once a slot of the CQ is reserved for it, one entry of an SQ at a time (R356). -/
def execSqEntryFetch (fn q : Nat) (s : State) : Out :=
  inRange fn 16 <| guarded s <|
    match sqOf s fn q with
    | none => s
    | some x =>
      match cqOf s fn x.cqid with
      | none => s
      | some c =>
        let free := 2 ^ c.log2 - dist32 c.pidx c.head
        if !mayRead s fn || !fwServes s || x.stopped || 0 < x.fetching || x.head % 2 ^ 32 == x.tail || free ≤ c.reserved then s
        else
          let s := updCq s fn x.cqid fun y => { y with reserved := y.reserved + 1 }
          issueRead (updSq s fn q fun y => { y with fetching := 1 }) fn (.sqEntry fn q 0)

/-- A failed entry read after its retries: the SQ stops, QUEUE_FAULT completes, and the SQ's cause bits are set (R358, R493). -/
def stopSq (s : State) (fn q : Nat) : State :=
  match sqOf s fn q with
  | none => s
  | some x =>
    let s := updSq s fn q fun y => { y with fetching := 0, stopped := true }
    let s := cqPost s fn x.cqid fun ph =>
      leBytes 2 0 ++ leBytes 2 0xFFFF ++ leBytes 2 (codeVal .queueFault) ++ leBytes 1 q ++ leBytes 1 ph ++ leBytes 8 0 ++
        leBytes 4 (x.head % 2 ^ 32) ++ zeroBytes 44
    signal (updFn s fn fun f => { f with causeSq := true, sqFaulted := setBit f.sqFaulted q }) fn 0

/-- An SQ entry's read returned (R356, R358). -/
def entryRead (s : State) (fn q tries : Nat) (data : ReadResult) : State :=
  match sqOf s fn q, data with
  | none, _ => s
  | some _, some bs => updSq s fn q fun y => { y with fetching := 0, head := (y.head + 1) % 2 ^ 32, fetched := y.fetched ++ [slice bs 0 64] }
  | some _, none => if tries < 2 then issueRead s fn (.sqEntry fn q (tries + 1)) else stopSq s fn q

/-! ### CIDX (R166, R169) -/

/-- Whether a request's journal has not got the entries a plan needs, so that its CIDX is worth reading (R169, R187). -/
def wantsCidx (q : Req) (journal : Bool) : Bool :=
  if journal then decide (jrnFree q < 8) || !q.jrn.waiting.isEmpty else decide (recFree q < 4)

/-- CIDX_POLL: a read of the CIDX of a ring or journal that is low or holds a request back (R169). -/
def execCidxPoll (h : Nat) (journal : Bool) (s : State) : Out :=
  .next <| guarded s <|
    match reqOf s h with
    | none => s
    | some q =>
      let out := s.host.reads.any fun r => r.why == .cidx h journal
      if !living q || !q.ownsRing || q.replay.isSome || out || !mayRead s q.fn || !wantsCidx q journal then s
      else issueRead s q.fn (.cidx h journal)

/-- Whether a ring or a journal holds a request back (R167, R187). -/
def heldBack (q : Req) (journal : Bool) : Bool :=
  if journal then decide (jrnFree q < 8) || !q.jrn.waiting.isEmpty else decide (recFree q < 2)

/-- A CIDX value taken over if it is valid, an invalid one counted; waiting entries are written, and an idle partition wakes (R108,
R166, R169, R187). -/
def cidxValue (s : State) (h : Nat) (journal : Bool) (v : Nat) : State :=
  match reqOf s h with
  | none => s
  | some q =>
    let r := if journal then q.jrn.ring else q.ring
    if !living q then s
    else if !cidxOk r v then
      if journal then updReq s h fun x => { x with jrnErrs := satAdd 64 x.jrnErrs 1 }
      else
        updTenant (updReq s h fun x => { x with ringErrs := satAdd 64 x.ringErrs 1 }) q.tenant fun t =>
          { t with ringErrs := satAdd 64 t.ringErrs 1 }
    else
      let s := if journal then jrnDrain (updReq s h fun x => { x with jrn := { x.jrn with ring := { x.jrn.ring with cidx := v } } }) h
        else updReq s h fun x => { x with ring := { x.ring with cidx := v } }
      match reqOf s h with
      | some x => if q.conv == .live && heldBack q journal && !heldBack x journal then wake s q.part s.boot.dtc else s
      | none => s

/-- A CIDX read in flight no more. -/
def dropCidxRead (s : State) (h : Nat) (journal : Bool) : State :=
  { s with host := { s.host with reads := s.host.reads.filter fun r => r.why != .cidx h journal } }

/-- CIDX_READ_DONE: a returned CIDX is validated; a failed read changes nothing (R166, R169, R339). -/
def execCidxReadDone (h : Nat) (journal : Bool) (value : Option Nat) (s : State) : Out :=
  .next <| guarded s <|
    let s := dropCidxRead s h journal
    match value with
    | some v => cidxValue s h journal (v % 2 ^ 32)
    | none => s

/-- DMA_READ_COMPLETION: a host read returns to what issued it (R339). -/
def execDmaReadCompletion (tag : Nat) (data : ReadResult) (s : State) : Out :=
  .next <| guarded s <|
    match s.host.reads.find? fun r => r.tag == tag with
    | none => s
    | some r =>
      let s := { s with host := { s.host with reads := s.host.reads.filter fun x : DmaRead => x.tag != tag } }
      match r.why with
      | .cidx h j => (match data with | some bs => cidxValue s h j (rd bs 0 4) | none => s)
      | .sqEntry fn q n => entryRead s fn q n data

/-! ### Barriers (R361) -/

/-- COMPLETION_BARRIER_DONE: the writes before a barrier have reached the host, or a read that failed counts as a failed write of the
last of them (R144, R361, R428 item 6). -/
def execCompletionBarrierDone (tag : Nat) (ok : Bool) (s : State) : Out :=
  .next <| guarded s <|
    match s.host.barriers.find? fun b => b.tag == tag with
    | none => s
    | some b =>
      let s := { s with host := { s.host with barriers := s.host.barriers.filter fun x : Barrier => x.tag != tag } }
      match b.why with
      | .none => s
      | .output c _ body =>
        let s := if c.opcode = 0x0090 then updFn s b.fn fun f => { f with spdmPending := false } else s
        respond s c (if ok then .success else .descFault) body
      | .quarantine =>
        if s.flt.pkg == .entering && !(s.host.barriers.any fun x => x.why == .quarantine) then waitedResets (goQuiet s) else s
      | .park h =>
        match reqOf s h with
        | none => s
        | some q => match q.parking with
          | none => s
          | some k =>
            if ok then updReq s h fun x => { x with parking := some { k with barrier := true } } else rewritePart s h (k.parts.length - 1)

/-! ### Interrupts (R171, R362) -/

/-- RING_IRQ_TICKS: IRQ_TICKS after the first record since the last interrupt the ring's vector is signalled (R171). -/
def execRingIrqTicks (h : Nat) (s : State) : Out :=
  .next <| guarded s <|
    match reqOf s h with
    | none => s
    | some q =>
      if q.irqTicks != 0 && decide (0 < q.irqPend) && decide (q.irqFirst + q.irqTicks ≤ s.boot.dtc) then ringIrq s h true else s

/-- VECTOR_HOLDOFF_END: a running holdoff ends and a pending message is sent (R362). -/
def execVectorHoldoffEnd (fn v : Nat) (s : State) : Out :=
  if v < 128 then
    inRange fn 16 <| guarded s <|
      match (vecOf s fn v).running with
      | some t => if t ≤ s.boot.dtc then trySend (updVec s fn v fun x => { x with running := none }) fn v else s
      | none => s
  else .fault .noSuchUnit

end Sys2Proof.Machine
end

