-- ==== Sys2Proof/Machine/Power.lean ====
section
/-! DEFINITION. The Power Governor, thermal sensing, core voltage and power domains: the meanings of POWER_LIMIT_SET,
POWER_GOVERNOR_TICK, PERMIT_GRANTED, DOMAIN_UP_DONE, THROTTLE_N_ASSERT, THROTTLE_N_DEASSERT, THERMAL_SAMPLE,
THERMAL_TRIP_CLEAR, VCORE_REQUEST_UPDATE, VCORE_HOLD and VCORE_HOLD_RELEASE (14 §4-§8; 19 R517, R518). -/

namespace Sys2Proof.Machine

/-! ### The budget (R409) -/

/-- POWER_LIMIT_SET: LIMIT_W set, in effect at acceptance; the response reports B_limit (R409, Table MSG-4). -/
def execPowerLimitSet (fn : Nat) (via : Via) (s : State) : Out :=
  msgRow s fn via (isOp 0x0081) fun s m =>
    let w := rd m.cmd 8 2
    if !bodyZero m.cmd [(8, 2)] || !decide (800 ≤ w ∧ w ≤ 2000) then refuse s m.ctx .invalidField
    else
      let s := { s with gov := { s.gov with limitW := w } }
      respond s m.ctx .success (leBytes 4 (bLimit s))

/-! ### The tick of R413 and R417 -/

/-- Position of a class in the order permits are revoked (R417). -/
def revokeRank : PClass → Nat
  | .amvu => 1
  | .sinter => 2
  | .linkTrain => 3
  | .hbmTrain => 4
  | .domainUp => 9
  | .standing => 9
  | _ => 0

/-- The compute die of a cluster's requester index (R411). -/
def dieOfReq (req : Nat) : Nat := req % 192 / 48

/-- Whether a permit's requester is a cluster. -/
def clusterReq (c : PClass) : Bool := c == .amvu || c == .array4 || c == .array8 || c == .array16

/-- Whether a class is admitted: not to a die in HOLD (R518), and in a harmless state only HBM_TRAIN, STANDING and what brings a
domain up (R428 item 1, R407). -/
def admits (s : State) (r : PReq) : Bool :=
  !(clusterReq r.cls && s.pins.vHold.getD (dieOfReq r.req) false) &&
    (s.flt.pkg == .serving || r.cls == .hbmTrain || r.cls == .standing || r.cls == .domainUp)

/-- The next permit to revoke: class order, then the latest grant, then the highest requester (R417). -/
def worst (ps : List Permit) : Option Permit :=
  ps.foldl (fun b p =>
    if unrevoked p.cls then b
    else match b with
      | none => some p
      | some q =>
        let kp := revokeRank p.cls
        let kq := revokeRank q.cls
        if kp < kq ∨ (kp = kq ∧ (q.at_ < p.at_ ∨ (q.at_ = p.at_ ∧ q.req < p.req))) then some p else b) none

/-- A permit taken back; its holder asks for it again at once (R417). -/
def revokeOne (g : Gov) (now : Nat) (p : Permit) : Gov :=
  govAsk { g with g := g.g - p.du, permits := g.permits.filter (· != p) } p.req p.cls p.du now

/-- Permits revoked until G is at most b; the fuel is their number. -/
def revokeTo (b now : Nat) : Nat → Gov → Gov
  | 0, g => g
  | n + 1, g =>
    if g.g ≤ b then g
    else match worst g.permits with
      | none => g
      | some p => revokeTo b now n (revokeOne g now p)

/-- Admissions withdrawn, then permits revoked, while G exceeds B_eff (R417). -/
def revoke (g : Gov) (b now : Nat) : Gov :=
  if g.g ≤ b then g
  else
    let adm := admittedDu g
    let g := { g with g := g.g - adm, queue := g.queue.map fun r : PReq => { r with admitted := 0 } }
    revokeTo b now g.permits.length g

/-- Requests that arrived put behind the queue, by requester index (R413 item 2). -/
def enqueue (g : Gov) : Gov := { g with queue := g.queue ++ sortBy (·.req) g.arrivals, arrivals := [] }

/-- Up to k DU admitted in queue order, to requests whose whole remaining need fits; the fuel is the queue's length (R413 item 3). -/
def admitReqs (ok : PReq → Bool) (b : Nat) : Nat → Nat → List PReq → Nat → List PReq × Nat
  | 0, _, q, g => (q, g)
  | _, 0, q, g => (q, g)
  | _, _, [], g => ([], g)
  | f + 1, k, r :: rs, g =>
    if !ok r then
      let t := admitReqs ok b f k rs g
      (r :: t.1, t.2)
    else
      let need := r.du - r.admitted
      if b < g + need then (r :: rs, g)
      else
        let a := min k need
        let r := { r with admitted := r.admitted + a }
        if r.admitted < r.du then (r :: rs, g + a)
        else
          let t := admitReqs ok b f (k - a) rs (g + a)
          (r :: t.1, t.2)

/-- Requests wholly admitted become permits (R413 item 4). -/
def grant (g : Gov) (now : Nat) : Gov :=
  let full := fun r : PReq => decide (r.du ≤ r.admitted)
  { g with queue := g.queue.filter fun r => !full r
           permits := g.permits ++ (g.queue.filter full).map fun r =>
             { req := r.req, cls := r.cls, du := r.du, at_ := now, delivered := false : Permit } }

/-- One tick of the Power Governor (R413, R417); nothing is admitted while G exceeds B_eff. -/
def govTick (s : State) : Gov :=
  let b := bEff s
  let now := s.boot.dtc
  let g := { s.gov with g := s.gov.g - s.gov.releases, releases := 0, bEffLast := b
                        bEffAt := if b < s.gov.bEffLast then now else s.gov.bEffAt }
  let g := enqueue (revoke g b now)
  if b < g.g then g
  else
    let a := admitReqs (admits s) b g.queue.length 4 g.queue g.g
    grant { g with queue := a.1, g := a.2 } now

/-- POWER_GOVERNOR_TICK (R413). Ports whose train permit was revoked stop their trains (R417). -/
def execPowerGovernorTick (s : State) : Out :=
  .next <| guarded s <|
    let g := govTick s
    { s with gov := g
             ports := (s.ports.zipIdx).map fun e =>
               if g.permits.any fun p => p.req == 400 + e.2 && p.cls == .linkTrain then e.1 else { e.1 with permit := false } }

/-- Array permits of one cluster joined into the higher class (R412). -/
def mergeArray (g : Gov) (p : Permit) : Gov :=
  let isArr := fun x : Permit => x.req == p.req && (x.cls == .array4 || x.cls == .array8 || x.cls == .array16) && x.delivered
  match g.permits.find? isArr with
  | none => g
  | some x =>
    let c := if x.cls == .array4 || p.cls == .array4 then PClass.array4 else if x.cls == .array8 || p.cls == .array8 then .array8 else .array16
    { g with permits := (g.permits.filter fun y => !(isArr y) && !(y.req == p.req && y.cls == p.cls)) ++ [{ p with cls := c, du := x.du + p.du }] }

/-- PERMIT_GRANTED: grants reach their requester, which may start its heavy operation (R413, R415, R316). A Sinter run that only appends granules ends
with its grant and gives the permit back; one that completes a frame ends with SINTER_FRAME_SEALED (R245). -/
def execPermitGranted (req : Nat) (s : State) : Out :=
  inRange req 639 <| guarded s <|
    let new := s.gov.permits.filter fun p => p.req == req && !p.delivered
    let g := new.foldl (fun g p =>
      let g := { g with permits := g.permits.map fun x : Permit => if x == p then { x with delivered := false } else x }
      let d := { p with delivered := true }
      let g := if clusterReq p.cls && p.cls != .amvu then mergeArray g d else g
      { g with permits := g.permits.map fun x : Permit => if x == p then d else x }) s.gov
    let s := { s with gov := g }
    if 400 ≤ req ∧ req < 412 then
      let has := fun c => g.permits.any fun p => p.req == req && p.cls == c && p.delivered
      if has .standing && has .linkTrain then pumpState (updPort s (req - 400) fun p => { p with permit := true }) (req - 400) else s
    else if 392 ≤ req ∧ req < 400 ∧ sealWaits s (req - 392) = false then { s with gov := govDrop s.gov req .sinter }
    else s

/-! ### Power domains (R405-R408) -/

/-- Whether a domain can be switched on in this part (R408). -/
def domainExists (s : State) (d : Nat) : Bool :=
  decide (d < 227) &&
    (s.boot.part == .swl9400 ||
      !(decide (144 ≤ d ∧ d < 192) || d == 195 || d == 199 || d == 206 || d == 207))

/-- DOMAIN_UP_DONE: a domain whose DOMAIN_UP permit is held completes its power-up and gives the permit back; a cluster's store and
registers read zero (R406, R407). -/
def execDomainUpDone (dom : Nat) (s : State) : Out :=
  inRange dom 227 <| guarded s <|
    let held := s.gov.permits.any fun p => p.req == 412 + dom && p.cls == .domainUp && p.delivered
    if !s.gov.rising.contains dom || !held || !domainExists s dom then s
    else
      let g := { govDropReq s.gov (412 + dom) with on := s.gov.on ++ [dom], rising := s.gov.rising.filter (· != dom) }
      let s := { s with gov := g }
      if dom < 192 then dropCluster s dom else s

/-! ### THROTTLE_N (R419, R420) -/

/-- THROTTLE_N_ASSERT: the filtered input asserts and the assertion is counted (R419, R420). -/
def execThrottleNAssert (s : State) : Out :=
  .next <| guarded s <|
    if s.pins.throttle then s
    else { s with pins := { s.pins with throttle := true, throttleCount := (s.pins.throttleCount + 1) % 2 ^ 32 } }

/-- THROTTLE_N_DEASSERT: the filtered input deasserts (R419). -/
def execThrottleNDeassert (s : State) : Out := .next (guarded s { s with pins := { s.pins with throttle := false } })

/-! ### Thermal (R421, R422) -/

/-- The highest reading, readings being in whole degrees. -/
def maxInt : List Int → Int → Int
  | [], m => m
  | x :: xs, m => maxInt xs (max x m)

/-- THERMAL_SAMPLE: T_max from every sensor; 110 C or more is a trip, doubt of the die the hot sensor lies on (R421, R422). -/
def execThermalSample (cd hub : List Int) (s : State) : Out :=
  .next <| guarded s <|
    match cd ++ hub with
    | [] => s
    | x :: xs =>
      let m := maxInt xs x
      let s := { s with pins := { s.pins with tMax := m }
                        flt := { s.flt with coolSince := if m < 100 then (match s.flt.coolSince with | some t => some t | none => some s.boot.dtc) else none } }
      if m < 110 then s
      else
        let first := !s.flt.trip
        let hubHot := hub.any fun t => decide (110 ≤ t)
        let s := { s with flt := { s.flt with trip := true, tripHub := s.flt.tripHub || hubHot } }
        if !first && !hubHot then s
        else if hubHot then doubtUncontained s 0x12 0xFF (match (hub.zipIdx).find? fun e => decide (110 ≤ e.1) with | some e => e.2 | none => 0) 0
        else doubt s 0x11 0xFF (match (cd.zipIdx).find? fun e => decide (110 ≤ e.1) with | some e => e.2 / 4 | none => 0) 0

/-- THERMAL_TRIP_CLEAR: T_max below 100 C for 100,000 ticks clears the trip; a recovery that waited for it goes on (R422, R433). -/
def execThermalTripClear (s : State) : Out :=
  .next <| guarded s <|
    match s.flt.coolSince with
    | some t =>
      if s.flt.trip && decide (t + 100000 ≤ s.boot.dtc) then
        { s with flt := { s.flt with trip := false, tripHub := false, recStep := if s.flt.recStep == .cause then .verify else s.flt.recStep } }
      else s
    | none => s

/-! ### Core voltage (R517, R518) -/

/-- The band of a temperature (R517). -/
def bandOf (t : Int) : Nat := if t ≤ 60 then 0 else if t ≤ 80 then 1 else if t ≤ 95 then 2 else 3

/-- VCORE_REQUEST_UPDATE: V_req of each die from its fused base and the band of T_max + 10, rising by at most one band (R517). -/
def execVcoreRequestUpdate (s : State) : Out :=
  .next <| guarded s <|
    let b := bandOf (s.pins.tMax + 10)
    { s with pins := { s.pins with vReq := (s.pins.vFuse.zip s.pins.vReq).map fun e =>
        let v := e.1 + 10 * b
        if e.2 + 10 < v then e.2 + 10 else v } }

/-- Permits of a die's clusters revoked (R518). -/
def revokeDie (g : Gov) (die now : Nat) : Gov :=
  (g.permits.filter fun p => clusterReq p.cls && dieOfReq p.req == die).foldl (fun g p => revokeOne g now p) g

/-- VCORE_HOLD: a die whose sensed voltage is low gives up its clusters' permits and gets none (R518). -/
def execVcoreHold (die : Nat) (s : State) : Out :=
  inRange die 4 <| guarded s <|
    { s with pins := { s.pins with vHold := s.pins.vHold.set die true }, gov := revokeDie s.gov die s.boot.dtc }

/-- VCORE_HOLD_RELEASE: the die's permits are admitted again (R518). -/
def execVcoreHoldRelease (die : Nat) (s : State) : Out :=
  inRange die 4 (guarded s { s with pins := { s.pins with vHold := s.pins.vHold.set die false } })

end Sys2Proof.Machine
end

