-- ==== Sys2Proof/Machine/Registers.lean ====
section
/-! DEFINITION. The BARs: the meanings of WINDOW_VALID_SET, WINDOW_VALID_CLEAR, MSIX_VECTOR_UNMASK, LOG_CLEAR, DTC_LO_READ,
DTC_HI_READ, REGISTER_WRITE, SMBUS_POINTER and SMBUS_READ (12 R339, R345-R348, R352-R355, R363; 18; 19 R513). -/

namespace Sys2Proof.Machine

/-! ### Windows (R345-R348) -/

/-- Whether a descriptor's fields let VALID be set (R346). DESIGN CHOICE (log 78): the reserved bits USE[7:3] are stored as written, and a
descriptor with one of them set is not in range. -/
def winFieldsOk (s : State) (w : Win) : Bool :=
  let page := 2 ^ w.pageLog2
  [12, 16, 21, 30].contains w.pageLog2 && w.table % 4096 == 0 && decide (0 < w.length ∧ w.length ≤ 2 ^ 36 ∧ w.length % page = 0) &&
    decide (w.owner < 16) && fnEnabled s w.owner && decide (w.use < 8) &&
    !(bit w.use 2 && s.host.wins.any fun v => v.d != w.d && v.d / 64 == w.d / 64 && v.valid && bit v.use 2)

/-- VALID of descriptor d set, or refused with ERROR (R346). -/
def winSet (s : State) (d : Nat) : State :=
  let w := winOf s d
  if w.valid then s
  else if winFieldsOk s w then putWin s { w with valid := true, error := false } else putWin s { w with error := true }

/-- VALID of descriptor d cleared; accesses issued stay counted (R347). -/
def winClear (s : State) (d : Nat) : State := putWin s { winOf s d with valid := false }

/-- WINDOW_VALID_SET (R346). -/
def execWindowValidSet (d : Nat) (s : State) : Out := inRange d 512 (guarded s (winSet s d))

/-- WINDOW_VALID_CLEAR (R347). -/
def execWindowValidClear (d : Nat) (s : State) : Out := inRange d 512 (guarded s (winClear s d))

/-- A field of a descriptor written, one byte at a time, while VALID is 0; bytes 20 to 23 are CTRL (R346, Table HST-4). -/
def winByte (w : Win) (off : Nat) (b : Byte) : Win :=
  let put := fun (v i : Nat) => leNat (patch (leBytes 8 v) i [b])
  if w.valid then w
  else if off < 8 then { w with table := put w.table off }
  else if off < 16 then { w with length := put w.length (off - 8) }
  else if off = 16 then { w with pageLog2 := b.toNat }
  else if off = 17 then { w with owner := b.toNat }
  else if off = 18 then { w with use := b.toNat }
  else w

/-- A 4-byte write into BAR2 (R345, R346). -/
def bar2Word (s : State) (off : Nat) (bs : Bytes) : State :=
  let d := off / 64
  let o := off % 64
  if o = 20 then (if bit (leNat bs) 0 then winSet s d else winClear s d)
  else if 24 ≤ o then s
  else putWin s ((bs.zipIdx).foldl (fun w e => winByte w (o + e.2) e.1) (winOf s d))

/-! ### Vectors (R362, R363, R492, R493) -/

/-- MSIX_VECTOR_UNMASK: a vector's mask bit is cleared and its pending message sent (R363). -/
def execMsixVectorUnmask (fn v : Nat) (s : State) : Out :=
  if v < 128 then inRange fn 16 (guarded s (trySend (updVec s fn v fun x => { x with masked := false }) fn v)) else .fault .noSuchUnit

/-- A 4-byte write into a function's MSI-X table (Table REG-3). -/
def msixWord (s : State) (fn off val : Nat) : State :=
  let v := off / 16
  match off % 16 with
  | 0 => updVec s fn v fun x => { x with addr := x.addr / 2 ^ 32 * 2 ^ 32 + val }
  | 4 => updVec s fn v fun x => { x with addr := val * 2 ^ 32 + x.addr % 2 ^ 32 }
  | 8 => updVec s fn v fun x => { x with data := val }
  | 12 => if bit val 0 then updVec s fn v fun x => { x with masked := true } else trySend (updVec s fn v fun x => { x with masked := false }) fn v
  | _ => s

/-- INT_CAUSE written: ones clear (Table REG-3). -/
def causeWrite (f : Fn) (val : Nat) : Fn :=
  { f with causeMbox := f.causeMbox && !bit val 0, causeState := f.causeState && !bit val 1, causeSq := f.causeSq && !bit val 2
           sqFaulted := sumNat ((List.range 16).map fun i => if bit f.sqFaulted i && !bit val (16 + i) then 2 ^ i else 0) }

/-- A 4-byte write into a function's interrupt region (R492, R493). -/
def intWord (s : State) (fn off val : Nat) : State :=
  if off < 0x800 then msixWord s fn off val
  else if off = 0x840 then updFn s fn fun f => causeWrite f val
  else if 0xC00 ≤ off ∧ off < 0xE00 then updVec s fn ((off - 0xC00) / 4) fun x => { x with holdoff := val % 65536 }
  else s

/-! ### Fault log and DTC (R496, R499) -/

/-- LOG_CLEAR written (R496). -/
def logClear (s : State) (val : Nat) : State :=
  if bits val 31 16 == 0xFA17 && s.flt.pkg == .serving then
    { s with flt := { s.flt with log := [], logClearedAt := s.flt.logCount } }
  else s

/-- LOG_CLEAR: a keyed PF write while SERVING clears the log (R496). -/
def execLogClear (value : Nat) (s : State) : Out := .next (guarded s (logClear s value))

/-- What a read of either DTC word returns in UNCONTAINED: its reset value, and nothing is latched (R436, R488; log 84). -/
def dtcReset (s t : State) : State := if s.flt.pkg == .uncontained then { s with host := { s.host with readData := 0 } } else t

/-- DTC_LO_READ: the low word is returned and the high word latched for the function (R499). -/
def execDtcLoRead (fn : Nat) (s : State) : Out :=
  inRange fn 16 <| dtcReset s <|
    let s := updFn s fn fun f => { f with shadow := some (s.boot.dtc / 2 ^ 32 % 2 ^ 32) }
    { s with host := { s.host with readData := s.boot.dtc % 2 ^ 32 } }

/-- DTC_HI_READ: the latched high word is returned and the latch emptied; without one, the live bits (R499). -/
def execDtcHiRead (fn : Nat) (s : State) : Out :=
  inRange fn 16 <| dtcReset s <|
    let v := match (fnOf s fn).shadow with | some x => x | none => s.boot.dtc / 2 ^ 32 % 2 ^ 32
    let s := updFn s fn fun f => { f with shadow := none }
    { s with host := { s.host with readData := v } }

/-! ### REGISTER_WRITE (R12, R339, R486-R488) -/

/-- Bytes written into a function's CMD slot; a BUSY mailbox drops them (R352, R353). -/
def cmdWrite (s : State) (fn off : Nat) (bs : Bytes) : State :=
  updFn s fn fun f =>
    if f.mbox.st == .busy then { f with mbox := { f.mbox with overrun := true } }
    else { f with mbox := { f.mbox with cmd := patch f.mbox.cmd off bs } }

/-- A 4-byte write into a mailbox page outside CMD (Table HST-5). -/
def mboxWord (s : State) (fn off val : Nat) : State :=
  if off = 0x80 then doorbell s fn val
  else if off = 0x84 then updFn s fn fun f => if bit val 2 then { f with mbox := { f.mbox with overrun := false } } else f
  else s

/-- A 4-byte write into a doorbell page (R355). -/
def bellWord (s : State) (fn off val : Nat) : State :=
  if off < 128 then (if off % 8 = 0 then sqTail s fn (off / 8) val else cqHead s fn (off / 8) val) else s

/-- Base offsets of the mailbox page, the doorbell page and the interrupt region of a function's BAR0 (Table HST-3). -/
def bar0Bases (fn : Nat) : Nat × Nat × Nat := if fn = 0 then (0x1000, 0x2000, 0x10000) else (0, 0x1000, 0x3000)

/-- A 4-byte write into BAR0. In UNCONTAINED only CMD and DOORBELL act, and an ignored partition reset is counted (R488, R497). -/
def bar0Word (s : State) (fn off : Nat) (bs : Bytes) : State :=
  let val := leNat bs
  let (mb, db, it) := bar0Bases fn
  let passes := off == mb + 0x80 || (decide (mb ≤ off) && decide (off < mb + 0x40)) || (fn == 0 && off == 0x20030)
  if s.flt.pkg == .uncontained && !passes then s
  else if mb ≤ off ∧ off < mb + 0x40 then cmdWrite s fn (off - mb) bs
  else if mb ≤ off ∧ off < mb + 0x1000 then mboxWord s fn (off - mb) val
  else if db ≤ off ∧ off < db + 0x1000 then bellWord s fn (off - db) val
  else if it ≤ off ∧ off < it + 0x1000 then intWord s fn (off - it) val
  else if fn = 0 ∧ off = 0x20028 then logClear s val
  else if fn = 0 ∧ off = 0x20030 then partitionReset s val
  else s

/-- VF Enable written: VFs above the number lose their function state as an FLR takes it (R346, R365; log 8). -/
def vfWrite (s : State) (n : Nat) : State :=
  let k := min 15 n
  let s := ((List.range 16).filter fun i => decide (k < i)).foldl flrStart s
  { s with host := { s.host with vfs := k } }

/-- REGISTER_WRITE: a BAR write acts per the access code of the register it meets; a write that is not 4 or 8 aligned bytes is dropped,
but for 4 to 64 aligned bytes into a CMD slot (R12, R339, R486-R488). -/
def execRegisterWrite (fn : Nat) (bar : BarSel) (offset : Nat) (data : Bytes) (s : State) : Out :=
  inRange fn 16 <|
    let n := data.length
    let word := n == 4 && offset % 4 == 0
    let dword := n == 8 && offset % 8 == 0
    let mb := (bar0Bases fn).1
    match bar with
    | .cfg => guarded s (if fn = 0 ∧ offset = 0 then vfWrite s (leNat data) else s)
    | .bar2 =>
      guarded s <|
        if fn != 0 || decide (32768 ≤ offset) then s
        else if word then bar2Word s offset data
        else if dword then bar2Word (bar2Word s offset (data.take 4)) (offset + 4) (data.drop 4) else s
    | .bar0 =>
      if !fnEnabled s fn || (fnOf s fn).flr.isSome then s
      else if mb ≤ offset ∧ offset + n ≤ mb + 0x40 ∧ offset % 4 = 0 ∧ n % 4 = 0 ∧ 4 ≤ n then cmdWrite s fn (offset - mb) data
      else if word then bar0Word s fn offset data
      else if dword then bar0Word (bar0Word s fn offset (data.take 4)) fn (offset + 4) (data.drop 4) else s

/-! ### Register reads (R486-R500, R513) -/

/-- PART as the identity word and measurement 0x06 code it (Table REG-1). -/
def partCode (s : State) : Nat := match s.boot.part with | .swl9400 => 0x9400 | .swl9300 => 0x9300

/-- The identity words (Table REG-1, Table REG-2). -/
def identityBytes (s : State) : Bytes :=
  let b := s.boot
  let off := b.part == .swl9300
  let mask := if off then clearBit 15 b.disabledDie else 15
  let w := leBytes 4
  let formed := decide (1 < s.group.size) && groupFormed s
  w (partCode s * 65536 + 0xB0) ++
    w (nStacks s * 2 ^ 24 + nClusters s * 256 + (if off then 128 + b.disabledDie * 16 else 0) + mask) ++
    w (b.ifMajor * 256 + b.ifMinor) ++ w b.romVersion ++
    w (lockVal b.lock * 65536 + b.ranSlot * 512 + b2n b.fallbackSlot * 256 + stageVal b.stage) ++ w b.epoch ++
    w (b.revoked * 2 ^ 20 + b.keySlot * 65536 + b.minSvn * 256 + b.svn) ++ w b.fwGen ++
    slice b.deviceId 0 32 ++ slice b.curFw 0 32 ++ slice b.prevFw 0 32 ++
    w (1024 * 65536 + 15 * 256 + 7 * 16 + 3) ++ w (4096 * 65536 + 8192) ++ w (256 * 65536 + 128 * 256 + 12) ++ w (nFrames s) ++
    leBytes 8 s.group.id ++ w (b2n formed * 65536 + s.group.index * 256 + s.group.size) ++ zeroBytes 4

/-- A fault log entry (Table FLT-6). -/
def logBytes (e : LogEntry) : Bytes :=
  leBytes 4 e.seq ++ leBytes 2 e.source ++ leBytes 1 e.level ++ leBytes 1 e.part ++ leBytes 8 e.dtc ++ leBytes 4 e.unit ++
    leBytes 4 e.detail ++ slice e.fwHead 0 8

/-- Partitions under reset as RESET_BUSY (R497). -/
def resetBusy (s : State) : Nat := sumNat ((s.parts.zipIdx).map fun e => if e.1.resetting then 2 ^ e.2 else 0)

/-- The fault and quarantine status region, log included (Table REG-4, R494). -/
def faultBytes (s : State) : Bytes :=
  let f := s.flt
  let w := leBytes 4
  let regs := w (b2n s.boot.booting * 64 + b2n f.trip * 32 + b2n f.quietN * 16 + b2n f.faultN * 8 + pkgVal f.pkg) ++ zeroBytes 4 ++
    leBytes 8 f.firstDtc ++ w (f.firstPart * 2 ^ 24 + f.firstLevel * 65536 + f.firstSource) ++ w f.firstUnit ++ w f.doubtCount ++
    zeroBytes 4 ++ w f.logCount ++ w f.logClearedAt ++ zeroBytes 8 ++ w (resetBusy s) ++ w f.resetIgnored
  slice regs 0 0x1000 ++ (List.range 256).flatMap fun i => match f.log.find? fun e => e.seq % 256 == i with
    | some e => logBytes e
    | none => zeroBytes 32

/-- POWER0 to THROTTLE_COUNT (Table REG-6). -/
def powerBytes (s : State) : Bytes :=
  leBytes 2 s.gov.g ++ leBytes 2 (bEff s) ++ leBytes 2 (bLimit s) ++ leBytes 1 s.pins.tMax.toNat ++
    leBytes 1 (b2n s.flt.trip * 4 + b2n (decide (bThermal s < bLimit s)) * 2 + b2n s.pins.throttle) ++
    leBytes 8 s.pins.throttleTicks ++ leBytes 4 s.pins.throttleCount

/-- The VCORE words (Table PKG-4). -/
def vcoreBytes (s : State) : Bytes := (s.pins.vReq.zip s.pins.vHold).flatMap fun e => leBytes 2 e.1 ++ leBytes 2 (b2n e.2)

/-- The byte of a block that stands at a base, at an address. -/
def blockByte (base : Nat) (bs : Bytes) (a : Nat) : Option Byte := if base ≤ a then bs[a - base]? else none

/-- n bytes from an address of a space of blocks; what lies in none of them reads as zero (R486, R513). -/
def readBlocks (blocks : List (Nat × Bytes)) (a n : Nat) : Bytes :=
  (List.range n).map fun i => (blocks.findSome? fun b => blockByte b.1 b.2 (a + i)).getD 0

/-- The package as the registers that do not read true in UNCONTAINED show it: reset values, with fused words kept (R436, R488,
Table REG-1). -/
def resetView (s : State) : State :=
  { State.reset with boot := bootKept s.boot, gov := defaultGov s.boot.part, pins := { Pins.reset with vFuse := s.pins.vFuse } }

/-- The package as its registers show it, but for the fault region and the mailbox page (R488). -/
def shown (s : State) : State := if s.flt.pkg == .uncontained then resetView s else s

/-- A function's mailbox page (Table HST-5): CMD, RSP, DOORBELL, which reads as zero, and STATUS. It reads true in UNCONTAINED too, where
the mailbox front end still answers in RSP (R436; DEDUCED, log 84). -/
def mailboxBytes (s : State) (fn : Nat) : Bytes :=
  let m := (fnOf s fn).mbox
  slice m.cmd 0 64 ++ slice m.rsp 0 64 ++ zeroBytes 4 ++ leBytes 4 (statusWord m s.flt.pkg)

/-- A function's interrupt region (R492, Table REG-3). -/
def interruptBytes (s : State) (fn : Nat) : Bytes :=
  let v := (List.range 128).map fun i => vecOf s fn i
  (v.flatMap fun x => leBytes 8 x.addr ++ leBytes 4 x.data ++ leBytes 4 (b2n x.masked)) ++
    ((chunks 8 v).map fun c => BitVec.ofNat 8 (sumNat ((c.zipIdx).map fun e => b2n e.1.pending * 2 ^ e.2))) ++ zeroBytes 0x30 ++
    leBytes 4 (causeWord (fnOf s fn)) ++ zeroBytes 0x3BC ++ v.flatMap fun x => leBytes 4 x.holdoff

/-- A function's DTC region as an 8-byte read of the DTC sees it (R498, R499, Table REG-5). -/
def dtcBytes (s : State) (fn : Nat) : Bytes :=
  leBytes 8 s.boot.dtc ++
    if fn = 0 then leBytes 4 s.pins.misalign ++ leBytes 4 s.pins.lost ++ leBytes 4 (b2n (s.pins.slew != 0)) else []

/-- The ledger snapshot region (R500, Table REG-6). -/
def ledgerBytes (s : State) : Bytes :=
  let l := s.ledger
  slice (leBytes 4 l.seq ++ zeroBytes 4 ++ leBytes 8 l.balanced ++ leBytes 8 l.closes ++ leBytes 4 l.result ++ zeroBytes 4 ++ powerBytes s) 0 0x100 ++
    (List.range 8).flatMap (fun p => match l.snap.find? fun b => b.part == p with | some b => slice b.body 0 256 | none => zeroBytes 256) ++
    slice l.links 0 192

/-- n bytes read from a function's BAR0, without the latch of R499 (R486, R488, R491, R498, R500, Table HST-3). -/
def bar0Read (s : State) (fn off n : Nat) : Bytes :=
  let v := shown s
  let (mb, _, it) := bar0Bases fn
  readBlocks ([(mb, mailboxBytes s fn), (it, interruptBytes v fn)] ++
    if fn = 0 then [(0, identityBytes v), (0x20000, faultBytes s), (0x30000, dtcBytes v 0), (0x40000, ledgerBytes v)]
    else [(0x2000, dtcBytes v fn), (0x4000, identityBytes v)]) off n

/-- A window descriptor, with its BUSY (Table HST-4, Table HST-4a). -/
def winBytes (w : Win) (busy : Bool) : Bytes :=
  leBytes 8 w.table ++ leBytes 8 w.length ++ leBytes 1 w.pageLog2 ++ leBytes 1 w.owner ++ leBytes 1 w.use ++ zeroBytes 1 ++
    leBytes 4 (ctrlWord w busy) ++ zeroBytes 40

/-- n bytes read from BAR2 (R345, R488). -/
def bar2Read (s : State) (off n : Nat) : Bytes :=
  let v := shown s
  (List.range n).map fun i =>
    let w := winOf v ((off + i) / 64)
    (winBytes w (winBusy v w)).getD ((off + i) % 64) 0

/-- n bytes of the SMBus address map from an address (Table PKG-4). Before the PLL locks and after it has failed, the identity words and
the fault region are served; in UNCONTAINED only the fault region reads true (R488, R513). -/
def smbRead (s : State) (a n : Nat) : Bytes :=
  let v := shown s
  readBlocks ([(0, identityBytes v), (0x20000, faultBytes s)] ++
    if s.boot.pllLocked then [(0x40020, powerBytes v), (0x80000, vcoreBytes v)] else []) (a % 2 ^ 24) n

/-- SMBUS_POINTER: the 24-bit pointer set (R513). The target answers from PWR_GOOD on. -/
def execSmbusPointer (ptr : Nat) (s : State) : Out :=
  .next (if s.boot.pwrGood then { s with host := { s.host with smbPtr := ptr % 2 ^ 24 } } else s)

/-- SMBUS_READ: 32 bytes from the pointer, which advances by 32 (R513). -/
def execSmbusRead (s : State) : Out :=
  .next (if s.boot.pwrGood then
    { s with host := { s.host with smbData := smbRead s s.host.smbPtr 32, smbPtr := (s.host.smbPtr + 32) % 2 ^ 24 } } else s)

end Sys2Proof.Machine
end

