-- ==== Sys2Proof/Machine/Tick.lean ====
section
/-! DEFINITION. What one DTC tick does on its own: the DTC, the regulators' levels, the throttle time, the no-retire clocks of
clusters whose wait is excused, ports whose time to start has come, what the Sinter Engine writes of the granules handed to it, drains that have come to their end, and what
the members of a group tell one another (14 R401, R420; 10 R285, R287, R298; 08 R225; 05 R129; 09 R244, R248; 17 R472). A step that finds the
queue empty is one such tick (log 1). -/

namespace Sys2Proof.Machine

/-- A regulator's level one tick later (R287). -/
def levelTick (rate : Nat × Nat) (lv : Int) : Int := if rate.1 = 0 then lv else min (lv + (rate.1 : Int)) (rate.2 : Int)

/-- A partition's regulators one tick later. -/
def partTick (p : Part) : Part := { p with levels := (p.items.rates.zip p.levels).map fun e => levelTick e.1 e.2 }

/-- A cluster one tick later: while what it waits for is no fault of it, the no-retire clock does not run (R225, R288). -/
def clusterTick (s : State) (cl : Cluster) : Cluster :=
  match cxOf s cl.no with
  | some x => if excused s cl.no x then { cl with lastRetire := cl.lastRetire + 1 } else cl
  | none => cl

/-! ### The Sinter Engine (R129, R244, R248, R285) -/

/-- The run that a stack's channel writes next: the oldest on the stack, of the partition in turn among those with one there whose HBM
write regulator is above 0 (R285, R287). -/
def nextRun (s : State) (h : Nat) : Option (Nat × Run) :=
  let runOf := fun p => (partOf s p).handed.find? fun r => stackOf s r.frame == h
  match nextServed s.served.sinter fun p => mayStart (partOf s p) 1 && (runOf p).isSome with
  | some p => (runOf p).map fun r => (p, r)
  | none => none

/-- Two granules of a run written, which is what a channel writes in a tick, and the run gone once its last is (R244, R248; log 74). -/
def writeRun (s : State) (p : Nat) (r : Run) : State :=
  let at_ := match frameOf s r.frame with | some f => f.written | none => r.upto
  let k := min r.upto (at_ + 2)
  let s := charge s p 1 (512 * (k - at_))
  let s := updFrame { s with served := { s.served with sinter := some p } } r.frame fun f => { f with written := max f.written k }
  if k < r.upto then s else updPart s p fun x => { x with handed := x.handed.erase r }

/-- One stack's channel for a tick, under its permit; a run that has nothing left to write ends (R245). -/
def sinterStack (s : State) (h : Nat) : State :=
  if !holds s.gov (392 + h) .sinter then s
  else match nextRun s h with
    | some (p, r) => runEnds (writeRun s p r) h
    | none => runEnds s h

/-- The Sinter Engine for a tick. -/
def sinterTick (s : State) : State := (List.range (nStacks s)).foldl sinterStack s

/-! ### The tick -/

/-- The clocks and counts of one tick (R225, R287, R401, R420). -/
def clockTick (s : State) : State :=
    { s with boot := { s.boot with dtc := (s.boot.dtc + 1) % 2 ^ 64 }
             parts := s.parts.map partTick
             clusters := s.clusters.map (clusterTick s)
             pins := { s.pins with throttleTicks := if s.pins.throttle then satAdd 64 s.pins.throttleTicks 1 else s.pins.throttleTicks } }

/-- One DTC tick, once the root PLL is locked (R401): the clocks, and while the package serves ports, the Sinter Engine, drains and
notices. -/
def tick (s : State) : State :=
  if !s.boot.pllLocked then s
  else
    let t := clockTick s
    if t.flt.pkg != .serving then t else announceAll ((List.range 8).foldl settleDrain (sinterTick (startPorts t)))

end Sys2Proof.Machine
end

