-- ==== Sys2Proof/Machine/Board.lean ====
section
/-! DEFINITION. Multi-function pins, time marks and the JTAG port: the meanings of PINMUX_SET, PINMUX_ARMED,
STEP_SYNC_ARMED, STEP_SYNC_CANDIDATE, CANDIDATE_DISCARDED, STEP_SYNC_MARK, STEP_SYNC_OUT_PULSE, SYNC_LOST, DTC_SLEW,
JTAG_EXTEST and JTAG_DEBUG_UNLOCK (13 Table MSG-5; 14 R403; 16 R461, R462; 19 R507-R512). -/

namespace Sys2Proof.Machine

/-! ### Multi-function pins (R510-R512, Table MSG-5, Table PKG-3, Table PKG-11) -/

/-- The function of a PINMUX_SET code (Table MSG-5). -/
def pinFnOf : Nat → Option PinFn
  | 0 => some .gpioIn
  | 1 => some .gpioOut
  | 2 => some .uart2Tx
  | 3 => some .uart2Rx
  | 4 => some .fanTach
  | 5 => some .led
  | 6 => some .syncInAlt
  | 7 => some .syncOutAlt
  | 8 => some .thermTripOut
  | _ => none

/-- Whether a pin may take a function (R510, Table PKG-3). -/
def pinTakes (pin : Nat) : PinFn → Bool
  | .gpioIn => true
  | .gpioOut => true
  | .uart2Tx => pin == 0
  | .uart2Rx => pin == 1
  | .fanTach => decide (2 ≤ pin ∧ pin ≤ 5)
  | .led => decide (6 ≤ pin ∧ pin ≤ 11)
  | .syncInAlt => pin == 12
  | .syncOutAlt => pin == 13
  | .thermTripOut => decide (14 ≤ pin ∧ pin ≤ 15)

/-- Whether a function takes an ARG (Table MSG-5). -/
def pinArgOk (arg : Nat) : PinFn → Bool
  | .gpioOut => decide (arg < 2)
  | .uart2Tx => true
  | .uart2Rx => true
  | .fanTach => decide (1 ≤ arg ∧ arg ≤ 4)
  | .led => decide (arg < 256)
  | _ => arg == 0

/-- The arming time of a function in ticks (Table PKG-11). -/
def armTicks : PinFn → Nat
  | .uart2Rx => 100
  | .syncInAlt => 100
  | _ => 0

/-- Pin n. -/
def pinOf (s : State) (n : Nat) : MfPin := s.pins.mf.getD n { fn := .gpioIn, arg := 0, arming := none, armAt := 0 }

/-- Pin n changed. -/
def updPin (s : State) (n : Nat) (f : MfPin → MfPin) : State := { s with pins := { s.pins with mf := modAt s.pins.mf n f } }

/-- The mark source has changed: the filter starts UNARMED (R507, R511). -/
def filterReset (s : State) : State := { s with pins := { s.pins with filter := .unarmed } }

/-- A pin's switch begun (R511 steps 1 and 2): the pin is high impedance with its weak pull-down, as GPIO_IN leaves it. Two CCLK cycles
end within one tick, and arming runs from there (Table PKG-10). -/
def pinSwitch (s : State) (pin : Nat) (f : PinFn) (arg : Nat) (c : MsgCtx) : State :=
  let old := (pinOf s pin).fn
  let s := updPin s pin fun _ => { fn := .gpioIn, arg := 0, arming := some (f, arg, c), armAt := s.boot.dtc + 1 + armTicks f }
  if old == .syncInAlt then filterReset s else s

/-- PINMUX_SET behind the checks of R350 (R379, R510-R512). -/
def pinmux (s : State) (c : MsgCtx) (cmd : Bytes) : State :=
  let pin := rd cmd 8 1
  let arg := rd cmd 12 4
  match pinFnOf (rd cmd 9 1) with
  | none => refuse s c .invalidField
  | some f =>
    if !bodyZero cmd [(8, 1), (9, 1), (12, 4)] || !decide (pin < 16) || !pinTakes pin f || !pinArgOk arg f then refuse s c .invalidField
    else if (pinOf s pin).arming.isSome then refuse s c .busy
    else if (pinOf s pin).fn == f then
      respond (if f == .gpioOut then updPin s pin fun x => { x with arg := arg } else s) c .success []
    else pinSwitch s pin f arg c

/-- PINMUX_SET: the old function stops, the pin floats and the new function arms (R511). -/
def execPinmuxSet (fn : Nat) (via : Via) (s : State) : Out :=
  msgRow s fn via (isOp 0x0080) fun s m => pinmux s m.ctx m.cmd

/-- A pin's arming ends: the function takes the pin and the message completes (R511 step 3). -/
def pinArmed (s : State) (pin : Nat) : State :=
  let x := pinOf s pin
  match x.arming with
  | some (f, arg, c) =>
    if s.boot.dtc < x.armAt then s
    else
      let s := updPin s pin fun _ => { fn := f, arg := arg, arming := none, armAt := s.boot.dtc }
      respond (if f == .syncInAlt then filterReset s else s) c .success []
  | none => s

/-- The level on STEP_SYNC_OUT: member 0's pulses; every other member drives it low (R403, R505, R508). -/
def syncOutLevel (s : State) : Bool :=
  s.group.index == 0 && (match s.pins.syncOutUntil with | some t => decide (s.boot.dtc < t) | none => false)

/-- The level a multi-function pin drives; none is high impedance with the weak pull-down. STEP_SYNC_OUT_ALT is low until the first multiple
of 2^20 after it took the pin; a UART that sends nothing idles high (R422, R510, R511, Table PKG-11; log 83). -/
def pinDrive (s : State) (n : Nat) : Option Bool :=
  let x := pinOf s n
  match x.fn with
  | .gpioOut => some (bit x.arg 0)
  | .uart2Tx => some true
  | .led => some (x.arg == 0 || Config.ledLit x.arg s.boot.dtc)
  | .syncOutAlt => some (decide (x.armAt / 2 ^ 20 < s.boot.dtc / 2 ^ 20) && syncOutLevel s)
  | .thermTripOut => some s.flt.trip
  | _ => none

/-- PINMUX_ARMED: the arming time of a pin's new function ends (R511). -/
def execPinmuxArmed (pin : Nat) (s : State) : Out := inRange pin 16 (guarded s (pinArmed s pin))

/-! ### Time marks (R403, R507) -/

/-- The period of the marks in ticks (R403). -/
def markPeriod : Nat := 1048576

/-- STEP_SYNC_ARMED: the pin has been low for 100 ticks in UNARMED (R507). -/
def execStepSyncArmed (s : State) : Out :=
  .next (guarded s (if s.pins.filter == .unarmed then { s with pins := { s.pins with filter := .armed } } else s))

/-- STEP_SYNC_CANDIDATE: a rising edge in ARMED, with the DTC of its crossing (R507). -/
def execStepSyncCandidate (edge : Nat) (s : State) : Out :=
  .next (guarded s (if s.pins.filter == .armed then { s with pins := { s.pins with filter := .candidate edge } } else s))

/-- CANDIDATE_DISCARDED: the pin falls before 100 ticks high (R507). -/
def execCandidateDiscarded (s : State) : Out :=
  .next (guarded s (match s.pins.filter with | .candidate _ => filterReset s | _ => s))

/-- d of R403: a DTC less the nearest multiple of 2^20. -/
def markError (dtc : Nat) : Int :=
  let r := dtc % markPeriod
  if 2 * r ≤ markPeriod then (r : Int) else (r : Int) - markPeriod

/-- A mark taken (R403): a correction of -d ticks begins, or the mark is counted as misaligned. Member 0 ignores it. -/
def takeMark (s : State) (edge : Nat) : State :=
  let s := filterReset s
  if s.group.index = 0 then s
  else
    let d := markError edge
    let s := { s with pins := { s.pins with lastMark := s.boot.dtc } }
    if d.natAbs ≤ 16384 then { s with pins := { s.pins with slew := -d, slewAt := s.boot.dtc } }
    else { s with pins := { s.pins with misalign := (s.pins.misalign + 1) % 2 ^ 32 } }

/-- STEP_SYNC_MARK: the pin has stayed high for 100 ticks; the candidate is a mark (R403, R507). -/
def execStepSyncMark (s : State) : Out :=
  .next (guarded s (match s.pins.filter with | .candidate e => takeMark s e | _ => s))

/-- STEP_SYNC_OUT_PULSE: member 0 drives the pin for 200 ticks from a DTC that is a multiple of 2^20 (R403, R508). -/
def execStepSyncOutPulse (s : State) : Out :=
  .next <| guarded s <|
    if s.group.index = 0 ∧ s.boot.pllLocked ∧ s.boot.dtc % markPeriod = 0 then
      { s with pins := { s.pins with syncOutUntil := some (s.boot.dtc + 200) } }
    else s

/-- SYNC_LOST: another member has seen no mark for two periods; the DTC runs free (R403). -/
def execSyncLost (s : State) : Out :=
  .next <| guarded s <|
    if s.group.index ≠ 0 ∧ s.pins.lastMark + 2 * markPeriod ≤ s.boot.dtc then
      { s with pins := { s.pins with lost := (s.pins.lost + 1) % 2 ^ 32, lastMark := s.boot.dtc } }
    else s

/-- DTC_SLEW: 64 ticks after the last correction, one tick passes in which the DTC holds or adds 2 (R403). -/
def execDtcSlew (s : State) : Out :=
  .next <| guarded s <|
    if s.pins.slew = 0 ∨ s.boot.dtc < s.pins.slewAt + 64 then s
    else
      let up := decide (0 < s.pins.slew)
      let d := if up then (s.boot.dtc + 2) % 2 ^ 64 else s.boot.dtc
      let t := tick s
      { t with boot := { t.boot with dtc := d }
               pins := { t.pins with slew := if up then s.pins.slew - 1 else s.pins.slew + 1, slewAt := d } }

/-! ### JTAG (R460-R463) -/

/-- The IDCODE of a part (R514). -/
def jtagIdcode : PartNo → Nat
  | .swl9400 => 0xB9400A5F
  | .swl9300 => 0xB9300A5F

/-- What JTAG can be asked to do (Table TRU-5). -/
inductive JtagReach where
  | idcode
  | bypass
  | samplePreload
  /-- EXTEST and the AC instructions of IEEE 1149.6 -/
  | extest
  /-- halt and step of the hub cores -/
  | haltStep
  /-- reads of hub registers -/
  | hubRegs
  /-- Hub Store key areas, Cluster Store and HBM -/
  | stores
  deriving DecidableEq, Repr

/-- What JTAG reaches in a lock state (R460, R461, Table TRU-5). -/
def jtagReaches (s : State) : JtagReach → Bool
  | .idcode => true
  | .bypass => true
  | .samplePreload => true
  | .extest => s.boot.lock == .manufacturing || s.boot.perst
  | .haltStep => s.boot.lock == .manufacturing || s.boot.lock == .debug
  | .hubRegs => s.boot.lock == .manufacturing || s.boot.lock == .debug
  | .stores => s.boot.lock == .manufacturing

/-- Whether the debug UART takes input; it sends in every lock state, in LOCKED the boot log only (R514, Table TRU-5). -/
def uartInput (s : State) : Bool := s.boot.lock == .manufacturing || s.boot.lock == .debug

/-- Whether the debug UART sends a byte, of the boot log or not (R514, Table TRU-5). -/
def uartSends (s : State) (bootLog : Bool) : Bool := bootLog || s.boot.lock != .locked

/-- JTAG_EXTEST: pins are driven only while PERST_N is asserted, but for MANUFACTURING; otherwise it is BYPASS (R460, R461). -/
def execJtagExtest (levels : List Bool) (s : State) : Out :=
  .next (if jtagReaches s .extest then { s with boot := { s.boot with extest := some levels } } else s)

/-- DEBUG entered: keys zeroised, parking records deleted, sessions ended, keys barred until the next cold boot (R462). -/
def enterDebug (s : State) : State :=
  endSessions
    { s with boot := { s.boot with lock := .debug, keyBar := true }
             tenants := s.tenants.map fun t : Tenant => { t with keys := [] }
             reqs := s.reqs.map fun q : Req => { q with record := none } }

/-- JTAG_DEBUG_UNLOCK: a response signed by the fused debug key over a fresh nonce and DEVICE_ID, with every partition DISABLED
(R462; log 3, log 4). -/
def execJtagDebugUnlock (pubkey response : Bytes) (s : State) : Out :=
  .next <| guarded s <|
    let nonce := slice (Config.freeBytes s.freeCtr 32) 0 32
    let s := { s with freeCtr := s.freeCtr + 1 }
    if s.boot.lock == .locked && s.parts.all (fun p : Part => p.st == .disabled) && sha256 pubkey == s.boot.debugKeyHash &&
        Config.ecdsaVerify pubkey (nonce ++ s.boot.deviceId) response then enterDebug s
    else s

end Sys2Proof.Machine
end

