-- ==== Sys2Proof/Machine/Boot.lean ====
section
/-! DEFINITION. Bring-up, firmware activation and recovery: the meanings of PWR_GOOD_RISE, PLL_LOCK, PLL_LOCK_TIMEOUT,
FW_IMAGE_LOADED, HBM_TRAINING_DONE, BIST_DONE, KAT_DONE, STAGE_TIMEOUT, FW_ACTIVATE, FLASH_PERSIST_DONE,
FW_ACTIVATE_QUIESCED, FW_ACTIVATE_TIMEOUT, RECOVER, RECOVERY_VERIFY_DONE and RECOVERY_TEST_DONE (15 §5; 16 §2; 17). -/

namespace Sys2Proof.Machine

/-! ### Failures (R466, R474, R477) -/

/-- The boot stops at a failure: BOOT_STAGE, FAULT_N, the fault log, and every doorbell answered DEVICE_QUARANTINED. The log
entry's LEVEL, and UNIT where no stack, die or cluster is concerned, are free values (R474, R477; log 3). -/
def bootFail (s : State) (st : BootStage) (unit : Option Nat) : State :=
  let l := freeVal s
  let u := freeVal l.2
  let s := logFault u.2 (0x0200 + stageVal st) (l.1 % 256) 0xFF (match unit with | some n => n | none => u.1 % 2 ^ 32) 0
  failMailboxes (setStage { s with flt := { s.flt with faultN := true, quietN := true } } st)

/-! ### The boot ROM (R466-R470) -/

/-- A directory copy, if it is valid (R468, Table BRU-3). -/
def readFlashDir (copy : Nat) (r : ReadResult) : Option Dir :=
  match r with
  | none => none
  | some bs =>
    if bs.take 4 == ascii "SWFD" && rd bs 4 2 == 1 && slice bs 32 32 == sha256 (slice bs 0 32) then
      some { copy := copy, active := rd bs 6 1, gen := rd bs 8 4, lenA := rd bs 12 4, lenB := rd bs 16 4, cfgLen := rd bs 20 4 }
    else none

/-- The directory copy the ROM uses: the valid one with the higher DIR_GEN (R468). -/
def chooseDir (dir0 dir1 : ReadResult) : Option Dir :=
  match readFlashDir 0 dir0, readFlashDir 1 dir1 with
  | some a, some b => some (if a.gen < b.gen then b else a)
  | some a, none => some a
  | none, b => b

/-- PWR_GOOD_RISE: the root PLL starts to lock; QUIET_N stays asserted (R466, R505). -/
def execPwrGoodRise (s : State) : Out :=
  .next (if s.boot.pwrGood then s
    else { s with boot := { s.boot with pwrGood := true, cold := true, stage := .rom, booting := true }
                  flt := { s.flt with quietN := true } })

/-- The die fabric domains, on from bring-up (Table PWR-2). -/
def fabricDomains (s : State) : List Nat := (List.range (nDies s)).map (196 + ·)

/-- The HBM PHY domains, on from HBM training (Table PWR-2). -/
def phyDomains (s : State) : List Nat := (List.range (nStacks s)).map (200 + ·)

/-- Domains that are on from now. -/
def turnOn (s : State) (ds : List Nat) : State := { s with gov := { s.gov with on := (s.gov.on ++ ds).eraseDups } }

/-- PLL_LOCK: on a cold boot the DTC starts at 0; the ROM counts BOOT_EPOCH and selects a directory copy, or stops at NO_IMAGE
(R466, R468, R469). The ROM of a warm boot runs here too, once PERST_N is no longer asserted (R479, R506; log 20). -/
def execPllLock (dir0 dir1 : ReadResult) (s : State) : Out :=
  .next <|
    if !s.boot.pwrGood || s.boot.stage != .rom || (!s.boot.cold && s.boot.perst) then s
    else
      let b := { s.boot with pllLocked := true, dtc := if s.boot.cold then 0 else s.boot.dtc, epoch := (s.boot.epoch + 1) % 2 ^ 32 }
      let s := turnOn { s with boot := b } (fabricDomains s)
      match chooseDir dir0 dir1 with
      | some d => setStage { s with boot := { s.boot with dir := some d } } .fwLoad
      | none => bootFail s .noImage none

/-- PLL_LOCK_TIMEOUT: no lock within 10,000 ticks (R466). -/
def execPllLockTimeout (s : State) : Out :=
  .next (if s.boot.pwrGood && s.boot.stage == .rom && !s.boot.pllLocked then bootFail s .pllFail none else s)

/-! ### Firmware images (R444-R448, R470) -/

/-- The firmware image digest (R445). -/
def fwDigest (bs : Bytes) : Digest := sha256 (patch bs 128 (zeroBytes 96))

/-- Item 1 of R446: the header fields are well formed and IF_MAJOR is 1 (Table TRU-1). -/
def fwFormed (bs : Bytes) : Bool :=
  decide (512 ≤ bs.length) && bs.take 4 == ascii "SWFW" && rd bs 4 2 == 1 && rd bs 6 1 == 1 && decide (rd bs 8 4 ≤ 32) &&
    decide (rd bs 12 1 ≤ 3) && bits (rd bs 13 1) 3 1 == 0 && zeros bs 14 2 && rd bs 16 8 == bs.length && zeros bs 121 7 &&
    zeros bs 224 288

/-- Items 2 to 4 of R446: the key is fused and not revoked, the signature verifies, the SVN is not below the minimum. -/
def fwSigned (b : Boot) (bs : Bytes) : Bool :=
  let k := rd bs 12 1
  let pub := slice bs 24 97
  decide (k < 4) && sha256 pub == b.keyHashes.getD k [] && !bit b.revoked k &&
    Config.ecdsaVerify pub (fwDigest bs) (slice bs 128 96) && decide (b.minSvn ≤ rd bs 8 4)

/-- Fuse changes of a cold boot (R447). -/
def blowFuses (b : Boot) (bs : Bytes) : Boot :=
  let flags := rd bs 13 1
  let own := rd bs 12 1
  let mask := (List.range 4).foldl (fun m k => if bit (flags / 16) k && k != own then setBit m k else m) b.revoked
  { b with revoked := mask, minSvn := if bit flags 0 then max b.minSvn (rd bs 8 4) else b.minSvn }

/-- An image takes over: keys derived, CUR_FW and PREV_FW updated with FW_GEN, and its identity reported (R448, R463, R470,
R490). -/
def runImage (b : Boot) (bs : Bytes) : Boot :=
  let d := fwDigest bs
  let b := if d == b.curFw then b else { b with prevFw := b.curFw, curFw := d, fwGen := (b.fwGen + 2) % 2 ^ 32 }
  let b := if b.lock == .retired then { b with deviceId := zeroDigest, aliasFw := none }
    else { b with deviceId := sha256 (Config.devicePublicKey b.deviceSecret), aliasFw := some d }
  { b with svn := rd bs 8 4, keySlot := rd bs 12 1, ifMajor := rd bs 6 1, ifMinor := rd bs 7 1 }

/-- The image of a slot, if the directory gives it a length up to 16 MiB and it is valid (R446, R469). -/
def slotImage (b : Boot) (len : Nat) (r : ReadResult) : Option Bytes :=
  match r with
  | none => none
  | some bs =>
    let im := slice bs 0 len
    if len = 0 ∨ 16777216 < len ∨ bs.length < len then none else if fwFormed im && fwSigned b im then some im else none

/-- Length and contents of flash slot n. -/
def slotOfDir (d : Dir) (slotA slotB : ReadResult) (n : Nat) : Nat × ReadResult := if n = 0 then (d.lenA, slotA) else (d.lenB, slotB)

/-- The firmware of a slot started: fuses on a cold boot, keys, identity, RAN_SLOT and FALLBACK_SLOT (R469). -/
def startImage (s : State) (slot : Nat) (fallback : Bool) (im : Bytes) : State :=
  let b := if s.boot.cold then blowFuses s.boot im else s.boot
  setStage { s with boot := { runImage b im with ranSlot := slot, fallbackSlot := fallback } } .fwStart

/-- FW_IMAGE_LOADED: the ROM has read the active slot, and the other if the active one holds no valid image; the firmware starts
or the boot stops at NO_IMAGE (R469). -/
def execFwImageLoaded (slotA slotB : ReadResult) (s : State) : Out :=
  .next <|
    if s.boot.stage != .fwLoad then s
    else match s.boot.dir with
    | none => s
    | some d =>
      let act := b2n (d.active == 1)
      let a := slotOfDir d slotA slotB act
      let o := slotOfDir d slotA slotB (1 - act)
      match slotImage s.boot a.1 a.2 with
      | some im => startImage s act false im
      | none => match slotImage s.boot o.1 o.2 with
        | some im => startImage s (1 - act) true im
        | none => bootFail s .noImage none

/-! ### Stages to SERVING (R471-R476) -/

/-- HBM_TRAINING_DONE: every enabled stack is trained, or one of them failed (R473, R474). FW_START ends without a row of its
own. -/
def execHbmTrainingDone (failed : Option Nat) (s : State) : Out :=
  .next <| guarded s <|
    if s.boot.stage != .fwStart && s.boot.stage != .hbmTrain then s
    else
      let s := if s.boot.stage == .fwStart then setStage s .hbmTrain else s
      match failed with
      | some n => bootFail s .hbmFail (some n)
      | none => setStage (turnOn s (phyDomains s)) .bist

/-- BIST_DONE: array BIST has passed and left every Cluster Store word zero, or it failed (R474, R475). -/
def execBistDone (failed : Option Nat) (s : State) : Out :=
  .next <| guarded s <|
    if s.boot.stage != .bist then s
    else match failed with
      | some n => bootFail s .bistFail (some n)
      | none => setStage { s with clusters := [] } .kat

/-- Entry n of the board configuration's PINMUX table as the command it stands for (Table BRU-4, Table MSG-4). -/
def cfgPinCmd (cfg : Bytes) (n : Nat) : Bytes :=
  leBytes 2 0x0080 ++ zeroBytes 6 ++ leBytes 1 n ++ slice cfg (64 + 8 * n) 1 ++ zeroBytes 2 ++ slice cfg (68 + 8 * n) 4 ++ zeroBytes 48

/-- The LINK_SET commands of a board configuration (Table BRU-4). -/
def cfgGroupCmd (cfg : Bytes) : Bytes :=
  leBytes 2 0x0014 ++ zeroBytes 6 ++ leBytes 1 1 ++ zeroBytes 3 ++ slice cfg 5 2 ++ zeroBytes 2 ++ slice cfg 8 8 ++ zeroBytes 40

/-- Whether every field of a board configuration is in the range of the message it stands for (R471, Table BRU-4). -/
def cfgOk (cfg : Bytes) : Bool :=
  let w := rd cfg 18 2
  decide (192 ≤ cfg.length) && cfg.take 4 == ascii "SWBC" && decide (rd cfg 4 1 ≤ 1) && linkSetOk (cfgGroupCmd cfg) && zeros cfg 7 1 &&
    decide (rd cfg 16 2 < 4096) && (w == 0 || decide (800 ≤ w ∧ w ≤ 2000)) && zeros cfg 20 44 &&
    (List.range 16).all fun n => zeros cfg (65 + 8 * n) 3 &&
      (match pinFnOf (rd cfg (64 + 8 * n) 1) with | some f => pinTakes n f && pinArgOk (rd cfg (68 + 8 * n) 4) f | none => false)

/-- A valid board configuration applied: pins in order, the power limit, the group and its ports (R471, R472). -/
def applyCfg (s : State) (cfg : Bytes) : State :=
  let s := (List.range 16).foldl (fun t n => pinmux t noCtx (cfgPinCmd cfg n)) s
  let w := rd cfg 18 2
  let s := if w = 0 then s else { s with gov := { s.gov with limitW := w } }
  if rd cfg 4 1 = 1 then enablePorts (setGroup s { cmd := cfgGroupCmd cfg, ctx := noCtx, fn := 0 }) (rd cfg 16 2) else s

/-- The board configuration of a boot: none, applied, or ignored and counted (R471). -/
def boardConfig (s : State) (r : ReadResult) : State :=
  if (match s.boot.dir with | some d => d.cfgLen == 0 | none => true) then s
  else
    let bad := { s with boot := { s.boot with cfgIgnored := s.boot.cfgIgnored + 1 } }
    match r with
    | some cfg => if cfgOk cfg then applyCfg s cfg else bad
    | none => bad

/-- KAT_DONE: the known-answer test has passed and the package serves, or it failed on a cluster (R466, R471, R474, R476). -/
def execKatDone (failed : Option Nat) (boardCfg : ReadResult) (s : State) : Out :=
  .next <| guarded s <|
    if s.boot.stage != .kat then s
    else match failed with
      | some n => bootFail s .katFail (some n)
      | none =>
        let s := setStage { s with boot := { s.boot with booting := false }, flt := { s.flt with quietN := harmless s.flt.pkg } } .serving
        boardConfig s boardCfg

/-- Whether a boot stage has a bound that STAGE_TIMEOUT reports (Table BRU-5). -/
def stageBound (b : Boot) : Bool :=
  match b.stage with
  | .rom => b.pllLocked && b.pwrGood
  | .fwLoad => true
  | .fwStart => true
  | .hbmTrain => true
  | .bist => true
  | .kat => true
  | _ => false

/-- STAGE_TIMEOUT: a boot stage exceeds its bound (R474). -/
def execStageTimeout (unit : Nat) (s : State) : Out :=
  .next (guarded s (if stageBound s.boot then bootFail s .stageTimeout (some (unit % 2 ^ 32)) else s))

/-! ### FW_ACTIVATE (R379, R482-R485) -/

/-- An attempt pre-empted for the activation under its partition's PREEMPT item; a member that does not lead its partition asks the
leader to (R291, R482; log 24). -/
def preemptForFw (s : State) (p : Nat) : State :=
  match (partOf s p).attempt with
  | some a =>
    if spans s p && !leads s p then
      (if a.phase == .run || a.phase == .ready then tell s p (partOf s p).items.groupSize .quiesce 0 [1] else s)
    else preempt s p false
  | none => s

/-- Step 2 of R482: no plan is frozen or placed from now on, and running attempts are pre-empted. -/
def beginQuiesce (s : State) : State :=
  let s := setStage { s with boot := { s.boot with fwPhase := .quiesce } } .fwActivating
  (List.range 8).foldl preemptForFw s

/-- The image bytes FW_ACTIVATE names, if a window of the PF holds them (R239, R348; log 22). -/
def fwImage (s : State) (cmd : Bytes) (image : ReadResult) : Option Bytes :=
  let d := rd cmd 8 1
  let len := rd cmd 12 4
  match image with
  | some bs => if d < 64 ∧ (winOf s d).owner = 0 ∧ winOk s 0 d 0 (rd cmd 16 8) len = true ∧ len ≤ bs.length then some (slice bs 0 len) else none
  | none => none

/-- FW_ACTIVATE behind the checks of R350 (R379). -/
def fwActivate (s : State) (m : Taken) (image : ReadResult) : State :=
  if !bodyZero m.cmd [(8, 1), (9, 1), (12, 4), (16, 8), (24, 32)] || !decide (rd m.cmd 9 1 < 2) then refuse s m.ctx .invalidField
  else if s.boot.fwPhase != .idle then refuse s m.ctx .busy
  else match fwImage s m.cmd image with
    | none => refuse s m.ctx .homeFault
    | some im =>
      if fwDigest im != slice m.cmd 24 32 then refuse s m.ctx .digestMismatch
      else if !fwSigned s.boot im then refuse s m.ctx .signatureInvalid
      else if !fwFormed im || rd im 6 1 != s.boot.ifMajor then refuse s m.ctx .versionMismatch
      else
        let keep := rd m.cmd 9 1 == 1
        let st : Staged := { ctx := m.ctx, digest := fwDigest im, ifMajor := rd im 6 1, ifMinor := rd im 7 1, svn := rd im 8 4
                             keySlot := rd im 12 1, image := im, persist := keep }
        let s := { s with boot := { s.boot with staged := some st, fwPhase := if keep then .persist else .idle } }
        if keep then s else beginQuiesce s

/-- FW_ACTIVATE: a new image checked, then written to flash if asked, then the quiesce (R379, R482). -/
def execFwActivate (fn : Nat) (via : Via) (image : ReadResult) (s : State) : Out :=
  msgRow s fn via (isOp 0x0082) fun s m => fwActivate s m image

/-- The bytes of a directory copy (Table BRU-3). -/
def dirBytes (d : Dir) : Bytes :=
  let h := ascii "SWFD" ++ leBytes 2 1 ++ leBytes 1 d.active ++ zeroBytes 1 ++ leBytes 4 d.gen ++ leBytes 4 d.lenA ++ leBytes 4 d.lenB ++
    leBytes 4 d.cfgLen ++ zeroBytes 8
  h ++ sha256 h

/-- The image written to the inactive slot, and the older directory copy made to point to it (R468, R482 step 1). -/
def persisted (b : Boot) (d : Dir) (f : Staged) : Boot :=
  let slot := b2n (d.active != 1)
  let n := f.image.length
  let e : Dir := { copy := 1 - d.copy, active := slot, gen := (d.gen + 1) % 2 ^ 32, lenA := if slot = 0 then n else d.lenA
                   lenB := if slot = 0 then d.lenB else n, cfgLen := d.cfgLen }
  { b with dir := some e
           flashOut := b.flashOut ++ [{ offset := if slot = 0 then 0x100000 else 0x1100000, data := f.image },
                                      { offset := 0x1000 * e.copy, data := dirBytes e }] }

/-- FLASH_PERSIST_DONE: the image stands in the inactive slot and the quiesce begins, or the message completes NO_RESOURCE (R482). -/
def execFlashPersistDone (ok : Bool) (s : State) : Out :=
  .next <| guarded s <|
    match s.boot.fwPhase, s.boot.staged, s.boot.dir with
    | .persist, some f, some d =>
      if ok then beginQuiesce { s with boot := persisted s.boot d f }
      else refuse { s with boot := { s.boot with fwPhase := .idle, staged := none } } f.ctx .noResource
    | .persist, some f, none => refuse { s with boot := { s.boot with fwPhase := .idle, staged := none } } f.ctx .noResource
    | _, _, _ => s

/-- Whether no attempt runs: each is gone, shelved, or waits before its clusters (R482 step 2). -/
def quiesced (s : State) : Bool :=
  s.parts.all fun p => match p.attempt with
    | some a => a.phase == .plan || a.phase == .claim || a.phase == .shelved
    | none => true

/-- FW_ACTIVATE_QUIESCED: the staged image takes over and every session ends, then plans resume and the message completes
(R482 steps 3 and 4). No fuse changes (R447). -/
def execFwActivateQuiesced (s : State) : Out :=
  .next <| guarded s <|
    match s.boot.fwPhase, s.boot.staged with
    | .quiesce, some f =>
      if !quiesced s then s
      else
        let b := runImage s.boot f.image
        let slot := match b.dir with | some d => d.active | none => b.ranSlot
        let b := { b with fwPhase := .idle, staged := none, ranSlot := if f.persist then slot else b.ranSlot
                          fallbackSlot := !f.persist && b.fallbackSlot }
        let s := setStage (endSessions { s with boot := b }) .serving
        rearm (respond s f.ctx .success (leBytes 2 f.ifMinor ++ zeroBytes 6 ++ f.digest))
    | _, _ => s

/-- FW_ACTIVATE_TIMEOUT: exchange and resume exceed 50 ms, which is HUB_WATCHDOG (R485). -/
def execFwActivateTimeout (s : State) : Out :=
  .next (guarded s (if s.boot.fwPhase == .quiesce && quiesced s then doubtUncontained s 0x16 0xFF 0 0 else s))

/-! ### Recovery (R433-R435) -/

/-- RECOVER: recovery begins, waiting first for a thermal trip to clear (R377, R379, R433). -/
def execRecover (fn : Nat) (via : Via) (s : State) : Out :=
  msgRow s fn via (isOp 0x0083) fun s m =>
    if !bodyZero m.cmd [] then refuse s m.ctx .invalidField
    else if s.flt.pkg != .quarantined || via != .mailbox then refuse s m.ctx .wrongState
    else setPkg { s with flt := { s.flt with recCtx := some m.ctx, recStep := if s.flt.trip then .cause else .verify } } .recovering

/-- The partition whose granules hold a frame. -/
def partOfFrame (s : State) (n : Nat) : Option Nat :=
  (List.range 8).find? fun p => (partOf s p).st != .disabled && frameIn (partOf s p).items n

/-- One frame that failed verification: unusable, its adapter ABSENT or its model removed (R434). -/
def badFrame (s : State) (n : Nat) : State :=
  match frameOf s n, partOfFrame s n with
  | some f, some p =>
    if !f.sealed || !(f.cls == .model || f.cls == .pool) then s
    else
      let s := updFrame s n fun g => { g with unusable := true }
      match f.owner with
      | .adapter i =>
        let s := freeOwner s p (.adapter i)
        settleRetiring (updAdapter s p i fun a => { a with st := .absent, frames := [], image := [], pins := 0, tries := 0 }) p
      | .model i =>
        let s := updPart (freeOwner s p (.model i)) p fun x => { x with slots := x.slots.set i none }
        logFault s 0x06 1 p n 1
      | _ => s
  | _, _ => s

/-- RECOVERY_VERIFY_DONE: every sealed weight and pool frame has been hashed again; the ones that differ are handled by owner
(R433 step 2, R434). -/
def execRecoveryVerifyDone (bad : List Nat) (s : State) : Out :=
  .next <| guarded s <|
    if s.flt.pkg != .recovering || s.flt.recStep != .verify then s
    else
      let s := bad.foldl badFrame s
      { s with flt := { s.flt with recStep := .test } }

/-- Every conserved quantity at its idle value (R433 step 4): G as the permits and admissions stand, no pin, no reservation, no
semaphore, CQ slots as messages fetched stand. -/
def idleQuantities (s : State) : State :=
  let g := { s.gov with releases := 0, g := heldDu s.gov (fun _ => true) + admittedDu s.gov }
  let s := { s with gov := g, adapters := s.adapters.map fun a : Adapter => { a with pins := 0 }
                    tenants := s.tenants.map fun t : Tenant => { t with res := 0 }
                    parts := s.parts.map fun p : Part => { p with sems := [] } }
  let fns := (List.range 16).map fun n =>
    let f := fnOf s n
    { f with cqs := f.cqs.map fun c : Cq => { c with reserved := cqOwed s n c.qid } }
  settleBalances { s with host := { s.host with fns := fns } } (List.range 8)

/-- Ports in HOLD stop sending it and enter DETECT (R433 step 5). -/
def leaveHold (s : State) : State :=
  (List.range 12).foldl (fun t n => if (portOf t n).st == .hold then detectPort t n else t) s

/-- Step 5 of R433: the package serves again and RECOVER completes. -/
def resumeServing (s : State) : State :=
  let c := s.flt.recCtx
  let s := { s with flt := { s.flt with faultN := false, quietN := false, dma := true, recStep := .idle, recCtx := none
                                        firstDtc := 0, firstSource := 0, firstLevel := 0, firstPart := 0, firstUnit := 0
                                        doubtCount := 0 } }
  let s := setPkg (leaveHold s) .serving
  rearm (match c with | some c => respond s c .success [] | none => s)

/-- RECOVERY_TEST_DONE: BIST and the known-answer test have ended; the ledger must balance and the package serves again, or the
recovery fails (R433 steps 3 to 5, R435). -/
def execRecoveryTestDone (failed : Option Nat) (s : State) : Out :=
  .next <| guarded s <|
    if s.flt.pkg != .recovering || s.flt.recStep != .test then s
    else if failed.isSome then recoveryFails s
    else
      let s := closeLedger (idleQuantities { s with clusters := [] }) (List.range 8)
      if s.flt.pkg != .recovering then s else resumeServing s

end Sys2Proof.Machine
end

