-- ==== Sys2Proof/Machine/Operands.lean ====
section
/-! DEFINITION. The operands of messages: the descriptors and command bodies of 13 that more than a field or two make up, read
and range-checked (13 Table MSG-6 to Table MSG-13, R371, R380). -/

namespace Sys2Proof.Machine

/-! ### Descriptors (R369, R371) -/

/-- Whether a DESC_ADDR, OUT_ADDR or other bus address of a message is aligned to 64 bytes (R369, R370). -/
def aligned64 (a : Nat) : Bool := a % 64 == 0

/-- What a descriptor read gives: its n bytes, where the address is aligned and the read has not failed (R339, R369). -/
def descBytes (n : Nat) (r : ReadResult) : Option Bytes :=
  match r with
  | some bs => if bs.length < n then none else some (bs.take n)
  | none => none

/-! ### The partition descriptor (Table MSG-6, Table PAR-1) -/

/-- A field of a descriptor, with its default where it reads 0. -/
def orDefault (v d : Nat) : Nat := if v = 0 then d else v

/-- PREEMPT codes. -/
def preemptOf : Nat → Preempt
  | 0 => .kill
  | 1 => .shelve
  | _ => .auto

/-- A slot's role code. -/
def roleOf : Nat → Role
  | 0 => .base
  | 1 => .fallback
  | 2 => .condenser
  | _ => .spare

/-- SLOT_ROLES as written, 0x00 selecting 0xE4 (R380). -/
def rolesOf (d : Bytes) : List Role :=
  let v := orDefault (rd d 9 1) 0xE4
  (List.range 4).map fun i => roleOf (v / 4 ^ i % 4)

/-- RATE and BURST of regulator i. -/
def rateOf (d : Bytes) (i : Nat) (dflt : Bool) : Nat × Nat :=
  let b := rd d (48 + 8 * i) 8
  (rd d (32 + 4 * i) 4, if dflt then orDefault b (2 ^ 32) else b)

/-- The items of a create descriptor, defaults in place (R380). -/
def readItems (d : Bytes) : Items :=
  { groups := rd d 0 4, hbmBase := rd d 4 2, hbmCount := rd d 6 2, groupSize := rd d 8 1, time := rd d 10 1 == 1
    quantum := orDefault (rd d 16 4) 500000, deadline := rd d 11 1 == 1, decay := orDefault (rd d 12 1) 8, full := rd d 13 1 == 1
    preempt := preemptOf (rd d 14 1), rowBudget := orDefault (rd d 20 2) 8192, chunk := orDefault (rd d 22 2) 512
    fbTokens := rd d 24 2, twin := rd d 15 1, tail := 65536 * rd d 26 1, stage := 65536 * rd d 27 1, pool := rd d 28 4
    rates := (List.range 4).map fun i => rateOf d i true }

/-- The items of a MODIFY: those whose MASK bit is set, the rest as they are (R380). -/
def maskItems (x : Items) (d : Bytes) (mask : Nat) : Items :=
  let on := bit mask
  { x with time := if on 0 then rd d 10 1 == 1 else x.time
           quantum := if on 1 then rd d 16 4 else x.quantum
           deadline := if on 2 then rd d 11 1 == 1 else x.deadline
           decay := if on 3 then rd d 12 1 else x.decay
           preempt := if on 4 then preemptOf (rd d 14 1) else x.preempt
           rowBudget := if on 5 then rd d 20 2 else x.rowBudget
           chunk := if on 6 then rd d 22 2 else x.chunk
           fbTokens := if on 7 then rd d 24 2 else x.fbTokens
           twin := if on 8 then rd d 15 1 else x.twin
           tail := if on 9 then 65536 * rd d 26 1 else x.tail
           stage := if on 10 then 65536 * rd d 27 1 else x.stage
           pool := if on 11 then rd d 28 4 else x.pool
           rates := (x.rates.zipIdx).map fun e => if on (12 + e.2) then rateOf d e.2 false else e.1 }

/-- Whether the enumerated bytes of a descriptor hold known codes and GROUPS[31:24] is zero, whether a MODIFY applies them or not (R11,
R371). -/
def itemCodesOk (d : Bytes) : Bool :=
  decide (rd d 10 1 ≤ 1) && decide (rd d 11 1 ≤ 1) && decide (rd d 14 1 ≤ 2) && decide (rd d 13 1 ≤ 1) && decide (rd d 0 4 < 2 ^ 24)

/-- Whether a step parameter is in lo to hi in steps of 64 (Table STP-1). -/
def step64 (lo hi v : Nat) : Bool := decide (lo ≤ v ∧ v ≤ hi) && v % 64 == 0

/-- Whether a regulator's setting is in range (Table PAR-4). The HBM limits are aggregate HBM bandwidths: a part with 18 of
the 24 cluster groups has 3/4 of them (R4, R290; log 22). -/
def rateOk (groups i : Nat) (r : Nat × Nat) : Bool :=
  decide (r.1 ≤ [4096 * groups, 81920 * groups / 24, 11293, 16000].getD i 0) && decide (65536 ≤ r.2 ∧ r.2 ≤ 2 ^ 32)

/-- Whether every item is in range (Table PAR-1, Table STP-1, Table PAR-4). -/
def itemsOk (groups : Nat) (it : Items) : Bool :=
  decide (0 < it.groups ∧ it.groups < 2 ^ groups) && decide (1 ≤ it.hbmCount) && [1, 2, 4, 8].contains it.groupSize &&
    decide (10000 ≤ it.quantum ∧ it.quantum ≤ 100000000) && decide (1 ≤ it.decay ∧ it.decay ≤ 16) && step64 64 8192 it.rowBudget &&
    step64 64 4096 it.chunk && decide (it.twin ≤ 4) && decide (it.tail ≤ 48 * 65536) && decide (it.stage ≤ 16 * 65536) &&
    decide (it.pool ≤ 16384 * it.hbmCount) && (it.rates.zipIdx).all fun e => rateOk groups e.2 e.1

/-- Whether roles have exactly one BASE and at most one FALLBACK and CONDENSER (Table PAR-1). -/
def rolesOk (rs : List Role) : Bool :=
  rs.count .base == 1 && decide (rs.count .fallback ≤ 1) && decide (rs.count .condenser ≤ 1)

/-! ### The model descriptor (Table MSG-7) -/

/-- What MODEL_LOAD's descriptor names. -/
structure ModelDesc where
  wHome : Nat × Nat × Nat
  pHome : Nat × Nat × Nat
  keepFree : Nat
  wDigest : Digest
  pDigest : Digest
  deriving DecidableEq, Repr

/-- A model descriptor's fields. -/
def readModelDesc (d : Bytes) : ModelDesc :=
  { wHome := (rd d 0 1, rd d 8 8, rd d 16 8), pHome := (rd d 1 1, rd d 24 8, rd d 32 8), keepFree := rd d 4 4
    wDigest := slice d 64 32, pDigest := slice d 96 32 }

/-! ### The request descriptor (Table MSG-10) -/

/-- What REQUEST_SUBMIT's descriptor holds. -/
structure ReqDesc where
  samp : Sampling
  /-- END_ACTION code, 0 for the tenant's default -/
  endCode : Nat
  nStop : Nat
  ad0 : Option Nat
  ad1 : Option Nat
  vector : Nat
  ring : Ring
  jrn : Ring
  firstDl : Nat
  tokDl : Nat
  irqRecords : Nat
  irqTicks : Nat
  promptLen : Nat
  deriving DecidableEq, Repr

/-- An adapter index of a descriptor, 0xFFFF naming none. -/
def indexOf (v : Nat) : Option Nat := if v = 0xFFFF then none else some v

/-- n token ids of 4 bytes from offset off. -/
def tokensAt (d : Bytes) (off n : Nat) : List Nat := (List.range n).map fun i => rd d (off + 4 * i) 4

/-- A request descriptor's fields. -/
def readReqDesc (d : Bytes) : ReqDesc :=
  let ring := fun (addr log2 ctrl : Nat) => ({ addr := addr, log2 := log2, ctrl := ctrl, pidx := 0, cidx := 0 } : Ring)
  let n := rd d 104 4
  { samp := { seed := rd d 8 8, temp := BitVec.ofNat 32 (rd d 16 4), topK := rd d 20 4, topP := BitVec.ofNat 32 (rd d 24 4)
              ctxMax := rd d 28 4, turnMax := rd d 32 4, endAction := endActOf (rd d 36 1), endDefault := decide (rd d 36 1 = 0)
              stops := tokensAt d 112 (min 8 (rd d 37 1)), prompt := tokensAt d 144 n }
    endCode := rd d 36 1, nStop := rd d 37 1, ad0 := indexOf (rd d 38 2), ad1 := indexOf (rd d 40 2), vector := rd d 42 2
    ring := ring (rd d 48 8) (rd d 44 1) (rd d 56 8), jrn := ring (rd d 64 8) (rd d 45 1) (rd d 72 8)
    firstDl := rd d 80 8, tokDl := rd d 88 8, irqRecords := rd d 96 4, irqTicks := rd d 100 4, promptLen := n }

/-! ### TENANT_SET (Table MSG-8) -/

/-- The body of TENANT_SET. -/
structure TenantBody where
  tenant : Nat
  op : Nat
  vf : Nat
  rate : Nat
  burst : Nat
  weight : Nat
  endCode : Nat
  idleCode : Nat
  idleTicks : Nat
  parkOffset : Nat
  parkTtl : Nat
  parkStride : Nat
  mask : Nat
  deriving DecidableEq, Repr

/-- TENANT_SET's fields. -/
def readTenantBody (c : Bytes) : TenantBody :=
  { tenant := rd c 8 2, op := rd c 10 1, vf := rd c 11 1, rate := rd c 12 4, burst := rd c 16 4, weight := rd c 20 2
    endCode := rd c 22 1, idleCode := rd c 23 1, idleTicks := rd c 24 8, parkOffset := rd c 32 8, parkTtl := rd c 40 8
    parkStride := rd c 48 8, mask := rd c 56 2 }

/-- The IDLE_ACTION of a code (Table MSG-8). -/
def idleOf : Nat → IdleAct
  | 1 => .park
  | 2 => .condense
  | _ => .drop

/-- Whether a TTL is in the range of R143. -/
def ttlOk (t : Nat) : Bool := decide (100000000 ≤ t ∧ t ≤ 259200000000000)

end Sys2Proof.Machine
end

