-- ==== Sys2Proof/Machine/Forward.lean ====
section
/-! DEFINITION. Messages of group class F on their way to the leader, and what the leader relays to the members (11 R323;
13 R368, R369; log 24). -/

namespace Sys2Proof.Machine

/-- Whether a message of class F must go to the leader: it came from this package's own host and its partition is led elsewhere
(R368). -/
def goesToLeader (s : State) (m : Taken) : Bool :=
  (match m.ctx.origin with | .link _ _ => false | _ => true) && (partOf s m.ctx.part).st != .disabled && spans s m.ctx.part &&
    !leads s m.ctx.part

/-- The FORWARD messages that carry a descriptor after its message, at most 4,072 bytes each (R369). -/
def descParts (part fn : Nat) (d : Bytes) : List Bytes :=
  (chunks 4072 d).map fun b => linkHeader 0x05 0x01 (8 + b.length) part 0 0 0 0 ++ leBytes 2 fn ++ zeroBytes 6 ++ b

/-- A message sent to the leader of its partition, its descriptor behind it; its context waits for the response (R22, R323, R369). -/
def forwardMsg (s : State) (m : Taken) (desc : Bytes) : State :=
  let p := m.ctx.part
  let g := (partOf s p).items.groupSize
  let s := { s with host := { s.host with forwarded := s.host.forwarded ++ [m.ctx] } }
  (([linkHeader 0x05 0x01 72 p 0 0 0 0 ++ leBytes 2 m.fn ++ zeroBytes 6 ++ m.cmd]) ++ descParts p m.fn desc).foldl (fun t b => sendMember t g 0 0 b) s

/-- The function id that marks a FORWARD as the leader's relay (log 24). -/
def relayFn : Nat := 0xFFFF

/-- An accepted message relayed to every other member, with its acceptance DTC, an id the leader gave, and its descriptor (R22,
R151, R177, R297, R369). -/
def relay (s : State) (m : Taken) (id : Nat) (desc : Bytes) : State :=
  let p := m.ctx.part
  if spans s p && leads s p then
    let body := leBytes 2 relayFn ++ zeroBytes 6 ++ m.cmd ++ leBytes 8 m.ctx.accept ++ leBytes 8 id
    ((linkHeader 0x05 0x01 body.length p 0 0 0 0 ++ body) :: descParts p relayFn desc).foldl
      (fun t b => sendOthers t (partOf t p).items.groupSize 0 b) s
  else s

/-- A message that stands for what the leader itself decides of a request: opcode, tenant, handle and the rest of the body (log 24). -/
def ownMsg (q : Req) (op accept : Nat) (rest : Bytes) : Taken :=
  let cmd := slice (leBytes 2 op ++ leBytes 2 0 ++ leBytes 2 q.tenant ++ leBytes 1 q.part ++ zeroBytes 1 ++ leBytes 8 q.h ++ rest) 0 64
  { cmd := cmd, ctx := ctxOf .board cmd accept, fn := 0 }

/-- A cancel that the leader decides for another cause than REQUEST_CANCEL, with its stamp and DETAIL, on every member (R99, R173,
R177; log 24). -/
def cancelTold (s : State) (q : Req) (st d : Nat) : State := cancelReq (relay s (ownMsg q 0x0041 st (leBytes 1 d)) q.h []) q.h st d

/-- A message of class F: forwarded, or decided here (R368). -/
def classF (core : State → Taken → State) (s : State) (m : Taken) : State :=
  if goesToLeader s m then forwardMsg s m [] else core s m

/-- A message of class F with a descriptor of n bytes: the descriptor is read through the sending function first; a read that fails
completes DESC_FAULT, an address that is not aligned INVALID_FIELD (R369, R371). -/
def withDesc (addr n : Nat) (desc : ReadResult) (isF : Bool) (core : State → Taken → Bytes → State) (s : State) (m : Taken) : State :=
  if !aligned64 addr then refuse s m.ctx .invalidField
  else match descBytes n desc with
    | none => refuse s m.ctx .descFault
    | some d => if isF && goesToLeader s m then forwardMsg s m d else core s m d

end Sys2Proof.Machine
end

