-- ==== Sys2Proof/Machine/Partitions.lean ====
section
/-! DEFINITION. Creating, modifying and disabling partitions: the meanings of PARTITION_CREATE, PARTITION_MODIFY,
PARTITION_DISABLE_DRAIN and PARTITION_DISABLE_ABORT (10 R266-R271, R278, R297-R300; 11 R326; 13 R379, R380). -/

namespace Sys2Proof.Machine

/-! ### Cluster Store (R269, R215) -/

/-- Working space of a model under some items: WORK_BYTES, or WORK_BYTES_TWIN with TWIN not 0 (R269). -/
def workOf (it : Items) (m : Model) : Nat :=
  match layoutIn it m with | some l => if it.twin = 0 then l.work else l.workTwin | none => 0

/-- The largest working space among the resident programs of a partition. -/
def workMax (it : Items) (x : Part) : Nat := ((x.slots.filterMap id).map (workOf it)).foldl max 0

/-- What the other partitions of a cluster need of its store: carve-outs, and the largest working space, under their items in force and
under those of a MODIFY that has still to take effect (R267, R269). -/
def othersNeed (s : State) (p c : Nat) : Nat × Nat :=
  ((s.parts.zipIdx).filter fun e => e.2 != p && e.1.st != .disabled && bit e.1.items.groups (c / 8)).foldl
    (fun a e =>
      let f := e.1.items
      let u := upcoming e.1
      (a.1 + max (f.tail + f.stage) (u.tail + u.stage), max a.2 (max (workMax f e.1) (workMax u e.1)))) (0, 0)

/-- Whether every cluster of a set holds what its partitions need, with the working space w for this one (R269). -/
def storeFits (s : State) (p : Nat) (it : Items) (w : Nat) : Bool :=
  (clusterSet it).all fun c => let o := othersNeed s p c; decide (o.1 + it.tail + it.stage + max o.2 w ≤ 4194304)

/-- Whether every resident program passes check 5 of Table CLU-11 with some items (R215). -/
def programsFit (it : Items) (x : Part) : Bool :=
  (x.slots.filterMap id).all fun m => match layoutIn it m with
    | some l => decide (it.tail + it.stage + (if it.twin = 0 then l.work else l.workTwin) ≤ 4194304) && decide (it.rowBudget ≤ l.stagingRows)
    | none => true

/-! ### PARTITION_CREATE (R267, R268, R380) -/

/-- The overlap rule of R278 for some items of partition p, against the other partitions' items in force and those of a MODIFY that has
still to take effect; the partitions of a TIME set span the same members (R282). -/
def overlapOk (s : State) (p : Nat) (it : Items) : Bool :=
  (s.parts.zipIdx).all fun e => e.2 == p || e.1.st == .disabled || !((List.range 24).any fun g => bit it.groups g && bit e.1.items.groups g) ||
    (it.time && e.1.items.time && (upcoming e.1).time && it.groupSize == e.1.items.groupSize)

/-- Whether granules are the part's and no other partition's (R268 check 4). -/
def granulesOk (s : State) (p : Nat) (it : Items) : Bool :=
  decide (it.hbmBase + it.hbmCount ≤ nGranules s) &&
    (s.parts.zipIdx).all fun e => e.2 == p || e.1.st == .disabled ||
      decide (e.1.items.hbmBase + e.1.items.hbmCount ≤ it.hbmBase ∨ it.hbmBase + it.hbmCount ≤ e.1.items.hbmBase)

/-- Whether a command and descriptor of PARTITION_CREATE have their reserved fields zero and a MASK as R380 wants it. -/
def createFormed (cmd d : Bytes) (modify : Bool) : Bool :=
  bodyZero cmd [(8, 8), (16, 4), (20, 4)] && decide (rd cmd 16 4 < 2) && zeros d 80 48 &&
    (if modify then decide (rd cmd 20 4 < 65536) else rd cmd 20 4 == 0)

/-- A partition as PARTITION_CREATE leaves it: ACTIVE, regulators full, counters zero (R286, R287, R297). -/
def createdPart (x : Part) (it : Items) (roles : List Role) (now : Nat) : Part :=
  { disabledPart x with st := .active, items := it, roles := roles, levels := it.rates.map fun r => (r.2 : Int), lastFreeze := now }

/-- PARTITION_CREATE behind its descriptor read: the checks of Table PAR-2 in order, then the partition is ACTIVE and its domains
power up (R267, R268, R326, R405). -/
def createPart (s : State) (m : Taken) (d : Bytes) : State :=
  let p := m.ctx.part
  let it := readItems d
  let roles := rolesOf d
  if !createFormed m.cmd d false || !itemCodesOk d || !itemsOk (nGroups s) it || !rolesOk roles then refuse s m.ctx .invalidField
  else if 1 < it.groupSize ∧ (groupFormed s = false ∨ s.group.size < it.groupSize) then refuse s m.ctx .wrongState
  else if (partOf s p).st != .disabled then refuse s m.ctx .indexInUse
  else if !overlapOk s p it then refuse s m.ctx .conflict
  else if !granulesOk s p it || !storeFits s p it 0 then refuse s m.ctx .noResource
  else if itemsDiffer s p it then refuse s m.ctx .conflict
  else
    let s := updPart s p fun x => createdPart x it roles s.boot.dtc
    respond (domainsUp s p) m.ctx .success []

/-- PARTITION_CREATE: a new partition (R267, R268, R271). -/
def execPartitionCreate (fn : Nat) (via : Via) (desc : ReadResult) (s : State) : Out :=
  msgRow s fn via (fun c => isOp 0x0010 c && !bit (rd c 16 4) 0) fun s m => withDesc (rd m.cmd 8 8) 128 desc false createPart s m

/-- PARTITION_CREATE with MODIFY behind its descriptor read: the masked items, checked, in force from the next freeze instant (R267,
R268, R278, R289). -/
def modifyPart (s : State) (m : Taken) (d : Bytes) : State :=
  let p := m.ctx.part
  let x := partOf s p
  let mask := rd m.cmd 20 4
  let free := { Items.default with groups := 1, hbmCount := 288 }
  let it := maskItems (if x.st == .disabled then free else upcoming x) d mask
  if !createFormed m.cmd d true || !itemCodesOk d || !itemsOk (nGroups s) it then refuse s m.ctx .invalidField
  else if x.st != .active then refuse s m.ctx .wrongState
  else if !overlapOk s p it then refuse s m.ctx .conflict
  else if !programsFit it x || !storeFits s p it (workMax it x) then refuse s m.ctx .noResource
  else if itemsDiffer s p it then refuse s m.ctx .conflict
  else respond (updPart s p fun y => { y with pendItems := some it }) m.ctx .success []

/-- PARTITION_MODIFY: modifiable items changed at the next freeze instant (R267, R268). -/
def execPartitionModify (fn : Nat) (via : Via) (desc : ReadResult) (s : State) : Out :=
  msgRow s fn via (fun c => isOp 0x0010 c && bit (rd c 16 4) 0) fun s m => withDesc (rd m.cmd 8 8) 128 desc false modifyPart s m

/-! ### PARTITION_DISABLE (R297-R300, R379) -/

/-- A DRAIN of partition p stamped st with a limit (R298). -/
def startDrain (s : State) (p st ticks : Nat) (cs : List MsgCtx) : State :=
  updPart s p fun x => { x with st := .draining, disable := some { stamp := st, deadline := some (st + ticks), done := false, ctxs := cs } }

/-- An ABORT of partition p stamped st; it takes over a DRAIN (R298, R299). -/
def startAbort (s : State) (p st : Nat) (cs : List MsgCtx) : State :=
  let old := match (partOf s p).disable with | some d => d.ctxs | none => []
  abortPart (updPart s p fun x => { x with disable := some { stamp := st, deadline := none, done := false, ctxs := old ++ cs } }) p st

/-- PARTITION_DISABLE with DRAIN (R298, R379). An unknown MODE is refused here. -/
def drainMsg (s : State) (m : Taken) : State :=
  let p := m.ctx.part
  let st := (partOf s p).st
  if !bodyZero m.cmd [(8, 1), (16, 8)] || rd m.cmd 8 1 != 1 || !decide (rd m.cmd 16 8 < 2 ^ 48) then refuse s m.ctx .invalidField
  else if st == .disabled then refuse s m.ctx .wrongState
  else if st != .active then refuse s m.ctx .busy
  else startDrain (relay s m 0 []) p m.ctx.accept (rd m.cmd 16 8) [m.ctx]

/-- PARTITION_DISABLE_DRAIN: no new request; the partition goes DISABLED when none is left (R297, R298). -/
def execPartitionDisableDrain (fn : Nat) (via : Via) (s : State) : Out :=
  msgRow s fn via (fun c => isOp 0x0011 c && rd c 8 1 != 2) (classF drainMsg)

/-- PARTITION_DISABLE with ABORT (R299, R379). DESIGN CHOICE (log 21): DRAIN_TICKS, which the catalog gives to DRAIN, is a reserved field
under ABORT. -/
def abortMsg (s : State) (m : Taken) : State :=
  let p := m.ctx.part
  let st := (partOf s p).st
  if !bodyZero m.cmd [(8, 1)] then refuse s m.ctx .invalidField
  else if st == .disabled then refuse s m.ctx .wrongState
  else if st == .aborting then refuse s m.ctx .busy
  else startAbort (relay s m 0 []) p m.ctx.accept [m.ctx]

/-- PARTITION_DISABLE_ABORT: everything of the partition ends and is freed (R297, R299). -/
def execPartitionDisableAbort (fn : Nat) (via : Via) (s : State) : Out := msgRow s fn via (isOp2 0x0011 8 2) (classF abortMsg)

end Sys2Proof.Machine
end

