-- ==== Sys2Proof/Machine/Sinter.lean ====
section
/-! DEFINITION. Frames sealed, layers streamed, scrub, and doubt reported by a unit: the meanings of SINTER_FRAME_SEALED,
STREAM_LAYER_SEALED, STREAM_STALLED, SCRUB_READ, HUB_WATCHDOG, DOUBT_CONTAINED and DOUBT_UNCONTAINED
(09 §4, §6, §7; 15 R424-R428, R436). -/

namespace Sys2Proof.Machine

/-! ### Seals (R244, R245) -/

/-- The bytes a frame holds and the class it is sealed into, by its owner (R133, R144, R154, R293). -/
def sealedAs (s : State) (p : Nat) (f : Frame) : Bytes × FrameClass :=
  let x := partOf s p
  match f.owner with
  | .stream h fb => match reqOf s h with
    | some q =>
      let g := if fb then fbGeom x q else geomOf x q.base
      let st := if fb then q.kvFb else q.kvBase
      (kvFrame g st.kv (st.frames.idxOf f.no), if q.parking.isSome then .transit else .kv)
    | none => ([], f.cls)
  | .condensed h => match reqOf s h with
    | some q => match q.cond with
      | some c => (slice c.vecs.flatten (65536 * c.frames.idxOf f.no) 65536, .condensed)
      | none => ([], f.cls)
    | none => ([], f.cls)
  | .shelf => match x.attempt with
    | some a => (shelfChunk a (a.shelfFrames.idxOf f.no), .shelf)
    | none => ([], f.cls)
  | .model _ => ([], .model)
  | .adapter _ => ([], .pool)
  | .nobody => ([], f.cls)

/-- Whether a frame's owner fills it with an image, which its own command seals. -/
def imageFrame : Owner → Bool
  | .model _ => true
  | .adapter _ => true
  | _ => false

/-- A park that waits for a frame to be sealed goes on (R144). -/
def afterSeal (s : State) : Owner → State
  | .stream h _ => parkWrites s h
  | _ => s

/-- A frame whose last granule is written, under its run's permit: sealed, or doubt if the two digest lanes differ (R245). The command
that ends an image's transfer seals its frames, if their lanes have not differed. -/
def frameSealed (s : State) (n : Nat) (lanesEqual : Bool) : State :=
  let h := stackOf s n
  match frameOf s n, partOfFrame s n with
  | some f, some p =>
    if f.sealed || !(f.written == 128 || imageFrame f.owner) || !holds s.gov (392 + h) .sinter then s
    else if !lanesEqual then doubt s 0x05 p h 0
    else if imageFrame f.owner then s
    else
      let b := sealedAs s p f
      afterSeal (runEnds (sealFrame s n b.2 b.1) h) f.owner
  | _, _ => s

/-- SINTER_FRAME_SEALED: a frame completes; equal lane digests seal it (R244, R245). -/
def execSinterFrameSealed (frame : Nat) (lanesEqual : Bool) (s : State) : Out :=
  onFrame s frame fun _ => guarded s (frameSealed s frame lanesEqual)

/-! ### Streamed layers (R262-R265) -/

/-- The streamed layer after layer l, in cyclic order (R262). -/
def nextStream (m : Model) (l : Nat) : Nat := if l + 1 < imageLayers m then l + 1 else m.resident

/-- Frames of the layer being streamed that are still to be read: place in the layer. -/
def framesLeft (m : Model) : List Nat := (List.range (layerFrames m.tensors m.nextLayer)).filter fun i => !m.got.contains i

/-- Whether the read of a layer's frame number i gave the bytes its recorded digest names (R262). -/
def frameGood (s : State) (m : Model) (data : ReadResult) (i : Nat) : Bool :=
  match data with
  | some bs =>
    winOk s 0 m.home.1 0 m.home.2.1 m.home.2.2 && decide (65536 * (i + 1) ≤ bs.length) &&
      sha256 (slice bs (65536 * i) 65536) == (m.layerDigests.getD (m.nextLayer - m.resident) []).getD i []
  | none => false

/-- A read of the frames of the next streamed layer that are not in the free half yet: a frame that has its recorded digest is sealed,
and any other is counted against its three reads (R262, R265). With every frame the layer is in the ring, STREAM_STALLED ends and the
Sinter runs are over. -/
def streamRead (s : State) (p slot : Nat) (m : Model) (half : Nat) (data : ReadResult) : State :=
  let l := m.nextLayer
  let fs := halfFrames s p slot m half
  let left := framesLeft m
  let want := m.layerDigests.getD (l - m.resident) []
  let s := charge (charge s p 3 (65536 * left.length)) p 1 (65536 * left.length)
  let good := left.filter (frameGood s m data)
  let s := good.foldl (fun t i => updFrame t (fs.getD i 0) fun f => { f with sealed := true, written := 128, digest := want.getD i [] }) s
  let got := m.got ++ good
  let tries := (List.range (layerFrames m.tensors l)).map fun i =>
    if left.contains i && !good.contains i then min 3 (m.tries.getD i 0 + 1) else m.tries.getD i 0
  if good.length = left.length then
    endRuns (updModel s p slot fun y =>
      { y with ring := y.ring.set half l, nextLayer := nextStream m l, tries := [], got := [], stalled := false }) fs
  else updModel s p slot fun y => { y with tries := tries, got := got }

/-- Whether a frame of the layer being streamed has failed its three reads (R265). -/
def streamFailed (m : Model) : Bool := m.tries.any fun n => decide (3 ≤ n)

/-- Whether the Sinter Engine holds its permits for the stacks of some frames. -/
def runsHeld (s : State) (ns : List Nat) : Bool := ((ns.map (stackOf s)).eraseDups).all fun h => holds s.gov (392 + h) .sinter

/-- STREAM_LAYER_SEALED: the transfer of the next streamed layer into the ring ends, under the permits of the Sinter runs that write it
(R245, R262, R265). -/
def execStreamLayerSealed (p slot : Nat) (data : ReadResult) (s : State) : Out :=
  partRow s p <|
    match modelAt (partOf s p) slot with
    | none => s
    | some m =>
      let x := partOf s p
      let half := m.ring.idxOf 0xFFFF
      let fs := (halfFrames s p slot m half).take (layerFrames m.tensors m.nextLayer)
      if !m.stream || !m.ring.contains 0xFFFF || streamFailed m || s.flt.pkg != .serving || !s.host.linkUp || !mayStart x 3 ||
          !mayStart x 1 then s
      else if !runsHeld s fs then fs.foldl askSinter s
      else streamRead s p slot m half data

/-- STREAM_STALLED: a streamed frame has failed three times; the attempt that needs the model is killed and no plan gives it rows
until a read succeeds (R265). -/
def execStreamStalled (p slot : Nat) (s : State) : Out :=
  partRow s p <|
    match modelAt (partOf s p) slot with
    | none => s
    | some m =>
      if m.stalled || !streamFailed m then s
      else
        let s := updModel s p slot fun y => { y with stalled := true }
        match (partOf s p).attempt with
        | some a => if (invsOf a.plan.rows).contains slot then killStart s p 4 .fresh true else s
        | none => s

/-! ### Scrub (R254-R257) -/

/-- A frame's entry, or a free one made for it. -/
def frameEntry (s : State) (n : Nat) : Frame :=
  (frameOf s n).getD { no := n, cls := .free, owner := .nobody, sealed := false, written := 0, digest := [], corrected := 0, unusable := false }

/-- Whether scrub takes frame n next: not read in this pass, and no frame moved to the front is still to come (R254, R256). -/
def scrubNext (s : State) (n : Nat) : Bool :=
  !s.tele.scrubRead.contains n &&
    (match s.tele.scrubFront.filter fun f => !s.tele.scrubRead.contains f with | [] => true | f :: _ => f == n)

/-- A frame read in the pass; the last frame of a pass starts the next one (R256, R257). -/
def scrubNote (s : State) (n : Nat) : State :=
  let rs := s.tele.scrubRead ++ [n]
  if rs.length < nFrames s then { s with tele := { s.tele with scrubRead := rs } }
  else
    { s with tele := { s.tele with scrubRead := [], scrubStart := s.boot.dtc }
             frames := ((s.frames.map fun f : Frame => { f with corrected := if f.corrected < 3 then 0 else f.corrected }).filter
               fun f : Frame => !(f.cls == .free && !f.unusable && f.corrected == 0)) }

/-- What scrub does with a frame it has read (R254-R256). -/
def scrubFrame (s : State) (n : Nat) (ecc : EccRead) (digestEqual : Bool) : State :=
  let f := frameEntry s n
  let p := (partOfFrame s n).getD 0xFF
  match ecc with
  | .uncorrectable w =>
    if f.cls == .free then putFrame s { f with unusable := true } else doubt s 0x04 p n w
  | .corrected k =>
    let s := putFrame { s with tele := { s.tele with hbmCorrected := satAdd 64 s.tele.hbmCorrected k, scrubFront := n :: s.tele.scrubFront } }
      { f with corrected := f.corrected + k }
    if f.sealed && !digestEqual then doubt s 0x06 p n 0 else s
  | .clean => if f.sealed && !digestEqual then doubt s 0x06 p n 0 else s

/-- SCRUB_READ: scrub reads one frame under an HBM_TRAIN permit, for ECC and, if it is sealed, for its digest (R254-R257). -/
def execScrubRead (frame : Nat) (ecc : EccRead) (digestEqual : Bool) (s : State) : Out :=
  onFrame s frame fun h => guarded s <|
    if !scrubNext s frame then s
    else if !holds s.gov (384 + h) .hbmTrain then askPermit s (384 + h) .hbmTrain
    else
      let t := { s with gov := govDrop s.gov (384 + h) .hbmTrain, tele := { s.tele with scrubFront := s.tele.scrubFront.filter (· != frame) } }
      scrubNote (scrubFrame t frame ecc digestEqual) frame

/-! ### Doubt that a unit reports (R424, R425) -/

/-- HUB_WATCHDOG: one of the two core pairs has not serviced its watchdog for 100 ms (R16, R425). -/
def execHubWatchdog (pair : Nat) (s : State) : Out :=
  inRange pair 2 <| guarded s <|
    doubtUncontained { s with tele := { s.tele with watchdogs := s.tele.watchdogs ++ [pair] } } 0x16 0xFF pair 0

/-- DETAIL of a source's log entry: only sources 0x01, 0x04 and 0x0D have one (Table FLT-6). -/
def detailOf (source detail : Nat) : Nat := if source = 0x01 ∨ source = 0x04 ∨ source = 0x0D then detail % 2 ^ 32 else 0

/-- PARTITION of a log entry (Table FLT-6). -/
def logPart (part : Nat) : Nat := if part < 8 then part else 0xFF

/-- DOUBT_CONTAINED: a unit reports a contained source of Table FLT-1 (R424, R427, R428, R435). -/
def execDoubtContained (source unit detail part : Nat) (s : State) : Out :=
  .next <| guarded s <|
    if 0x01 ≤ source ∧ source ≤ 0x11 then doubt s source (logPart part) (unit % 2 ^ 32) (detailOf source detail) else s

/-- DOUBT_UNCONTAINED: a unit reports an uncontained source of Table FLT-1 (R424, R436). -/
def execDoubtUncontained (source unit detail part : Nat) (s : State) : Out :=
  .next <| guarded s <|
    if 0x12 ≤ source ∧ source ≤ 0x16 then doubtUncontained s source (logPart part) (unit % 2 ^ 32) (detailOf source detail) else s

end Sys2Proof.Machine
end

