-- ==== Sys2Proof/Machine/Models.lean ====
section
/-! DEFINITION. Models: the meanings of MODEL_LOAD, MODEL_LOAD_DONE and MODEL_UNLOAD (08 R215; 09 R258-R262; 10 R272-R276;
13 R379, R381; log 23, 25). -/

namespace Sys2Proof.Machine

/-- The descriptor number of window w of partition p (R345); 512 where the partition has no such window. -/
def winNo (p w : Nat) : Nat := if w < 64 then 64 * p + w else 512

/-! ### MODEL_LOAD (R274, R381) -/

/-- The slot that receives the image: the named one, or for a swap-in the lowest empty SPARE slot (R274). -/
def loadInto (x : Part) (slot : Nat) : Option Nat :=
  if (modelAt x slot).isNone then some slot
  else (List.range 4).find? fun i => i != slot && (modelAt x i).isNone && x.roles.getD i .spare == .spare

/-- Whether a command and descriptor of MODEL_LOAD are in range (R371, R381). -/
def loadFormed (cmd d : Bytes) : Bool :=
  bodyZero cmd [(8, 8), (16, 3)] && decide (rd cmd 16 1 < 4) && decide (1 ≤ rd cmd 17 1 ∧ rd cmd 17 1 ≤ 2) &&
    decide (1 ≤ rd cmd 18 1 ∧ rd cmd 18 1 ≤ 2) && zeros d 2 2 && zeros d 40 24

/-- The load a command and descriptor ask for, into a slot. -/
def loadOf (m : Taken) (d : Bytes) (into : Nat) : Load :=
  let r := readModelDesc d
  { ctx := m.ctx, slot := rd m.cmd 16 1, into := into, stream := rd m.cmd 17 1 == 2
    level := if rd m.cmd 18 1 = 1 then .nlX1 else .nlT1, keepFree := r.keepFree, wDigest := r.wDigest, pDigest := r.pDigest
    wHome := (winNo m.ctx.part r.wHome.1, r.wHome.2), pHome := (winNo m.ctx.part r.pHome.1, r.pHome.2), ready := false
    result := (0, 0, 0) }

/-- Whether a load differs in LEVEL or digests from what the leader holds in the same slot (R381; log 24). -/
def loadDiffers (s : State) (p : Nat) (l : Load) : Bool :=
  match leaderTold s p (partOf s p).items.groupSize .model l.into with
  | some b => b != keyBody { weights := l.wDigest, program := l.pDigest, level := l.level }
  | none => false

/-- MODEL_LOAD behind its descriptor read: the checks that need no byte of the images, then the load is pending and its Sinter runs ask
for their permits (R245, R274, R376). -/
def startLoad (s : State) (m : Taken) (d : Bytes) : State :=
  let p := m.ctx.part
  let x := partOf s p
  if !loadFormed m.cmd d then refuse s m.ctx .invalidField
  else if x.st != .active then refuse s m.ctx .wrongState
  else if x.load.isSome then refuse s m.ctx .busy
  else match loadInto x (rd m.cmd 16 1) with
    | none => refuse s m.ctx .noResource
    | some i =>
      let l := loadOf m d i
      if loadDiffers s p l then refuse s m.ctx .conflict
      else askStacks (winUse (winUse (updPart s p fun y => { y with load := some l }) l.wHome.1 1) l.pHome.1 1)

/-- MODEL_LOAD: the read of a weights image and a program image begins (R274, R381). -/
def execModelLoad (fn : Nat) (via : Via) (desc : ReadResult) (s : State) : Out :=
  msgRow s fn via (isOp 0x0012) fun s m => withDesc (rd m.cmd 8 8) 128 desc false startLoad s m

/-! ### MODEL_LOAD_DONE (R215, R258-R262, R381) -/

/-- What the checks of a load find: a code with the SHORTFALL it reports, or the program, the tensor table and the residency split
(STREAM, n, frames). -/
inductive LoadCheck where
  | fails (c : Code) (short : Nat)
  | loads (prog : Program) (tensors : List Tensor) (stream : Bool) (n frames : Nat)
  deriving DecidableEq, Repr

/-- Frames that a STREAM load with n resident layers takes, L layers in all (R260). -/
def streamNeed (ts : List Tensor) (layers progFrames n : Nat) : Nat :=
  let f := (List.range layers).map (layerFrames ts)
  progFrames + weightsFixed ts + 2 * f.foldl max 0 + sumNat (f.take n)

/-- Admission by R259 and R260 with some usable free frames. -/
def admitLoad (l : Load) (prog : Program) (ts : List Tensor) (layers w p free : Nat) : LoadCheck :=
  let fits := fun k => decide (k + l.keepFree ≤ free)
  if l.stream then
    let ns := (List.range (layers + 1)).filter fun n => fits (streamNeed ts layers p n)
    match ns.getLast? with
    | none => .fails .noResource (streamNeed ts layers p 0 + l.keepFree - free)
    | some n => if n = layers then .loads prog ts false n (w + p) else .loads prog ts true n (streamNeed ts layers p n)
  else if fits (w + p) then .loads prog ts false layers (w + p)
  else .fails .noResource (w + p + l.keepFree - free)

/-- The bytes a home gave, where its window holds it (R239, R348). -/
def homeBytes (s : State) (h : Nat × Nat × Nat) (r : ReadResult) : Option Bytes :=
  match r with
  | some bs => if winOk s 0 h.1 0 h.2.1 h.2.2 && bs.length == h.2.2 then some bs else none
  | none => none

/-- Whether a program image's KIND suits the role of the slot a load names (R272). -/
def kindOk (x : Part) (slot : Nat) (prog : Bytes) : Bool :=
  rd prog 6 1 == (if x.roles.getD slot .spare == .condenser then 2 else 1)

/-- Check 5 of Table CLU-11 with the items the partition has or will have (R215, R269). -/
def workOk (s : State) (p : Nat) (l : Layout) : Bool :=
  let x := partOf s p
  let it := upcoming x
  let w := if it.twin = 0 then l.work else l.workTwin
  storeFits s p it (max (workMax it x) w) && decide (it.rowBudget ≤ l.stagingRows)

/-- The checks of R381 on what was read, in order. -/
def checkLoad (s : State) (p : Nat) (l : Load) (weights program : ReadResult) : LoadCheck :=
  let x := partOf s p
  match homeBytes s l.wHome weights, homeBytes s l.pHome program with
  | some w, some g =>
    if !kindOk x l.slot g then .fails .invalidField 0
    else if sha256 w != l.wDigest then .fails .digestMismatch 0
    else match parseWeights w with
      | none => .fails .imageInvalid 0
      | some (layers, ts) =>
        if programDigest g != l.pDigest || slice g 224 32 != l.pDigest then .fails .digestMismatch 0
        else match parseProgram g with
          | none => .fails .imageInvalid 0
          | some prog =>
            if prog.modelDigest != l.wDigest then .fails .imageInvalid 0
            else match layoutFor prog x.items.groupSize (partClusters (upcoming x)) with
              | none => .fails .layoutMismatch 0
              | some lay =>
                if !workOk s p lay then .fails .noResource 0
                else admitLoad l prog ts layers (ceilDiv w.length 65536) (ceilDiv g.length 65536) (usableFree s p)
  | _, _ => .fails .homeFault 0

/-- A model as its load leaves it (R260-R262). -/
def loadedModel (l : Load) (w : Bytes) (prog : Program) (ts : List Tensor) (stream : Bool) (n : Nat) : Model :=
  let m : Model :=
    { key := { weights := l.wDigest, program := l.pDigest, level := l.level }, stream := stream, resident := n, unloading := false
      stalled := false, tries := [], got := [], ring := [], nextLayer := n, layerDigests := [], home := l.wHome, image := w, tensors := ts
      prog := prog, xp96 := [] }
  if stream then
    let b := nextStream m n
    { m with ring := [n, b], nextLayer := nextStream m b
             layerDigests := (List.range (imageLayers m - n)).map fun i =>
               (chunks 65536 (slice w (65536 * layerStart ts (n + i)) (65536 * layerFrames ts (n + i)))).map sha256 }
  else m

/-- The bytes of a ring half that holds a layer. -/
def halfBytes (m : Model) (layer : Nat) : Bytes :=
  let k := 65536 * layerFrames m.tensors layer
  slice (slice m.image (65536 * layerStart m.tensors layer) k) 0 (65536 * ringHalf m)

/-- What a load writes to its frames, in their order: the resident image, the ring, the program (log 23). -/
def loadBytes (m : Model) (prog : Bytes) : List Bytes :=
  chunks 65536 (slice m.image 0 (65536 * residentFrames m) ++ (if m.stream then m.ring.flatMap (halfBytes m) else []) ++ padTo prog 65536)

/-- A load that passed its checks: its frames taken and sealed, the model in its slot, or ready for the role exchange of a swap-in
(R245, R274). -/
def sealLoad (s : State) (p : Nat) (l : Load) (m : Model) (prog : Bytes) : State :=
  let bs := loadBytes m prog
  match openFrames s p .transit (.model l.into) bs.length with
  | none => respond (updPart s p fun x => { x with load := none }) l.ctx .noResource []
  | some (ns, s) =>
    let s := (ns.zip bs).foldl (fun t e => sealFrame t e.1 .model e.2) s
    let s := charge s p 1 (65536 * bs.length)
    let res := (if m.stream then 2 else 1, m.resident, bs.length)
    if l.into = l.slot then
      let s := updPart s p fun x => { x with slots := x.slots.set l.into (some m), load := none }
      respond s l.ctx .success (loadBody res.1 res.2.1 0 res.2.2)
    else updPart s p fun x => { x with slots := x.slots.set l.into (some m), load := some { l with ready := true, result := res } }

/-- Every stack's Sinter run for a transfer that is over ends. -/
def allRunsEnd (s : State) : State := (List.range (nStacks s)).foldl runEnds s

/-- Whether every stack's Sinter Engine holds its permit. -/
def stacksHeld (s : State) : Bool := (List.range (nStacks s)).all fun h => holds s.gov (392 + h) .sinter

/-- The end of a load's reads: its checks, and its seal or its refusal, which changes nothing else (R215, R274). -/
def endLoad (s : State) (p : Nat) (l : Load) (weights program : ReadResult) : State :=
  let s := charge (winUse (winUse s l.wHome.1 (-1)) l.pHome.1 (-1)) p 3 (l.wHome.2.2 + l.pHome.2.2)
  allRunsEnd <| match checkLoad s p l weights program, weights, program with
  | .loads prog ts stream n _, some w, some g => sealLoad s p l (loadedModel l w prog ts stream n) g
  | .fails c short, _, _ =>
    respond (updPart s p fun x => { x with load := none }) l.ctx c (if c == .noResource then loadBody 0 0 short 0 else [])
  | _, _, _ => s

/-- MODEL_LOAD_DONE: both images have been read from their homes, and written under the Sinter Engine's permits (R245, R258-R262, R274,
R381). -/
def execModelLoadDone (p : Nat) (weights program : ReadResult) (s : State) : Out :=
  partRow s p <|
    match (partOf s p).load with
    | none => s
    | some l =>
      let x := partOf s p
      if l.ready || s.flt.pkg != .serving || !s.host.linkUp || !mayStart x 3 || !mayStart x 1 || !stacksHeld s then s
      else endLoad s p l weights program

/-! ### MODEL_UNLOAD (R276, R379) -/

/-- MODEL_UNLOAD behind the checks of R350. -/
def unloadModel (s : State) (m : Taken) : State :=
  let p := m.ctx.part
  let x := partOf s p
  let slot := rd m.cmd 8 1
  if !bodyZero m.cmd [(8, 1)] || !decide (slot < 4) then refuse s m.ctx .invalidField
  else if !(x.st == .active || x.st == .draining) then refuse s m.ctx .wrongState
  else match modelAt x slot with
    | none => refuse s m.ctx .wrongState
    | some y =>
      if (match x.load with | some l => l.slot == slot || l.into == slot | none => false) then refuse s m.ctx .busy
      else
        let refs := modelRefs s p y.key
        let s := updModel s p slot fun z => { z with unloading := true }
        respond (reapModels s p) m.ctx .success (leBytes 4 refs)

/-- MODEL_UNLOAD: the model binds no new request and leaves when nothing refers to it (R276). -/
def execModelUnload (fn : Nat) (via : Via) (s : State) : Out := msgRow s fn via (isOp 0x0013) unloadModel

end Sys2Proof.Machine
end

