-- ==== Sys2Proof/Machine/Adapters.lean ====
section
/-! DEFINITION. Adapters: the meanings of ADAPTER_REGISTER, ADAPTER_REGISTER_DONE, ADAPTER_RETIRE_DEFER, ADAPTER_RETIRE_FORCE,
ADAPTER_FETCH_START, ADAPTER_FETCH_DONE and ADAPTER_EVICTION_DONE (03 R76-R100; 13 R384, R385; 16 R457; log 26). -/

namespace Sys2Proof.Machine

/-! ### Homes (R76, R81, R457) -/

/-- Bytes of a home: the image, with prefix and tag where it is sealed (R457). -/
def homeSpan (len : Nat) (isSealed : Bool) : Nat := if isSealed then len + 48 else len

/-- A sealed home opened under its owner's key (R457, Table TRU-4). -/
def openHome (s : State) (owner : Nat) (bs : Bytes) (len : Nat) : Option Bytes :=
  if slice bs 0 4 == ascii "SWSH" && zeros bs 20 12 then
    match keyOf s owner (rd bs 4 4) with
    | some k => gcmOpen (hmac k.key (ascii "SWAH" ++ leBytes 4 k.gen)) (slice bs 8 12) (slice bs 0 32) (slice bs 32 (len + 16))
    | none => none
  else none

/-- The adapter image a home's bytes hold, where its digest is the registered one (R75, R81, R457). -/
def homeImage (s : State) (owner len : Nat) (isSealed : Bool) (digest : Digest) (bs : Bytes) : Option Bytes :=
  match (if isSealed then openHome s owner bs len else some bs) with
  | some im => if sha256 im == digest then some im else none
  | none => none

/-! ### The pool (R79, R133) -/

/-- Frames of an adapter image. -/
def adapterFrames (len : Nat) : Nat := ceilDiv len 65536

/-- Frames the pool may still take: usable free ones, within POOL (R79, Table PAR-1). -/
def poolFree (s : State) (p : Nat) : Nat :=
  let held := ((framesOf s p).filter fun f => match f.owner with | .adapter _ => true | _ => false).length
  min (usableFree s p) ((partOf s p).items.pool - held)

/-- Frames opened for an image that is about to be sintered, and the permits of its Sinter runs asked for (R97, R245, R411). -/
def openPool (s : State) (p i n : Nat) : Option (List Nat × State) :=
  match openFrames s p .transit (.adapter i) n with
  | none => none
  | some (ns, t) => some (ns, ns.foldl askSinter t)

/-- An image sealed into its frames, its Sinter runs over (R243, R245). -/
def sealPool (s : State) (ns : List Nat) (im : Bytes) : State :=
  endRuns ((ns.zip (chunks 65536 im)).foldl (fun t e => sealFrame t e.1 .pool e.2) s) ns

/-- The frames a registration took at its acceptance. -/
def regFrames (s : State) (r : PendReg) : List Nat := ((framesOf s r.part).filter fun f => f.owner == .adapter r.idx).map (·.no)

/-! ### ADAPTER_REGISTER (R77, R78, R384) -/

/-- The registration that a command asks for (Table MSG-9). -/
def regOf (m : Taken) : PendReg :=
  let c := m.cmd
  { part := m.ctx.part, idx := rd c 8 2, owner := rd c 10 2, window := winNo m.ctx.part (rd c 14 1), offset := rd c 16 8
    length := rd c 24 8, digest := slice c 32 32, companion := indexOf (rd c 12 2), homeSealed := bit (rd c 15 1) 0, ctx := m.ctx }

/-- Check 2 of R384 and the owner of a sealed home (R77, R457). -/
def ownerCode (s : State) (m : Taken) (r : PendReg) : Option Code :=
  if m.fn != 0 && r.owner != m.ctx.tenant then some .invalidField
  else if r.owner != 0xFFFF && !(match tenantOf s r.owner with | some t => t.part == r.part | none => false) then some .tenantUnknown
  else if r.homeSealed && r.owner == 0xFFFF then some .invalidField
  else none

/-- Checks 1 and 2 of Table ADP-5 (R70, R71, R78). -/
def indexCode (s : State) (r : PendReg) : Option Code :=
  let taken := match adapterOf s r.part r.idx with
    | some a => if a.retiring then some Code.busy else some .indexInUse
    | none => if s.regs.any fun g => g.part == r.part && g.idx == r.idx then some .busy else none
  match taken with
  | some c => some c
  | none =>
    match r.companion with
    | none => none
    | some i =>
      let fb := (modelOf (partOf s r.part) .fallback).map (·.key.weights)
      match adapterOf s r.part i with
      | some a => if !a.retiring && a.owner == r.owner && fb == some a.model then none else some .companionInvalid
      | none => some .companionInvalid

/-- ADAPTER_REGISTER behind the checks of R350: its index is reserved, and frames are taken where the pool has them (R78, R79). -/
def registerAdapter (s : State) (m : Taken) : State :=
  let r := regOf m
  if 2 ≤ rd m.cmd 15 1 then refuse s m.ctx .invalidField
  else if (partOf s r.part).st != .active then refuse s m.ctx .wrongState
  else match ownerCode s m r with
    | some c => refuse s m.ctx c
    | none => match indexCode s r with
      | some c => refuse s m.ctx c
      | none =>
        let s := winUse { s with regs := s.regs ++ [r] } r.window 1
        let n := adapterFrames r.length
        if n ≤ poolFree s r.part then (match openPool s r.part r.idx n with | some t => t.2 | none => s) else s

/-- ADAPTER_REGISTER: an adapter's home is about to be read and checked (R78). -/
def execAdapterRegister (fn : Nat) (via : Via) (s : State) : Out := msgRow s fn via (isOp 0x0020) registerAdapter

/-! ### ADAPTER_REGISTER_DONE (R78, R79) -/

/-- The function that sent a message. -/
def ctxFn (c : MsgCtx) : Nat :=
  match c.origin with
  | .mbox fn => fn
  | .queue fn _ _ => fn
  | .link _ fn => fn
  | .board => 0

/-- Checks 3 to 6 of Table ADP-5: the image with its MODEL_DIGEST, or the code of the first that fails (R78). DESIGN CHOICE: the
IMAGE_INVALID of a carve-out of 0 falls at check 5, which has that code; R95 does not place it (log 66). DESIGN CHOICE: of two slots that
hold the same weights image the entries are matched against the program of the lowest, which the spec does not say (R69; log 65). -/
def checkReg (s : State) (r : PendReg) (home : ReadResult) : Code × Bytes × Digest :=
  let x := partOf s r.part
  let n := homeSpan r.length r.homeSealed
  match home with
  | none => (.homeFault, [], [])
  | some bs =>
    if !winOk s (ctxFn r.ctx) r.window 0 r.offset n || bs.length != n then (.homeFault, [], [])
    else match homeImage s r.owner r.length r.homeSealed r.digest bs with
      | none => (.digestMismatch, [], [])
      | some im =>
        match (if x.items.stage = 0 then none else parseAdapter im) with
        | none => (.imageInvalid, [], [])
        | some ad =>
          match (x.slots.filterMap id).find? fun y => y.key.weights == ad.model with
          | none => (.modelNotResident, [], [])
          | some y => if adapterFits ad y.prog then (.success, im, ad.model) else (.imageInvalid, [], [])

/-- The end of a registration's read: the adapter RESIDENT or ABSENT, or nothing; CONFLICT where it differs from the leader's (R78, R79,
R82, R384). -/
def endReg (s : State) (r : PendReg) (home : ReadResult) : State :=
  let ns := regFrames s r
  let s := charge (winUse { s with regs := s.regs.filter fun g => !(g.part == r.part && g.idx == r.idx) } r.window (-1)) r.part 3
    (homeSpan r.length r.homeSealed)
  let v := checkReg s r home
  if v.1 != .success then refuse (freeFrames s ns) r.ctx v.1
  else if adapterDiffers s r.part r.idx r.owner r.companion r.digest then refuse (freeFrames s ns) r.ctx .conflict
  else
    let isIn := !ns.isEmpty
    let a : Adapter :=
      { part := r.part, idx := r.idx, owner := r.owner, window := r.window, offset := r.offset, length := r.length, digest := r.digest
        companion := r.companion, homeSealed := r.homeSealed, model := v.2.2, st := if isIn then .resident else .absent, pins := 0
        retiring := false, forced := false, bad := false, lastUse := if isIn then s.boot.dtc else 0, tries := 0, byPlan := false, frames := ns
        image := if isIn then v.2.1 else [] }
    let s := { s with adapters := s.adapters ++ [a] }
    let s := if isIn then charge (sealPool s ns v.2.1) r.part 1 (65536 * ns.length) else s
    respond s r.ctx .success (leBytes 1 (if isIn then 3 else 1) ++ zeroBytes 3 ++ leBytes 4 ns.length)

/-- ADAPTER_REGISTER_DONE: the whole image has been read from its home (R78, R79). -/
def execAdapterRegisterDone (p idx : Nat) (home : ReadResult) (s : State) : Out :=
  partRow s p <|
    match s.regs.find? fun r => r.part == p && r.idx == idx with
    | none => s
    | some r =>
      let x := partOf s p
      if s.flt.pkg != .serving || !s.host.linkUp || !mayStart x 3 || !mayStart x 1 || !runsHeld s (regFrames s r) then s
      else endReg s r home

/-! ### ADAPTER_RETIRE (R99, R100, R385) -/

/-- Whether a request waits for its adapters and so is not admitted with respect to them (R86, R89, R99). -/
def awaitsAds (s : State) (q : Req) : Bool := q.pins == .none && !planned s q && (q.conv == .live || q.conv == .resuming)

/-- A request that has not been admitted ended because of an adapter, on every member: CANCELLED 0x0003 or WITHHELD 0x0002; a replay ends
ABORTED (R90, R99, R199; log 24). -/
def endForAdapter (s : State) (t : Term) (d st h : Nat) : State :=
  match reqOf s h with
  | none => s
  | some q =>
    if q.replay.isSome then endReplay (tellEnd s h t d) h 4
    else if t == .cancelled then cancelTold s q st d
    else endTold (stopTransfer s h) h t d

/-- Requests of a partition that reference an adapter, in submit order. -/
def usersOf (s : State) (p i : Nat) : List Req := sortBy (·.seq) (s.reqs.filter fun q => q.part == p && living q && (adRefs q).contains i)

/-- Queued requests that reference an adapter ended by the leader of their partition, because it is retired or BAD (R90, R99). -/
def endAwaiting (s : State) (p i : Nat) (t : Term) (d st : Nat) : State :=
  if !leads s p then s
  else (usersOf s p i).foldl (fun u q => if awaitsAds u q then endForAdapter u t d st q.h else u) s

/-- What retiring an adapter with stamp st does to the requests that reference it; a member that does not lead the partition takes the
leader's word for it (R99, R160). DEDUCED: a PARKED or CONDENSED conversation remains under FORCE too, since R100 says so of every one
whose adapter is retired (log 71). -/
def retireUsers (s : State) (p i st : Nat) (force : Bool) : State :=
  let s := (usersOf s p i).foldl (fun t q => updReq t q.h fun x => { x with adGone := true }) s
  let s := endAwaiting s p i .cancelled 3 st
  if !force || !leads s p then s
  else (usersOf s p i).foldl (fun t q =>
    if q.conv == .parked || q.conv == .condensed then t
    else if q.replay.isSome then endReplay (tellEnd t q.h .cancelled 4) q.h 4
    else cancelTold t q st 4) s

/-- ADAPTER_RETIRE behind the checks of R350 (R99, R343, R385). -/
def retireAdapter (force : Bool) (s : State) (m : Taken) : State :=
  let p := m.ctx.part
  let i := rd m.cmd 8 2
  let x := partOf s p
  if !bodyZero m.cmd [(8, 3)] || rd m.cmd 10 1 != (if force then 2 else 1) then refuse s m.ctx .invalidField
  else if !(x.st == .active || x.st == .draining) then refuse s m.ctx .wrongState
  else match adapterOf s p i with
    | none => refuse s m.ctx .adapterUnknown
    | some a =>
      if m.fn != 0 && a.owner != m.ctx.tenant then refuse s m.ctx .adapterUnknown
      else if (s.adapters.any fun b => b.part == p && b.companion == some i) || (s.regs.any fun r => r.part == p && r.companion == some i) then
        refuse s m.ctx .companionInUse
      else
        let done := fun t => respond t m.ctx .success (leBytes 4 a.pins)
        if a.retiring && (!force || a.forced) then done s
        else
          let s := updAdapter s p i fun b => { b with retiring := true, forced := force }
          done (settleRetiring (retireUsers s p i m.ctx.accept force) p)

/-- ADAPTER_RETIRE_DEFER: no new use; admitted requests run to their end (R99). An unknown MODE is refused here. -/
def execAdapterRetireDefer (fn : Nat) (via : Via) (s : State) : Out :=
  msgRow s fn via (fun c => isOp 0x0021 c && rd c 10 1 != 2) (retireAdapter false)

/-- ADAPTER_RETIRE_FORCE: admitted requests are cancelled too (R99). -/
def execAdapterRetireForce (fn : Nat) (via : Via) (s : State) : Out := msgRow s fn via (isOp2 0x0021 10 2) (retireAdapter true)

/-! ### ADAPTER_FETCH_START (R87, R88, R96) -/

/-- Fetches in flight of a partition. -/
def fetching (s : State) (p : Nat) : Nat := (s.adapters.filter fun a => a.part == p && a.st == .fetching).length

/-- Frames that are on their way back from evictions. -/
def evictingFrames (s : State) (p : Nat) : Nat :=
  sumNat ((s.adapters.filter fun a => a.part == p && a.st == .evicting).map (·.frames.length))

/-- Victims in order until enough frames will be free, and whether they suffice (R87). -/
def takeVictims : List Adapter → Nat → List Nat × Bool
  | _, 0 => ([], true)
  | [], _ => ([], false)
  | a :: as, k + 1 => let r := takeVictims as (k + 1 - a.frames.length); (a.idx :: r.1, r.2)

/-- The adapters that may be victims, oldest use first, then lowest index (R87). -/
def victimsOf (s : State) (p : Nat) : List Adapter :=
  sortBy (·.lastUse) (sortBy (·.idx) (s.adapters.filter fun a =>
    a.part == p && a.st == .resident && a.pins == 0 && !a.frames.isEmpty && !planNames s p a.idx))

/-- What becomes of the demand at the head of a fetch queue. -/
inductive DemandStep where
  /-- nothing to fetch, or a lookahead demand that cannot start: dropped -/
  | drops
  /-- it waits, and what is behind it with it -/
  | waits
  /-- victims chosen, and whether they suffice: where they do not, the fetch waits for the next ledger close -/
  | evicts (vs : List Nat) (enough : Bool)
  | starts (a : Adapter)
  deriving DecidableEq, Repr

/-- The demand for adapter i considered (R87, R88, R90, R96). -/
def demandStep (s : State) (p i : Nat) (plan : Bool) : DemandStep :=
  match adapterOf s p i with
  | none => .drops
  | some a =>
    if a.bad || a.retiring || a.st == .resident || a.st == .fetching then .drops
    else if a.st == .evicting then .waits
    else if 4 ≤ fetching s p then (if plan then .waits else .drops)
    else
      let n := adapterFrames a.length
      let free := poolFree s p
      if n ≤ free then .starts a
      else if !plan then .drops
      else if n ≤ free + evictingFrames s p || (partOf s p).fetchWait then .waits
      else let v := takeVictims (victimsOf s p) (n - free - evictingFrames s p); .evicts v.1 v.2

/-- Lookahead demands of a queue dropped: one ahead of them waits (R96). -/
def dropLook (q : List (Nat × Bool)) : List (Nat × Bool) := q.filter (·.2)

/-- A fetch begun: ABSENT to FETCHING, its frames reserved (R84, R96, R97). -/
def beginFetch (s : State) (p : Nat) (a : Adapter) (plan : Bool) : State :=
  match openPool s p a.idx (adapterFrames a.length) with
  | none => s
  | some (ns, t) => updAdapter (winUse t a.window 1) p a.idx fun b => { b with st := .fetching, frames := ns, byPlan := plan }

/-- The fetch queue taken up to the first demand that starts or waits; the fuel is its length (R96). -/
def pump (s : State) (p : Nat) : Nat → List (Nat × Bool) → State
  | 0, q => updPart s p fun x => { x with fetchQ := q }
  | _, [] => updPart s p fun x => { x with fetchQ := [] }
  | f + 1, (i, plan) :: q =>
    let keep := fun t : State => updPart t p fun x : Part => { x with fetchQ := (i, plan) :: dropLook q }
    match demandStep s p i plan with
    | .drops => pump s p f q
    | .waits => keep s
    | .evicts vs ok => keep (updPart (vs.foldl (fun t v => updAdapter t p v fun b => { b with st := .evicting }) s) p fun x => { x with fetchWait := !ok })
    | .starts a => beginFetch (updPart s p fun x => { x with fetchQ := q }) p a plan

/-- ADAPTER_FETCH_START: the next demand of a partition's fetch queue starts, or chooses its victims, or waits (R87, R96). -/
def execAdapterFetchStart (p : Nat) (s : State) : Out :=
  partRow s p <|
    let x := partOf s p
    if s.flt.pkg != .serving || !s.host.linkUp || !(x.st == .active || x.st == .draining) then s
    else pump s p x.fetchQ.length x.fetchQ

/-! ### ADAPTER_FETCH_DONE, ADAPTER_EVICTION_DONE (R84, R90) -/

/-- An adapter is BAD: queued requests that reference it end WITHHELD 0x0002 (R90). -/
def goBad (s : State) (p i : Nat) : State := endAwaiting (updAdapter s p i fun b => { b with bad := true }) p i .withheld 2 0

/-- A queued request that waits for an adapter already BAD, a companion too, ends WITHHELD 0x0002 (R86, R90). -/
def endIfBad (s : State) (h : Nat) : State :=
  match reqOf s h with
  | some q => if leads s q.part && awaitsAds s q && refsBad s q then endForAdapter s .withheld 2 0 h else s
  | none => s

/-- A fetch that failed for good: ABSENT and BAD (R84, R90). -/
def failFetch (s : State) (a : Adapter) : State := settleRetiring (goBad (dropFetch s a) a.part a.idx) a.part

/-- A fetch whose host read failed: ABSENT, its frames freed, and its demand at the head of the queue again until the second retry has
failed; then BAD (R84, R90). -/
def retryFetch (s : State) (a : Adapter) : State :=
  let s := updAdapter s a.part a.idx fun b => { b with tries := a.tries + 1 }
  if 2 ≤ a.tries then failFetch s a
  else settleRetiring (updPart (dropFetch s a) a.part fun x => { x with fetchQ := (a.idx, a.byPlan) :: x.fetchQ }) a.part

/-- The end of a fetch's read (R84, R90, R97). -/
def endFetch (s : State) (a : Adapter) (home : ReadResult) : State :=
  let n := homeSpan a.length a.homeSealed
  let s := charge s a.part 3 n
  let good := match home with
    | some bs => if winOk s 0 a.window 0 a.offset n && bs.length == n then some bs else none
    | none => none
  match good with
  | none => retryFetch s a
  | some bs =>
    match homeImage s a.owner a.length a.homeSealed a.digest bs with
    | none => failFetch s a
    | some im =>
      let s := charge (sealPool (winUse s a.window (-1)) a.frames im) a.part 1 (65536 * a.frames.length)
      settleRetiring (updAdapter s a.part a.idx fun b => { b with st := .resident, image := im, tries := 0, lastUse := s.boot.dtc }) a.part

/-- ADAPTER_FETCH_DONE: a fetch has read the home of its adapter (R84, R90). -/
def execAdapterFetchDone (p idx : Nat) (home : ReadResult) (s : State) : Out :=
  partRow s p <|
    match adapterOf s p idx with
    | none => s
    | some a =>
      let x := partOf s p
      if a.st != .fetching || s.flt.pkg != .serving || !s.host.linkUp || !mayStart x 3 || !mayStart x 1 || !runsHeld s a.frames then s
      else endFetch s a home

/-- ADAPTER_EVICTION_DONE: an EVICTING adapter's frames are back; it is ABSENT, or gone if RETIRING (R84, R100). -/
def execAdapterEvictionDone (p idx : Nat) (s : State) : Out :=
  partRow s p <|
    match adapterOf s p idx with
    | none => s
    | some a =>
      if a.st != .evicting then s
      else settleRetiring (updAdapter (freeFrames s a.frames) p idx fun b => { b with st := .absent, frames := [], image := [] }) p

end Sys2Proof.Machine
end

