-- ==== Sys2Proof/Machine/Requests.lean ====
section
/-! DEFINITION. Requests: the meanings of REQUEST_SUBMIT and REQUEST_CANCEL, and how a handle is looked up (06 R159-R161, R177-R181;
07 R183-R192; 13 R372, R373, R386-R388; log 28). -/

namespace Sys2Proof.Machine

/-! ### Checks of a request descriptor (Table MSG-10, Table MSG-11) -/

/-- TEMP: a zero of either sign or a positive finite number (R58). -/
def tempOk (v : W32) : Bool := decide (v.toNat < 0x7F800000) || v == 0x80000000#32

/-- TOP_P: in (0, 1] (R58). -/
def topPOk (v : W32) : Bool := decide (0 < v.toNat ∧ v.toNat ≤ 0x3F800000)

/-- VECTOR: a vector of the function, or none (R159, R362). -/
def vectorOk (v : Nat) : Bool := decide (1 ≤ v ∧ v ≤ 127) || v == 0xFFFF

/-- The bytes a ring or journal takes with its control block: address and length of each (R160, R184). -/
def ringSpans (r : Ring) : List (Nat × Nat) := [(r.addr, 64 * 2 ^ r.log2), (r.ctrl, 64)]

/-- Whether no two byte ranges overlap. -/
def disjointSpans (l : List (Nat × Nat)) : Bool := pairwiseNot (fun a b => decide (a.1 < b.1 + b.2 ∧ b.1 < a.1 + a.2)) l

/-- Whether a ring or journal is aligned and its LOG2 in range (R159, R184). -/
def ringFieldsOk (lo hi : Nat) (r : Ring) : Bool := r.addr % 4096 == 0 && r.ctrl % 64 == 0 && decide (lo ≤ r.log2 ∧ r.log2 ≤ hi)

/-- Check 2 of Table MSG-11 on a descriptor of n bytes (R68, R160, R184, R386). -/
def reqFormed (n : Nat) (d : Bytes) (r : ReqDesc) : Bool :=
  slice d 0 4 == ascii "SWRD" && rd d 4 2 == 1 && n == 144 + 4 * r.promptLen && decide (1 ≤ r.promptLen) && tempOk r.samp.temp &&
    topPOk r.samp.topP && decide (r.nStop ≤ 8) && zeros d (112 + 4 * r.nStop) (32 - 4 * r.nStop) && vectorOk r.vector &&
    ringFieldsOk 4 12 r.ring && ringFieldsOk 8 16 r.jrn && decide (r.irqRecords ≤ 2 ^ r.ring.log2) && decide (r.irqTicks ≤ 1000000) &&
    disjointSpans (ringSpans r.ring ++ ringSpans r.jrn) && (r.ad1.isNone || (r.ad0.isSome && r.ad0 != r.ad1))

/-- Whether a request descriptor and its command have their reserved fields zero and END_ACTION known (R371). -/
def reqReserved (cmd d : Bytes) : Bool :=
  bodyZero cmd [(8, 8), (16, 4)] && zeros d 6 2 && zeros d 46 2 && zeros d 108 4 && decide (rd d 36 1 ≤ 4)

/-- Checks 5 to 8 of Table MSG-11 for the adapters a request names (R80, R90, R95, R99, R276). -/
def adapterCode (s : State) (p tenant : Nat) (base : Digest) (is : List Nat) : Option Code :=
  let as := is.map (adapterOf s p)
  if !is.isEmpty && ((partOf s p).items.stage == 0 ||
      as.any fun a => match a with | some a => !(a.owner == tenant || a.owner == 0xFFFF) | none => true) then some .adapterUnknown
  else if as.any fun a => match a with | some a => a.retiring | none => false then some .adapterRetired
  else if as.any fun a => match a with | some a => a.bad | none => false then some .adapterBad
  else if as.any fun a => match a with | some a => a.model != base | none => false then some .adapterModelMismatch
  else none

/-- The model a role offers to new requests: present and not UNLOADING (R273, R276). -/
def offered (s : State) (p : Nat) (r : Role) : Option Model :=
  match modelOf (partOf s p) r with
  | some m => if m.unloading then none else some m
  | none => none

/-! ### The new request (R183, R192, R273, R387) -/

/-- The companion in use of a slot: registered, and bound to the fallback model (R70, R71). -/
def companionOf (s : State) (p : Nat) (i : Option Nat) (fb : Digest) : Option Nat :=
  match i.bind (adapterOf s p) with
  | some a =>
    (match a.companion with
    | some c => (match adapterOf s p c with | some b => if b.model == fb then some c else none | none => none)
    | none => none)
  | none => none

/-- What a request is made of, beside its descriptor. -/
structure Birth where
  h : Nat
  seq : Nat
  part : Nat
  tenant : Nat
  fn : Nat
  accept : Nat
  own : Bool
  now : Nat
  deriving DecidableEq, Repr

/-- An empty journal on a ring (R185). -/
def newJournal (r : Ring) : Journal := { ring := r, seq := 0, tokens := 0, sha := shaInit, waiting := [], lastSeal := none }

/-- An empty stream. -/
def noStream : Stream := { kv := [], frames := [] }

/-- A request as its acceptance makes it, but for its quota and its digests (R71, R85, R125, R131, R136, R141, R273, R387). Its
companions in use are those of a request that has a deadline now (log 68). -/
def bornReq (s : State) (b : Birth) (d : ReqDesc) (m : Model) (t : Tenant) : Req :=
  let fb := (offered s b.part .fallback).map (·.key)
  let fall := (d.firstDl != 0 || d.tokDl != 0) && fb.isSome
  let comp := fun i => if fall then companionOf s b.part i ((fb.map (·.weights)).getD []) else none
  let samp := { d.samp with ctxMax := orDefault d.samp.ctxMax m.prog.ctxLimit
                            endAction := if d.endCode = 0 then t.endAction else d.samp.endAction }
  { h := b.h, seq := b.seq, part := b.part, tenant := b.tenant, fn := b.fn, ownsRing := b.own, ring := d.ring, vector := d.vector
    irqRecords := d.irqRecords, irqTicks := d.irqTicks, irqPend := 0, irqFirst := 0, jrn := newJournal d.jrn, ident := [], digest := []
    samp := samp, ad0 := d.ad0, ad1 := d.ad1, comp0 := comp d.ad0, comp1 := comp d.ad1, base := m.key, fb := fb, kvBase := noStream
    kvFb := noStream, quota := 0, slot := true, conv := .live, next := 0, input := samp.prompt, condIn := 0, turnTokens := 0
    fbMode := false, fbLeft := 0, catchUp := none, history := [], admitted := false, pins := .none, adGone := false, cancel := none, cancelAt := none
    firstDl := d.firstDl, tokDl := d.tokDl, accept := b.accept, tStart := 0, lastC := 0, issuedAt := b.now, resumed := false
    condensed := false, saturated := false, canFall := fall, idleAt := none, queuedAt := some b.accept, record := none, parking := none, resumeTries := 0
    want := none, wantCtx := none, cond := none, exports := [], pauseFails := 0, ringErrs := 0, jrnErrs := 0, dlMisses := 0
    outcome := none, replay := none, replayId := 0 }

/-- An entry of the opening section: TYPE, LEN, payload. -/
abbrev OpenEntry := Nat × Nat × Bytes

/-- DIGEST entries of the opening section; fallback rows are possible for a request bound to a fallback model, which may get a deadline
with a later CONV_RESUME (R192 item 2; log 68). -/
def openDigests (s : State) (q : Req) : List OpenEntry :=
  let ds := [(1, s.boot.curFw), (2, q.base.weights), (3, q.base.program)] ++
    (match q.fb with | some k => [(4, k.weights), (5, k.program)] | none => [])
  ds.map fun e => (2, 40, digestEntry e.1 e.2)

/-- ADAPTER entries of the opening section in ascending (SLOT, ROLE) (R192 item 3). -/
def openAdapters (s : State) (q : Req) : List OpenEntry :=
  ([(0, 0, q.ad0), (0, 1, q.comp0), (1, 0, q.ad1), (1, 1, q.comp1)] : List (Nat × Nat × Option Nat)).filterMap fun e =>
    match e.2.2 with
    | some i =>
      let dg := match adapterOf s q.part i with | some a => a.digest | none => []
      some (3, 40, leBytes 1 e.1 ++ leBytes 1 e.2.1 ++ leBytes 2 i ++ zeroBytes 4 ++ slice dg 0 32)
    | none => none

/-- The SAMPLING entry (R192 item 4). -/
def openSampling (q : Req) : OpenEntry :=
  let p := q.samp
  (4, 56, leBytes 4 p.temp.toNat ++ leBytes 4 p.topK ++ leBytes 4 p.topP.toNat ++ leBytes 4 p.ctxMax ++ leBytes 4 p.turnMax ++
    leBytes 1 (endActVal p.endAction) ++ leBytes 1 p.stops.length ++ zeroBytes 2 ++ slice (p.stops.flatMap (leBytes 4)) 0 32)

/-- INPUT entries of 14 tokens each (R192 item 5). -/
def inputEntries (ts : List Nat) : List OpenEntry := (chunks 14 ts).map fun c => (5, 4 * c.length, c.flatMap (leBytes 4))

/-- The LEVEL code of a model's numerics (Table CAP-5, R51). -/
def levelVal : Level → Nat
  | .nlX1 => 1
  | .nlT1 => 2

/-- The opening section of a request (R192). -/
def openingOf (s : State) (q : Req) : List OpenEntry :=
  let rest := openDigests s q ++ openAdapters s q ++ [openSampling q] ++ inputEntries q.samp.prompt
  (1, 48, ascii "HSKC" ++ leBytes 2 1 ++ leBytes 1 (levelVal q.base.level) ++ leBytes 1 (partOf s q.part).items.groupSize ++
    leBytes 8 q.accept ++ leBytes 8 q.h ++ leBytes 2 q.tenant ++ leBytes 2 (partCode s) ++ leBytes 2 0x00B0 ++ zeroBytes 2 ++
    leBytes 8 q.samp.seed ++ leBytes 4 (rest.length + 1) ++ leBytes 4 q.samp.prompt.length) :: rest

/-- The request identity digest over the bytes of an opening section (R183). -/
def identOf (es : List OpenEntry) : Digest :=
  sha256 (ascii "SWRQ" ++ (es.zipIdx).flatMap fun e => entryBytes e.1.1 e.1.2.1 e.2 e.1.2.2)

/-- A request accepted: it exists with its quota and tail slot, its opening section goes out as space allows, and an idle partition
wakes (R108, R183, R187, R387, Table PAR-3). One that waits for a BAD companion ends at once (R90). -/
def acceptReq (s : State) (q : Req) : State :=
  let es := openingOf s q
  let i := identOf es
  let s := { s with reqs := s.reqs ++ [{ q with ident := i, digest := digestInit i, quota := reqQuota (partOf s q.part) q }] }
  let s := updPart s q.part fun x => { x with handles := q.h % 2 ^ 48, submits := q.seq }
  let s := updTenant s q.tenant fun t => { t with accepted := satAdd 64 t.accepted 1 }
  let s := jrnOut s q.h (es.map fun e => { kind := .opening, ty := e.1, len := e.2.1, body := e.2.2 })
  endIfBad (wake s q.part q.accept) q.h

/-! ### REQUEST_SUBMIT -/

/-- Check 4's fields that need the base model: CTX_MAX, PROMPT_LEN and the prompt's token ids (Table MSG-10, R131). -/
def promptOk (m : Model) (d : ReqDesc) : Bool :=
  let c := orDefault d.samp.ctxMax m.prog.ctxLimit
  decide (c ≤ m.prog.ctxLimit) && decide (d.promptLen + 1 ≤ c) && d.samp.prompt.all fun y => decide (y < m.prog.vocab)

/-- The birth of the request that a submit's command brings. -/
def birthOf (s : State) (m : Taken) (h : Nat) (own : Bool) : Birth :=
  { h := h, seq := (partOf s m.ctx.part).submits + 1, part := m.ctx.part, tenant := m.ctx.tenant, fn := m.fn, accept := m.ctx.accept
    own := own, now := s.boot.dtc }

/-- Whether a message came from this package's own host. -/
def fromHost (m : Taken) : Bool := match m.ctx.origin with | .link _ _ => false | _ => true

/-- Checks 3 to 9 of Table MSG-11, then the request (R273, R372, R387). -/
def submitReq (s : State) (m : Taken) (d : Bytes) (t : Tenant) : State :=
  let p := m.ctx.part
  let r := readReqDesc d
  if (partOf s p).st != .active then refuse s m.ctx .wrongState
  else match offered s p .base with
    | none => refuse s m.ctx .modelNotResident
    | some b =>
      if !promptOk b r then refuse s m.ctx .invalidField
      else match adapterCode s p t.id b.key.weights ([r.ad0, r.ad1].filterMap id) with
        | some c => refuse s m.ctx c
        | none =>
          let n := (partOf s p).handles + 1
          let q := bornReq s (birthOf s m (p * 2 ^ 56 + n) (fromHost m)) r b t
          if 2 ^ 48 ≤ n || !canReserve s p (reqQuota (partOf s p) q) then refuse s m.ctx .noResource
          else respond (acceptReq (relay s m q.h d) q) m.ctx .success (leBytes 8 q.h ++ leBytes 8 q.seq)

/-- REQUEST_SUBMIT behind its descriptor read (R371, R387). -/
def submitMsg (n : Nat) (s : State) (m : Taken) (d : Bytes) : State :=
  if !reqReserved m.cmd d then refuse s m.ctx .invalidField
  else match tenantOf s m.ctx.tenant with
    | none => refuse s m.ctx .tenantUnknown
    | some t =>
      if t.part != m.ctx.part then refuse s m.ctx .tenantUnknown
      else if !reqFormed n d (readReqDesc d) then refuse s m.ctx .invalidField
      else submitReq s m d t

/-- REQUEST_SUBMIT's descriptor read: a DESC_LEN below the fixed part names no readable descriptor (R369, R386). -/
def submitDesc (desc : ReadResult) (s : State) (m : Taken) : State :=
  let n := rd m.cmd 16 4
  if n < 144 then refuse s m.ctx .invalidField else withDesc (rd m.cmd 8 8) n desc true (submitMsg n) s m

/-- REQUEST_SUBMIT: a request is checked, gets its handle, and is queued as NEW (R387). -/
def execRequestSubmit (fn : Nat) (via : Via) (desc : ReadResult) (s : State) : Out := msgRow s fn via (isOp 0x0040) (submitDesc desc)

/-! ### Handles (R372, R373) -/

/-- What a handle names for a caller. -/
inductive Found where
  | unknown
  | live (q : Req)
  /-- an ended request, with its retained outcome if there is one -/
  | ended (e : Option Ended)
  deriving DecidableEq, Repr

/-- A handle looked up for a message: the partition of its envelope, and the tenant a VF may see (R372, R373). -/
def findHandle (s : State) (m : Taken) (h : Nat) : Found :=
  let p := m.ctx.part
  let mine := fun t : Nat => m.fn == 0 || t == m.ctx.tenant
  let n := h % 2 ^ 48
  if h / 2 ^ 48 != p * 256 || n == 0 || decide ((partOf s p).handles < n) then .unknown
  else match s.reqs.find? fun q => q.h == h && living q && q.replay.isNone with
    | some q => if mine q.tenant then .live q else .unknown
    | none =>
      match (partOf s p).outcomes.find? fun e => e.h == h with
      | some e => if mine e.tenant then .ended (some e) else .unknown
      | none => .ended none

/-- The ended body of Table MSG-2. -/
def endedBody (stamp term detail next : Nat) : Bytes := leBytes 8 stamp ++ leBytes 1 term ++ zeroBytes 3 ++ leBytes 4 detail ++ leBytes 8 next

/-- The ended body of a retained outcome; its STAMP is that of the first REQUEST_CANCEL, or ACCEPT_DTC (R177, R181, R373). -/
def endedOf (accept : Nat) (e : Option Ended) : Bytes :=
  match e with
  | some e => endedBody (e.cancelAt.getD accept) e.term e.detail e.next
  | none => endedBody accept 0 0 0

/-! ### What comes due before a message is accepted (R108, R137, R148, R175) -/

/-- Whether one of CONV_PARK, CONV_CONDENSE and CONV_RESUME is pending for a request (R375). -/
def convBusy (q : Req) : Bool := q.want.isSome || q.wantCtx.isSome

/-- The idle instant of a HELD conversation: IDLE_TICKS after its idle clock started (R137). -/
def idleInstant (q : Req) (t : Tenant) : Option Nat :=
  if q.conv == .held && !convBusy q && q.replay.isNone && t.idleTicks != 0 then q.idleAt.map (· + t.idleTicks) else none

/-- A park with a tenant's defaults, under its current key (R138, R143, R389). -/
def idlePark (s : State) (h : Nat) (t : Tenant) : State :=
  beginPark s h t.parkOffset t.parkStride t.parkTtl (match currentKey s t.id with | some k => k.gen | none => 0)

/-- A condense that an idle action calls for (R138). -/
def idleCondense (s : State) (q : Req) : State := if posBase q = 0 then pauseFails s q.h else beginCondense s q.h

/-- A tenant's IDLE_ACTION at instant i on every member, as if the host had sent the matching message; the byte behind the fields tells a
member that no message waits for it (R137, R138; log 24). -/
def idleAct (s : State) (q : Req) (t : Tenant) (i : Nat) : State :=
  match t.idleAction with
  | .park =>
    idlePark (relay s (ownMsg q 0x0050 i (leBytes 8 t.parkOffset ++ leBytes 8 t.parkStride ++ leBytes 8 t.parkTtl ++ leBytes 1 1)) q.h []) q.h t
  | .condense => idleCondense (relay s (ownMsg q 0x0052 i (leBytes 1 1)) q.h []) q
  | .drop => cancelTold s q i 2

/-- The idle action of a request whose idle instant is at most t (R137). -/
def idleBy (s : State) (t h : Nat) : State :=
  match reqOf s h with
  | none => s
  | some q => match tenantOf s q.tenant with
    | none => s
    | some n => match idleInstant q n with
      | some i => if i ≤ t then idleAct s q n i else s
      | none => s

/-- A PARKED request whose record is void at t ends EXPIRED (R148). -/
def expireBy (s : State) (t h : Nat) : State :=
  match reqOf s h with
  | none => s
  | some q => match q.record with
    | some r => if q.conv == .parked && decide (r.expiresAt ≤ t) then endTold s h .expired 2 else s
    | none => s

/-- The plan of an idle partition whose freeze instant is at most t frozen (R108, R119). -/
def freezeBy (s : State) (t p : Nat) : State :=
  match (partOf s p).freezeAt with
  | some f => if (partOf s p).attempt.isNone && canFreeze s p && decide (f ≤ t) then freeze s p f 0 else s
  | none => s

/-- What comes due for a request of partition p at or before t, at the leader of the partition: a message accepted at t finds it done,
whether or not its own command has run (R108, R137, R148, R175). -/
def lapse (expires : Bool) (s : State) (t p h : Nat) : State :=
  if s.flt.pkg != .serving || !leads s p || !(reqOf s h).any (fun q => q.part == p && living q && q.replay.isNone) then s
  else
    let s := idleBy (freezeBy s t p) t h
    if expires then expireBy s t h else s

/-- A message that names a handle: reserved fields, the partition's state, then the handle (R368, R371, R373). For CONV_RESUME the expiry
of a parked entry is the last of its own checks (R390). -/
def withHandle (expires : Bool) (fields : List (Nat × Nat)) (okIn : PartState → Bool) (core : State → Taken → Req → State)
    (gone : State → Taken → Option Ended → State) (s : State) (m : Taken) : State :=
  if !bodyZero m.cmd fields then refuse s m.ctx .invalidField
  else if !okIn (partOf s m.ctx.part).st then refuse s m.ctx .wrongState
  else
    let s := lapse expires s m.ctx.accept m.ctx.part (rd m.cmd 8 8)
    match findHandle s m (rd m.cmd 8 8) with
    | .unknown => refuse s m.ctx .unknownHandle
    | .ended e => gone s m e
    | .live q => core s m q

/-- ALREADY_ENDED with the ended body (R373). -/
def alreadyEnded (s : State) (m : Taken) (e : Option Ended) : State := respond s m.ctx .alreadyEnded (endedOf m.ctx.accept e)

/-- ACTIVE or DRAINING. -/
def serves (st : PartState) : Bool := st == .active || st == .draining

/-! ### REQUEST_CANCEL -/

/-- A REQUEST_CANCEL of a request on one member: the first one's stamp is kept (R177, R178). -/
def cancelBy (s : State) (h st : Nat) : State :=
  cancelReq (updReq s h fun x => { x with cancelAt := some (x.cancelAt.getD st) }) h st 1

/-- A cancel of a live or paused request (R177-R181, R388). -/
def cancelMsg (s : State) (m : Taken) (q : Req) : State :=
  respond (cancelBy (relay s m q.h []) q.h m.ctx.accept) m.ctx .success (endedBody (q.cancelAt.getD m.ctx.accept) 0 0 q.next)

/-- A cancel of an ended request: ALREADY_ENDED, and the first one's stamp is kept (R177, R181). -/
def cancelGone (s : State) (m : Taken) (e : Option Ended) : State :=
  let note := fun x : Ended => { x with cancelAt := some (x.cancelAt.getD m.ctx.accept) }
  let s := match e with
    | some e => updPart s m.ctx.part fun x => { x with outcomes := x.outcomes.map fun o => if o.h == e.h then note o else o }
    | none => s
  alreadyEnded s m (e.map note)

/-- REQUEST_CANCEL where it is decided (R368, R373, R388). -/
def cancelCore : State → Taken → State := withHandle true [(8, 8)] (fun st => st != .disabled) cancelMsg cancelGone

/-- REQUEST_CANCEL: the cancel is stamped, and its effect is that of Table GEY-6 (R177, R178). -/
def execRequestCancel (fn : Nat) (via : Via) (s : State) : Out :=
  msgRow s fn via (isOp 0x0041) (classF cancelCore)

end Sys2Proof.Machine
end

