-- ==== Sys2Proof/Machine/Conversations.lean ====
section
/-! DEFINITION. Conversations: the meanings of CONV_PARK, CONV_RESUME, CONV_CONDENSE, CONV_DROP, IDLE_ACTION, PARK_EXPIRY,
PARK_COMPLETE, PARK_ABANDON, RESUME_COMPLETE and RESUME_FAIL (05 R135-R158, R528; 13 R375, R389, R390; log 29). -/

namespace Sys2Proof.Machine

/-! ### What the three deferred messages share (R140, R375) -/

/-- LIVE or HELD (Table CNV-3). -/
def pausable (q : Req) : Bool := q.conv == .live || q.conv == .held

/-- HELD, PARKED or CONDENSED (Table CNV-3). -/
def resumable (q : Req) : Bool := q.conv == .held || q.conv == .parked || q.conv == .condensed

/-- A pause accepted: it takes effect at once, or at the end of the frozen plan that names the request (R140). -/
def acceptPause (s : State) (h : Nat) (w : ConvMsg) (c : Option MsgCtx) : State :=
  match reqOf s h with
  | none => s
  | some q =>
    let t := updReq s h fun x => { x with want := some w, wantCtx := c }
    if planned s q then t else applyWant t h

/-! ### CONV_PARK (R140, R144, R390, R455, R456) -/

/-- Whether a message of a function may park in a partition: a PARK window that the function may use (R143, R346, R348). -/
def parkable (s : State) (p fn : Nat) : Bool :=
  match parkWindow s p with | some w => fn == 0 || w.owner == fn | none => false

/-- The checks of CONV_PARK in their order (R390, R455, R456). -/
def parkCode (s : State) (m : Taken) (q : Req) : Option Code :=
  if convBusy q then some .busy
  else if !pausable q then some .wrongState
  else match currentKey s q.tenant with
    | none => some .parkFault
    | some k =>
      if !parkable s q.part m.fn || decide (2 ^ 32 - 1 ≤ k.uses) then some .parkFault
      else if !ttlOk (rd m.cmd 32 8) then some .invalidField
      else none

/-- The park that a command asks for, under the current key generation (R389, R455). -/
def parkOf (s : State) (cmd : Bytes) (tenant : Nat) : ConvMsg :=
  let g := match currentKey s tenant with | some k => k.gen | none => 0
  .park (rd cmd 16 8) (rd cmd 24 8) (rd cmd 32 8) g

/-- CONV_PARK of a live or paused request (R140, R390). -/
def parkMsg (s : State) (m : Taken) (q : Req) : State :=
  match parkCode s m q with
  | some c => refuse s m.ctx c
  | none => acceptPause (relay s m q.h []) q.h (parkOf s m.cmd q.tenant) (some m.ctx)

/-- CONV_PARK where it is decided (R368, R390). -/
def parkCore : State → Taken → State := withHandle true [(8, 32)] serves parkMsg alreadyEnded

/-- CONV_PARK: the conversation parks at once or at its plan's commit (R140, R144). -/
def execConvPark (fn : Nat) (via : Via) (s : State) : Out :=
  msgRow s fn via (isOp 0x0050) (classF parkCore)

/-! ### CONV_CONDENSE (R139, R140, R390, R528) -/

/-- The checks of CONV_CONDENSE that come before its effect (R139, R375, R390). -/
def condenseCode (s : State) (q : Req) : Option Code :=
  if convBusy q then some .busy
  else if !pausable q || posBase q == 0 then some .wrongState
  else if !hasCondenser s q.part then some .modelNotResident
  else none

/-- CONV_CONDENSE of a live or paused request (R140, R390). -/
def condenseMsg (s : State) (m : Taken) (q : Req) : State :=
  match condenseCode s q with
  | some c => refuse s m.ctx c
  | none => acceptPause (relay s m q.h []) q.h .condense (some m.ctx)

/-- CONV_CONDENSE where it is decided (R368, R390). -/
def condenseCore : State → Taken → State := withHandle true [(8, 8)] serves condenseMsg alreadyEnded

/-- CONV_CONDENSE: frames are reserved and the conversation gets condenser rows (R153, R528). -/
def execConvCondense (fn : Nat) (via : Via) (s : State) : Out :=
  msgRow s fn via (isOp 0x0052) (classF condenseCore)

/-! ### CONV_DROP (R158) -/

/-- CONV_DROP of a live or paused request (R139, R158, R390). -/
def dropMsg (s : State) (m : Taken) (q : Req) : State :=
  if !resumable q then refuse s m.ctx .wrongState
  else respond (cancelReq (relay s m q.h []) q.h m.ctx.accept 2) m.ctx .success []

/-- CONV_DROP where it is decided (R368, R390). -/
def dropCore : State → Taken → State := withHandle true [(8, 8)] serves dropMsg alreadyEnded

/-- CONV_DROP: a paused conversation ends CANCELLED and gives back what it holds (R158). -/
def execConvDrop (fn : Nat) (via : Via) (s : State) : Out :=
  msgRow s fn via (isOp 0x0053) (classF dropCore)

/-! ### CONV_RESUME (R141, R149, R156, R390) -/

/-- Positions a conversation would hold with k more input tokens (R141, R156). -/
def positionsWith (q : Req) (k : Nat) : Nat :=
  let cond := if q.conv == .condensed then (match q.cond with | some c => c.s | none => 0) else q.condIn
  q.history.length + cond + q.input.length + k

/-- Whether a bound model is resident for a resume: present and not UNLOADING (R273, Table MSG-3). -/
def boundResident (s : State) (p : Nat) (k : ModelKey) : Bool :=
  match modelOfKey (partOf s p) k with | some m => !m.unloading | none => false

/-- Whether a resume from PARKED or CONDENSED finds its models (R273). -/
def modelsBack (s : State) (q : Req) : Bool :=
  q.conv == .held || (boundResident s q.part q.base && (match q.fb with | some k => boundResident s q.part k | none => true))

/-- Whether every APPEND token is below the base model's VOCAB. -/
def appendOk (s : State) (q : Req) (app : List Nat) : Bool :=
  match modelOfKey (partOf s q.part) q.base with | some m => app.all fun y => decide (y < m.prog.vocab) | none => true

/-- The checks of CONV_RESUME in their order (R86, R141, R148, R375, R390). -/
def resumeCode (s : State) (q : Req) (app : List Nat) (accept : Nat) : Option Code :=
  if convBusy q then some .busy
  else if !resumable q then some .wrongState
  else if q.adGone then some .adapterRetired
  else if !modelsBack s q then some .modelNotResident
  else if !appendOk s q app then some .invalidField
  else if decide (q.samp.ctxMax < positionsWith q app.length) ||
      (q.conv != .held && !canReserve s q.part (reqQuota (partOf s q.part) q)) then some .noResource
  else if q.conv == .parked && (match q.record with | some r => decide (r.expiresAt ≤ accept) | none => true) then some .parkExpired
  else none

/-- The RESUME event's STATE code of a conversation (Table CAP-5). -/
def resumeState (q : Req) : Nat :=
  match q.conv with
  | .parked => 2
  | .condensed => 3
  | _ => 1

/-- A resume accepted: the RESUME event and its INPUT entries, then LIVE, or RESUMING from PARKED, where the permits of its Sinter runs are
asked for (R141, R149, R156, R189, R245). -/
def acceptResume (s : State) (h : Nat) (app : List Nat) (fdl tdl accept : Nat) (c : Option MsgCtx) : State :=
  match reqOf s h with
  | none => s
  | some q =>
    let k := reqQuota (partOf s q.part) q
    let s := jrnOut s h (resumeEntries (resumeState q) q.next accept app)
    let done := fun t => match c with | some c => respond t c .success [] | none => t
    match q.conv with
    | .parked => endIfBad (askStacks (updReq (clearWork s h) h fun x =>
        { x with conv := .resuming, slot := true, quota := k, want := some (.resume app fdl tdl accept), wantCtx := c })) h
    | .condensed =>
      let n := match q.cond with | some d => d.s | none => 0
      endIfBad (done (goLive (updReq s h fun x => { x with slot := true, quota := k, condIn := n }) h app fdl tdl accept)) h
    | _ => done (goLive s h app fdl tdl accept)

/-- CONV_RESUME of a live or paused request (R390). -/
def resumeMsg (desc : Bytes) (s : State) (m : Taken) (q : Req) : State :=
  let app := tokensAt desc 0 (rd m.cmd 40 4)
  match resumeCode s q app m.ctx.accept with
  | some .parkExpired => respond s m.ctx .parkExpired (endedBody m.ctx.accept (termVal .expired) 2 q.next)
  | some c => refuse s m.ctx c
  | none => acceptResume (relay s m q.h desc) q.h app (rd m.cmd 24 8) (rd m.cmd 32 8) m.ctx.accept (some m.ctx)

/-- CONV_RESUME of an ended request: PARK_EXPIRED where it ended by parking expiry (R148, R373). -/
def resumeGone (s : State) (m : Taken) (e : Option Ended) : State :=
  match e with
  | some x =>
    if x.term == termVal .expired && x.detail == 2 then respond s m.ctx .parkExpired (endedOf m.ctx.accept e) else alreadyEnded s m e
  | none => alreadyEnded s m e

/-- CONV_RESUME where it is decided, with its descriptor (R368, R390). -/
def resumeCore (s : State) (m : Taken) (d : Bytes) : State := withHandle false [(8, 36)] serves (resumeMsg d) resumeGone s m

/-- CONV_RESUME with its descriptor, which is read only where COUNT is not 0 (Table MSG-12, R369). -/
def resumeDesc (desc : ReadResult) (s : State) (m : Taken) : State :=
  let n := rd m.cmd 40 4
  if 4096 < n then refuse s m.ctx .invalidField
  else if n = 0 then classF (fun s m => resumeCore s m []) s m
  else withDesc (rd m.cmd 16 8) (4 * n) desc true resumeCore s m

/-- CONV_RESUME: a paused conversation goes on with APPEND tokens and new deadlines (R141). -/
def execConvResume (fn : Nat) (via : Via) (desc : ReadResult) (s : State) : Out := msgRow s fn via (isOp 0x0051) (resumeDesc desc)

/-! ### Timers (R137, R148) -/

/-- A command about a request of this package, in SERVING only (R428). -/
def reqRow (s : State) (h : Nat) (f : Req → State) : Out :=
  .next (if s.flt.pkg != .serving then s else match reqOf s h with | some q => if living q then f q else s | none => s)

/-- IDLE_ACTION: a conversation HELD for IDLE_TICKS undergoes its tenant's action, which the leader decides (R137, R138, R151). -/
def execIdleAction (h : Nat) (s : State) : Out := reqRow s h fun q => if leads s q.part then idleBy s s.boot.dtc h else s

/-- PARK_EXPIRY: the record is deleted and the request ends EXPIRED, which the leader decides (R148). -/
def execParkExpiry (h : Nat) (s : State) : Out := reqRow s h fun q => if leads s q.part then expireBy s s.boot.dtc h else s

/-! ### The end of a park (R144) -/

/-- PARK_COMPLETE: what the regulators kept back of the entry is written, with the corrected words its HBM reads met; with the barrier
completed, at the DTC in the header, the conversation is PARKED (R144 step 4, R254, R287; log 33). -/
def execParkComplete (r : ParkReads) (s : State) : Out :=
  reqRow s r.h fun q => match q.parking with
    | none => s
    | some k =>
      if k.written < k.parts.length then parkWrites (noteEcc s q.part r.ecc) r.h
      else if k.barrier && decide (k.stamp ≤ s.boot.dtc) then ownPark s r.h true
      else s

/-- A park whose write the window checks refuse tried again until it goes through or has failed three times (R144, R348). -/
def retryPark (s : State) (h : Nat) : State :=
  (List.range 2).foldl (fun t _ => match (reqOf t h).bind (·.parking) with
    | some k => if retrying k && decide (k.tries < 3) then parkWrites t h else t
    | none => t) s

/-- Whether a park's write has failed after its two retries (R144). -/
def parkFailed (s : State) (h : Nat) : Bool := ((reqOf s h).bind (·.parking)).any fun k => decide (3 ≤ k.tries)

/-- PARK_ABANDON: a write of a park has failed, of the part given because a page of it lacks PRESENT, or else because the window checks
refuse it; after two retries the conversation returns to its state before PARKING, and no frame is freed (R138, R144, R348). -/
def execParkAbandon (r : ParkFailure) (s : State) : Out :=
  reqRow s r.h fun q => match q.parking with
    | none => s
    | some k =>
      let s := match r.part with
        | some n => if n < k.written && decide (k.tries < 3) then rewritePart s r.h n else s
        | none => s
      let s := retryPark s r.h
      if parkFailed s r.h then ownPark s r.h false else s

/-! ### The end of a resume from PARKED (R149, R150) -/

/-- A stream restored from its entry: whole frames sealed, the last one open where it was (R130, R150). -/
def restoreStream (s : State) (h : Nat) (fb : Bool) (kv : List Bytes) : State :=
  match reqOf s h with
  | none => s
  | some q =>
    let g := if fb then fbGeom (partOf s q.part) q else geomOf (partOf s q.part) q.base
    let n := kvGranules g kv.length
    let k := kvFrames g kv.length
    match openFrames (updReq s h fun x => { x with quota := x.quota - k }) q.part .kv (.stream h fb) k with
    | none => s
    | some (ns, s) =>
      let s := updReq s h fun x => if fb then { x with kvFb := { kv := kv, frames := ns } } else { x with kvBase := { kv := kv, frames := ns } }
      (ns.zipIdx).foldl (fun t e =>
        if 128 * (e.2 + 1) ≤ n then sealFrame t e.1 .kv (kvFrame g kv e.2)
        else updFrame t e.1 fun f => { f with written := n - 128 * e.2 }) (charge s q.part 1 (512 * n))

/-- Whether this member has taken a resume's entry back and waits for the others (R151; log 24). -/
def restored (s : State) (q : Req) : Bool := told s s.group.index q.part .work q.h == some (leBytes 1 WorkCode.resumed.val)

/-- What a RESUMING conversation's transfer finds, once its read may start and its Sinter runs have their permits (R149, R245, R287, R340,
R348). -/
def resumeCheck (s : State) (q : Req) (entry : ReadResult) : Option EntryCheck :=
  let x := partOf s q.part
  if q.conv != .resuming || restored s q || !s.host.linkUp || !mayStart x 3 || !mayStart x 1 || !stacksHeld s then none
  else
    let inWin := match parkWindow s q.part, q.record with | some w, some r => winOk s 0 w.d 0 r.offset r.entryLen | _, _ => false
    some (checkEntry s q (if inWin then entry else none))

/-- A resume's host read charged to the DMA regulator (R287). -/
def chargeEntry (s : State) (q : Req) : State :=
  match q.record with | some r => charge s q.part 3 r.entryLen | none => s

/-- A pending resume's message answered with a code. -/
def answerWant (s : State) (q : Req) (c : Code) : State := match q.wantCtx with | some x => refuse s x c | none => s

/-- A resume whose entries are all taken back: the record is gone and the conversation LIVE (R141, R149). -/
def resumeDone (s : State) (h : Nat) : State :=
  match reqOf s h with
  | none => s
  | some q => match q.want with
    | some (.resume app fdl tdl acc) =>
      let s := allRunsEnd (goLive (updReq s h fun x => { x with record := none }) h app fdl tdl acc)
      match q.wantCtx with
      | some c => respond s c .success []
      | none => s
    | _ => s

/-- A resume that failed: what it took is freed, and the request ends WITHHELD (R149). -/
def failResume (s : State) (q : Req) (c : Code) : State :=
  let s := updReq (dropKv s q.h) q.h fun x => { x with record := none, want := none, wantCtx := none }
  answerWant (allRunsEnd (endTold s q.h .withheld 3)) q c

/-- What a resume comes to where it is decided (R149). -/
def resumeEnd (s : State) (h : Nat) (c : WorkCode) : State :=
  match reqOf s h with
  | none => s
  | some q => match c with
    | .resumed => resumeDone s h
    | .badDigest => failResume s q .digestMismatch
    | .readFails => failResume s q .parkFault
    | .otherLayout => answerWant (allRunsEnd (backToParked s h)) q .layoutMismatch
    | _ => s

/-- The leader's decision about a resume that spans members: it fails if it fails on any of them, and completes once it has on all
(R151; log 24). -/
def settleResume (s : State) (h : Nat) : State :=
  match reqOf s h with
  | none => s
  | some q =>
    let ws := workTold s q.part h
    if q.conv != .resuming || !leads s q.part then s
    else if ws.contains WorkCode.badDigest.val then resumeEnd s h .badDigest
    else if ws.contains WorkCode.readFails.val then resumeEnd s h .readFails
    else if ws.contains WorkCode.otherLayout.val then resumeEnd (report s q.part h .resumeBack) h .otherLayout
    else if ws.all (· == WorkCode.resumed.val) then resumeEnd (report s q.part h .resumeEnds) h .resumed
    else s

/-- This member's own part of a resume has come to something: it ends here, or in a group where the leader has heard of every member. -/
def ownResume (s : State) (q : Req) (c : WorkCode) : State :=
  if spans s q.part then settleResume (report s q.part q.h c) q.h else resumeEnd s q.h c

/-- RESUME_COMPLETE: the parked entry is verified and taken back, and the conversation is LIVE (R149). -/
def execResumeComplete (h : Nat) (entry : ReadResult) (s : State) : Out :=
  reqRow s h fun q => match resumeCheck s q entry with
    | some (.good b f) => ownResume (restoreStream (restoreStream (chargeEntry s q) h false b) h true f) q .resumed
    | _ => s

/-- A host read of a parked entry has failed: it is retried twice (R149). -/
def resumeReadFails (s : State) (q : Req) : State :=
  if q.resumeTries < 2 then updReq s q.h fun x => { x with resumeTries := q.resumeTries + 1 } else ownResume s q .readFails

/-- RESUME_FAIL: the entry cannot be read, or is not the one the record names; an entry of another layout stays PARKED (R149). -/
def execResumeFail (h : Nat) (entry : ReadResult) (s : State) : Out :=
  reqRow s h fun q =>
    match resumeCheck s q entry with
    | some .layout => ownResume (chargeEntry s q) q .otherLayout
    | some .bad => ownResume (chargeEntry s q) q .badDigest
    | some .readFails => resumeReadFails (chargeEntry s q) q
    | _ => s

end Sys2Proof.Machine
end

