-- ==== Sys2Proof/Machine/Mac.lean ====
section
/-! DEFINITION. The meanings of MA_MAC, AM_MAC, VU_OP and TWIN_SHADOW (02 §4-§9, 03 R93, R98, 08 R213, R233). -/

namespace Sys2Proof.Machine

/-! ### MA_MAC -/

/-- The granules of B that hold as many columns as n granules of A (R249). -/
def bGranules (fa fb : Fmt) (n : Nat) : Nat := ceilDiv (n * tileCols fa) (tileCols fb)

/-- A × B added into an EAR set row by row (R36, R37). -/
def macInto (a : Anchor) (ear : Ear) (as bs : List (List (FVal × Option Nat))) : Ear :=
  { ear with els := (as.flatMap fun u => bs.map fun v => (u, v)).zip ear.els |>.map fun e => dotInto a e.2 e.1.1 e.1.2 }

/-- A × B of one MA_MAC: operands, products, and FINAL's rounding. -/
def macRun (s : State) (c : Nat) (x : Cx) (k : QCmd) (a : Anchor) (fa fb : Fmt) (rows : List Nat) : State :=
  let n := k.cmd.len
  let nb := bGranules fa fb n
  let ra := operandBytes x.cl 0 k.cmd.a (runBytes fa n)
  let rb := operandBytes ra.2 1 k.cmd.b (runBytes fb nb)
  let reads := operandRange x.cl 0 k.cmd.a (runBytes fa n) ++ operandRange ra.2 1 k.cmd.b (runBytes fb nb)
  let ear := openEar rb.2 k.cmd.d a.tensor (tileRows fa) (tileRows fb)
  finishEar s c x k rb.2 a (macInto a ear (runRows fa ra.1 n) (runRows fb rb.1 nb)) rows reads

/-- MA_MAC: products of a tile band of A with one of B into the EAR set at D under the tensor's anchor, rounded with FINAL
(R34-R44, Table CLU-12); it waits for its array permit (R412). `rows` are the plan rows of A's tile rows (log 15). -/
def execMaMac (r : Reader) (rows : List Nat) (s : State) : Out :=
  clusterRow s r.c <| withCmd s r.c 1 fun x k =>
    match anchorFor x.model k.cmd.aux, fmtOfCode (k.cmd.fmt % 256), fmtOfCode (k.cmd.fmt / 256) with
    | some a, some fa, some fb =>
      let need := match layerClass x.lay x.rank x.cl.layers with | some n => maxClass n (macClass k.cmd) | none => macClass k.cmd
      withArray s r.c need (macRun (noteEcc s x.p r.ecc) r.c x k a fa fb rows)
    | _, _, _ => doubt s 0x08 x.p r.c 0

/-! ### AM_MAC (R45, R93, R94, R98) -/

/-- The segments of the invocation that hold a plan row, as adapter slots: the adapter of slot sl, if any. -/
def segAdapter (a : Attempt) (inv sl row : Nat) : Option Nat :=
  (a.segs.find? fun g => g.inv == inv && g.slot == sl && g.rows.contains row).map (·.idx)

/-- The image of a resident adapter. -/
def adImage (s : State) (p i : Nat) : Option (Bytes × AdImage) :=
  match adapterOf s p i with
  | none => none
  | some a => (parseAdapter a.image).map fun im => (a.image, im)

/-- The entry of an adapter for an adaptation point. -/
def adEntry (im : AdImage) (pt : AdaptPoint) : Option AdPoint :=
  im.points.find? fun e => e.layer == pt.layer && e.point == pt.point

/-- An adapter's data for one point: its image, its entry, and its bytes in the order A, B, A's scales, B's scales (R93). -/
structure PointData where
  im : AdImage
  en : AdPoint
  aM : Fmt × Bytes × Bytes
  bM : Fmt × Bytes × Bytes

/-- The data of an adapter of a partition for a point, where it has any. -/
def pointData (s : State) (p i : Nat) (pt : AdaptPoint) : Option PointData :=
  match adImage s p i with
  | none => none
  | some (bs, im) => (adEntry im pt).map fun en => { im := im, en := en, aM := adMatrix bs im en true, bM := adMatrix bs im en false }

/-- The bytes of a point's data in the order they are divided in. -/
def PointData.bytes (d : PointData) : Bytes := d.aM.2.1 ++ d.bM.2.1 ++ d.aM.2.2 ++ d.bM.2.2

/-- The bytes of a point's data that rank r of n clusters takes: first byte and the byte after the last (R93). -/
def shareOf (b n r : Nat) : Nat × Nat := (min b (r * ceilDiv b n), min b ((r + 1) * ceilDiv b n))

/-- The first byte of an element of a tensor of k columns within its data granules (R250, R251). -/
def elemByte (f : Fmt) (k r c : Nat) : Nat :=
  512 * (r / tileRows f * ceilDiv k (tileCols f) + c / tileCols f) + r % tileRows f * tileRowBytes f +
    c % tileCols f * fmtWidth f / 8

/-- Whether the element of A_j, or of B_j, at row r and column c is in rank `rank`'s share of n: the products with it are that
cluster's (R93; log 59). -/
def inShare (d : PointData) (n rank : Nat) (aSide : Bool) (r c : Nat) : Bool :=
  let sh := shareOf d.bytes.length n rank
  let at_ := if aSide then elemByte d.aM.1 d.en.dIn r c else d.aM.2.1.length + elemByte d.bM.1 d.im.rank r c
  decide (sh.1 ≤ at_ ∧ at_ < sh.2)

/-- The scale of t_j as a value, and whether it saturated (R45 step 2). -/
def tValue (u : W32) (scale : W32) : FVal × Bool :=
  let r := roundProduct .bf16 (f32 u) (f32 scale)
  (decode .bf16 r.1, r.2)

/-- One element of A_j · x added: A_j's rank row against x's columns from base, so far as this cluster has them (R45 step 1). The
declared value is the anchor whatever the declaration's MODE says (log 60). -/
def aSideEl (a : Anchor) (d : PointData) (n rank base rk : Nat) (e : EarEl) (xs : List (FVal × Option Nat)) : EarEl :=
  (xs.zipIdx).foldl (fun acc v =>
    if base + v.2 < d.en.dIn && inShare d n rank true rk (base + v.2) then
      earProduct (some a.value) acc (tensorAt d.aM.1 d.aM.2.1 d.aM.2.2 d.en.dIn rk (base + v.2)) v.1.1 else acc) e

/-- One element of B_j · t_j added to an output element, so far as this cluster has them (R45 step 3). -/
def bSideEl (a : Anchor) (d : PointData) (n rank out : Nat) (ts : List FVal) (e : EarEl) : EarEl :=
  if out < d.en.dOut then
    (ts.zipIdx).foldl (fun acc t =>
      if inShare d n rank false out t.2 then earProduct (anchorOf a) acc (tensorAt d.bM.1 d.bM.2.1 d.bM.2.2 d.im.rank out t.2) t.1
      else acc) e
  else e

/-- The adapters applied to the rows of a tile: tile row, slot, plan row, adapter index. -/
def tileAds (x : Cx) (rows : List Nat) : List (Nat × Nat × Nat × Nat) :=
  (rows.zipIdx).flatMap fun e => [0, 1].filterMap fun sl => (segAdapter x.att x.slot sl e.1).map fun i => (e.2, sl, e.1, i)

/-- The segments of the tile's rows whose data this cluster has not read for a point yet: slot and adapter index (R98). -/
def unreadSegs (x : Cx) (point : Nat) (ads : List (Nat × Nat × Nat × Nat)) : List (Nat × Nat) :=
  ((ads.map fun e => (e.2.1, e.2.2.2)).eraseDups).filter fun g => !x.att.amRead.contains (x.slot, point, g.1, g.2, x.rank)

/-- The bytes of this cluster's shares of some segments at a point. -/
def segShares (s : State) (x : Cx) (pt : AdaptPoint) (segs : List (Nat × Nat)) : Bytes :=
  segs.flatMap fun g => match pointData s x.p g.2 pt with
    | none => []
    | some d => let sh := shareOf d.bytes.length (partClusters x.part.items) x.rank; (d.bytes.drop sh.1).take (sh.2 - sh.1)

/-- The two halves of a carve-out of `stage` bytes after a point's data have gone through them, one half's bytes a pass (R94). -/
def fillHalves (stage : Nat) (bs : Bytes) (old : List Bytes) : List Bytes :=
  ((chunks (stage / 2) bs).zipIdx).foldl (fun h e => h.set (e.2 % 2) e.1) old

/-- The shares a cluster has not read yet read from the pool, once in the step, through its staging halves; the reads are charged to the
HBM read regulator (R94, R98). -/
def readShares (s : State) (c : Nat) (x : Cx) (point : Nat) (pt : AdaptPoint) (ads : List (Nat × Nat × Nat × Nat)) : State :=
  let segs := unreadSegs x point ads
  let bs := segShares s x pt segs
  let s := updAtt s x.p fun a => { a with amRead := a.amRead ++ segs.map fun g => (x.slot, point, g.1, g.2, x.rank) }
  let s := updCluster s c fun cl => { cl with halves := fillHalves x.part.items.stage bs cl.halves }
  charge s x.p 0 bs.length

/-- Rank entries of an A-side EAR set for each tile row and slot. -/
def amCols : Nat := 256

/-- A cluster's contribution to u_j of one row joined to the others' (R49, R93). -/
def joinSum (us : List USum) (u : USum) : List USum :=
  match us.find? fun v => v.inv == u.inv && v.point == u.point && v.slot == u.slot && v.row == u.row with
  | none => us ++ [u]
  | some v =>
    (us.filter (· != v)) ++ [{ v with els := (v.els.zip u.els).map fun e => earJoin e.1 e.2, parts := v.parts ++ u.parts }]

/-- What an A-side EAR set holds for one tile row and slot: its entries, and other members' FP32 partials of them. -/
def sumOf (x : Cx) (point : Nat) (ear : Ear) (rank : Nat) (e : Nat × Nat × Nat × Nat) : USum :=
  let at_ := (2 * e.1 + e.2.1) * amCols
  { inv := x.slot, point := point, slot := e.2.1, idx := e.2.2.2, row := e.2.2.1
    els := (ear.els.drop at_).take rank
    parts := (List.range rank).flatMap fun rk => (partsFor ear (at_ + rk)).map fun v => (v.1, rk, v.2) }

/-- A-side sums: x against the A_j of every row's adapters; with FINAL they join the member's u_j (R45 step 1, R93). -/
def amA (s : State) (c : Nat) (x : Cx) (k : QCmd) (pt : AdaptPoint) (a : Anchor) (fa : Fmt) (base : Nat) (rows : List Nat) : State :=
  let n := k.cmd.len
  let r := operandBytes x.cl 2 k.cmd.a (runBytes fa n)
  let reads := operandRange x.cl 2 k.cmd.a (runBytes fa n)
  let xs := runRows fa r.1 n
  let ads := tileAds x rows
  let ear := openEar r.2 k.cmd.d a.tensor (2 * tileRows fa) amCols
  let ncl := partClusters x.part.items
  let els := ads.foldl (fun els e =>
    match pointData s x.p e.2.2.2 pt with
    | none => els
    | some d => (List.range d.im.rank).foldl (fun l rk =>
        modAt l ((2 * e.1 + e.2.1) * amCols + rk) fun v => aSideEl a d ncl x.rank base rk v (xs.getD e.1 [])) els) ear.els
  let ear := { ear with els := els, planRows := (ear.planRows ++ rows).eraseDups }
  withStore s c x reads [] (
    let s := readShares s c x k.cmd.aux pt ads
    let halves := (clusterOf s c).halves
    if bit k.cmd.flags 1 then
      let sums := ads.filterMap fun e => (adImage s x.p e.2.2.2).map fun im => sumOf x k.cmd.aux ear im.2.rank e
      let s := updAtt s x.p fun y => { y with uSums := sums.foldl joinSum y.uSums }
      completeOut s c x k { dropEar r.2 k.cmd.d with halves := halves } (sums.flatMap fun u => u.els.flatMap fun e => leBytes 12 (partialEnc 96 e)) reads
    else completeOut s c x k { putEar r.2 ear with halves := halves } (earPartials ear) reads)

/-- u_j of a row in FP32, entry by entry, and whether one saturated (R45 step 1, R39, R50). -/
def uOf (pa : Anchor) (own : Nat) (u : USum) : List (W32 × Bool) :=
  (u.els.zipIdx).map fun e =>
    let r := elOut { pa with mode := 0 } .fp32 own e.1 ((u.parts.filter fun t => t.2.1 == e.2).map fun t => (t.1, t.2.2))
    (BitVec.ofNat 32 r.1, r.2)

/-- B-side products: B_j against t_j into the EAR set of the point's output tensor, columns from base (R45 steps 2 and 3). -/
def amB (s : State) (c : Nat) (x : Cx) (k : QCmd) (pt : AdaptPoint) (pa a : Anchor) (fa fb : Fmt) (base : Nat) (rows : List Nat) : State :=
  let own := ownIndex s x.part.items.groupSize
  let ncl := partClusters x.part.items
  let ts := (tileAds x rows).filterMap fun e =>
    match pointData s x.p e.2.2.2 pt,
      x.att.uSums.find? fun u => u.inv == x.slot && u.point == k.cmd.aux && u.slot == e.2.1 && u.row == e.2.2.1 with
    | some d, some u =>
      let us := uOf pa own u
      let tv := us.map fun v => tValue v.1 d.im.scale
      some (e, d, tv.map (·.1), us.any (·.2) || tv.any (·.2))
    | _, _ => none
  let ear := openEar x.cl k.cmd.d a.tensor (tileRows fa) (tileRows fb)
  let els := ts.foldl (fun els t =>
    (List.range ear.cols).foldl (fun l j =>
      modAt l (t.1.1 * ear.cols + j) fun v => bSideEl a t.2.1 ncl x.rank (base + j) t.2.2.1 v) els) ear.els
  let sat := (ts.filter fun t => t.2.2.2).map fun t => t.1.2.2.1
  let s := readShares s c x k.cmd.aux pt (tileAds x rows)
  let s := if sat.isEmpty then s else markSat s x.p sat
  finishEar s c x k { x.cl with halves := (clusterOf s c).halves } a { ear with els := els } rows []

/-- AM_MAC: A-side sums or B-side products of the current segments at an adaptation point (R45, R46, R93); its pool reads
wait for the HBM read regulator (R98, R287) and its issue for the AMVU permit. `side`, `base` and `rows` are the sequencer's (log 15). -/
def execAmMac (r : Reader) (side : AmSide) (base : Nat) (rows : List Nat) (s : State) : Out :=
  clusterRow s r.c <| withCmd s r.c 2 fun x k =>
    match x.model.prog.points[k.cmd.aux]?, fmtOfCode (k.cmd.fmt % 256), fmtOfCode (k.cmd.fmt / 256) with
    | some pt, some fa, some fb =>
      match (anchorsLow x.model.prog.anchors pt.uAnchor).head?, (anchorsLow x.model.prog.anchors pt.outAnchor).head? with
      | some pa, some oa =>
        if !mayStart x.part 0 then s
        else withAmvu s r.c (match side with
          | .aSide => amA (noteEcc s x.p r.ecc) r.c x k pt pa fa base rows
          | .bSide => amB (noteEcc s x.p r.ecc) r.c x k pt pa ((anchorFor x.model oa.tensor).getD oa) fa fb base rows)
      | _, _ => doubt s 0x08 x.p r.c 0
    | _, _, _ => doubt s 0x08 x.p r.c 0

/-! ### VU_OP (R54-R57, R213) -/

/-- A run of n granules as rows of FP32 values. -/
def f32Rows (f : Fmt) (bs : Bytes) (n : Nat) : List (List W32) := (runRows f bs n).map fun r => r.map fun v => toF32 v.1

/-- A tensor of some rows and columns read from the store at a 512-byte unit, as rows of FP32 values (R251). -/
def f32Tensor (cl : Cluster) (f : Fmt) (unit rows cols : Nat) : List (List W32) :=
  let d := tensorGranules f rows cols
  let bs := csRead cl.cs (512 * unit) (runBytes f d)
  (List.range rows).map fun r => (List.range cols).map fun c => toF32 (tensorAt f (bs.take (512 * d)) (bs.drop (512 * d)) cols r c)

/-- The stream a plan row's invocation reads and writes: the fallback's for fallback and shadow rows, else the base's (R125). -/
def rowStream (q : Req) (r : PlanRow) : Stream := if r.fb || r.shadow then q.kvFb else q.kvBase

/-- K or V of one position of a head, from the bytes of a position (R253): h heads of w bytes a layer, K then V. -/
def headOf (h w layer head v : Nat) (pos : Bytes) : Bytes := slice pos (((layer * h + head) * 2 + v) * w) w

/-- K or V of a head at positions 0 to `last` of a plan row's conversation, by position: what the stream holds, then what this step has
staged (R55, R129). -/
def storedKv (x : Cx) (q : Req) (r : PlanRow) (layer head v last : Nat) : List (Nat × List Nat) :=
  let w := x.model.prog.headWidth
  let old := (((rowStream q r).kv.take (last + 1)).zipIdx).map fun e => (e.2, headOf x.lay.kvLocal w layer head v e.1)
  let own := (indexRows 0 x.att.plan.rows).filter fun e => e.2.h == r.h && e.2.slot == r.slot
  let new := x.att.staged.filterMap fun k =>
    if k.slot == r.slot && k.layer == layer && k.head == head && k.stream == v then
      ((own.find? fun e => decide (e.1 ≤ k.row ∧ k.row < e.1 + e.2.n)).map fun e => (e.2.first + (k.row - e.1), k.body))
    else none
  let fresh := new.filter fun e => decide (old.length ≤ e.1 ∧ e.1 ≤ last)
  sortBy (·.1) ((old ++ fresh).map fun e => (e.1, e.2.map (·.toNat)))

/-- The plan row of an index and its position. -/
def rowAt (x : Cx) (i : Nat) : Option (PlanRow × Nat) :=
  ((indexRows 0 x.att.plan.rows).find? fun e => decide (e.1 ≤ i ∧ i < e.1 + e.2.n)).map fun e => (e.2, e.2.first + (i - e.1))

/-- Attention of one tile row: its plan row's query against the K and V rows of its conversation up to its own position, less the masked
(R54, R55). -/
def attendRow (s : State) (x : Cx) (t : AttendArgs) (sc nm oa : Int) (f : Fmt) (i : Nat) (q : List Nat) : VuOut :=
  match rowAt x i with
  | none => { enc := [], scales := [], sat := false }
  | some (r, pos) => match reqOf s r.h with
    | none => { enc := [], scales := [], sat := false }
    | some req =>
      let keep := fun (l : List (Nat × List Nat)) => (l.filter fun e => !t.masked.contains e.1).map (·.2)
      let ks := keep (storedKv x req r t.layer t.head 0 pos)
      let vs := keep (storedKv x req r t.layer t.head 1 pos)
      let o := attention (q.take x.model.prog.headWidth) ks vs t.scale sc nm oa f
      { enc := o.map (·.1), scales := [], sat := o.any (·.2) }

/-- Bytes of K and V that attention reads from HBM for a row: those of its conversation's whole pages (R129). -/
def attendBytes (s : State) (x : Cx) (i : Nat) : Nat :=
  match rowAt x i with
  | none => 0
  | some (r, _) => match reqOf s r.h with
    | none => 0
    | some q => (rowStream q r).kv.length / 16 * 16 * (2 * x.model.prog.headWidth)

/-- The result of a VU_OP written at D in tile layout, its saturated rows marked (R44, R250). -/
def vuFinish (s : State) (c : Nat) (x : Cx) (k : QCmd) (cl : Cluster) (f : Fmt) (cols : Nat) (os : List VuOut) (rows : List Nat)
    (reads : List (Nat × Nat)) : State :=
  let out := packRows f cols os
  withStore s c x reads [(512 * k.cmd.d, out.length)] (
    let sat := ((os.zipIdx).filter fun e => e.1.sat).filterMap fun e => rows[e.2]?
    let s := if sat.isEmpty then s else markSat s x.p sat
    completeOut s c x k (csPut cl k.cmd.d out) out reads)

/-- A VU_OP over the band of LEN granules at A, B read as a tensor of as many rows and columns (R54-R57). -/
def vuGo (s : State) (c : Nat) (x : Cx) (k : QCmd) (fa fb : Fmt) (work : VuWork) (rows : List Nat) : State :=
  let n := k.cmd.len
  let ra := operandBytes x.cl 3 k.cmd.a (runBytes fa n)
  let rdA := operandRange x.cl 3 k.cmd.a (runBytes fa n)
  let cols := n * tileCols fa
  let nr := tileRows fa
  let rdB := fun (r : Nat) => [(512 * k.cmd.b, runBytes fb (tensorGranules fb r cols))]
  match work with
  | .seq records =>
    let ops := (x.model.prog.ops.drop k.cmd.aux).take records
    let as := f32Rows fa ra.1 n
    let bs := f32Tensor ra.2 fb k.cmd.b nr cols
    let os := (as.zip bs).map fun e => vuRun cols ops e.1 e.2
    vuFinish s c x k ra.2 (vuFmt ops) cols os rows (rdA ++ rdB nr)
  | .attend t =>
    match anchorFor x.model t.score, anchorFor x.model t.norm, anchorFor x.model t.out, fmtOfCode t.fmt with
    | some sc, some nm, some oa, some f =>
      if !mayStart x.part 0 then s
      else
        let qs := (List.range nr).map fun r => (List.range cols).map fun i =>
          tileGet fa ((ra.1.drop (512 * (i / tileCols fa))).take 512) r (i % tileCols fa)
        let os := (rows.zip qs).map fun e => attendRow s x t sc.value nm.value oa.value f e.1 e.2
        let s := charge s x.p 0 (sumNat (rows.map (attendBytes s x)))
        vuFinish s c x k ra.2 f x.model.prog.headWidth os rows rdA
    | _, _, _, _ => doubt s 0x08 x.p c 0
  | .norm t =>
    match anchorFor x.model t.anchor, fmtOfCode t.fmt with
    | some a, some f =>
      let gs := (f32Tensor ra.2 fb k.cmd.b 1 cols).getD 0 []
      let os := (f32Rows fa ra.1 n).map fun r =>
        let o := rmsNorm (r.take t.width) (gs.take t.width) t.nu t.eps a.value f
        { enc := o.map (·.1), scales := [], sat := o.any (·.2) : VuOut }
      vuFinish s c x k ra.2 f t.width os rows (rdA ++ rdB 1)
    | _, _ => doubt s 0x08 x.p c 0

/-- VU_OP: a sequence of VECTOR_OPS records, attention or a norm over the rows of LEN granules of A, B its second operand, the result
written at D (R54-R57, R213); it waits for its AMVU permit (R411). -/
def execVuOp (r : Reader) (work : VuWork) (rows : List Nat) (s : State) : Out :=
  clusterRow s r.c <| withCmd s r.c 3 fun x k =>
    match fmtOfCode (k.cmd.fmt % 256), fmtOfCode (k.cmd.fmt / 256) with
    | some fa, some fb => withAmvu s r.c (vuGo (noteEcc s x.p r.ecc) r.c x k fa fb work rows)
    | _, _ => doubt s 0x08 x.p r.c 0

/-! ### TWIN_SHADOW (R233-R235) -/

/-- The partition and attempt a cluster works for, whatever its own stream has left. -/
def holderOf (s : State) (c : Nat) : Option (Nat × Attempt) :=
  match (clusterOf s c).holder with
  | none => none
  | some (p, _) => match (partOf s p).attempt with
    | some a => if a.phase == .run || a.phase == .shelving then some (p, a) else none
    | none => none

/-- A pair's shadow digest set, its inputs released; a difference is doubt at once (R233, R234). -/
def twinCompare (s : State) (p : Nat) (t : TwinPair) (a : Attempt) (output : Bytes) : State :=
  let d := tileDigest output
  if t.primaryDigest == some d then
    let s := updAtt s p fun y => { y with twins := (y.twins.filter (· != t)) ++ [{ t with shadowDigest := some d, inputs := [], output := [] }] }
    updPart s p fun y => { y with twinPairs := satAdd 64 y.twinPairs 1 }
  else doubt s 0x01 p (a.clusters.getD t.rank 0) t.cmd

/-- The copy at the head of a cluster's TWIN queue done: it has read its inputs and computed its output, which goes to the twin area and
is compared (R233, R234). `faulty` is the output of a shadow cluster that is not sound. -/
def twinRun (s : State) (c p : Nat) (a : Attempt) (t : TwinPair) (q : Nat) (faulty : Option Bytes) : State :=
  let out := faulty.getD t.output
  let s := updCluster s c fun cl =>
    { cl with twinQ := cl.twinQ.drop 1, twinTurns := cl.twinTurns.set q 0, twinArea := out, lastRetire := s.boot.dtc }
  memberReady (twinCompare s p t a out) p

/-- TWIN_SHADOW: the copy at the head of a cluster's TWIN queue runs; the pair is compared (R233, R234). It asks for the permit of
its work (R235). -/
def execTwinShadow (c : Nat) (faulty : Option Bytes) (s : State) : Out :=
  clusterRow s c <|
    match holderOf s c, (clusterOf s c).twinQ with
    | some (p, a), e :: _ =>
      match a.twins.find? fun t => t.inv == e.1 && t.rank == e.2.1 && t.cmd == e.2.2 && t.shadow == c && t.shadowDigest.isNone,
        shadowCmd s p e with
      | some t, some k =>
        let run := twinRun s c p a t (queueOf k.op) faulty
        if k.op = 1 then withArray s c (macClass k) run else withAmvu s c run
      | _, _ => s
    | _, _ => s

end Sys2Proof.Machine
end

