-- ==== Sys2Proof/Machine/Peers.lean ====
section
/-! DEFINITION. Messages of another member: the meanings of TENSOR_WRITE, PLACE_RETURN, XP_REDUCE, SEM_RELAY, PORT_LOST,
CREDIT_RECLAIM_REQ, CREDIT_RECLAIM_ACK and HOLD_RECEIVED (11 R318-R321, R324, R330, R333). -/

namespace Sys2Proof.Machine

/-- Doubt in the protocol of a port (R313, R318). -/
def linkDoubt (s : State) (n : Nat) : State := doubt s 0x0E 0xFF n 0

/-- What the TAG of a tensor message names here (R318, R324). -/
inductive TagKind where
  /-- an attempt that executes -/
  | executing (a : Attempt)
  /-- an attempt frozen here and not granted yet -/
  | early
  /-- a killed attempt whose reclaim is open on the port -/
  | killed
  | nothing
  deriving DecidableEq, Repr

/-- The attempt a message's TAG names (R318). -/
def tagKind (s : State) (n : Nat) (m : LinkMsg) : TagKind :=
  if reclaimed (portOf s n) m then .killed
  else match (partOf s m.part).attempt with
    | none => .nothing
    | some a =>
      if attemptTag (partOf s m.part) a != m.tag / 65536 then .nothing
      else match a.phase with
        | .plan => .early
        | .claim => .early
        | .killing => .nothing
        | _ => .executing a

/-- The outbound channel whose route leads from a rank of another member to a channel of this one, in the receiver's route phase
(R218, R319). -/
def sourceChannel (s : State) (x : Cx) (m : LinkMsg) : Nat :=
  let g := x.part.items.groupSize
  let own := ownIndex s g
  ((List.range 16).find? fun ch =>
    match routeAt x.lay.clusters (if x.att.escape then x.lay.esc else x.lay.routes) x.cl.phase (tagRank m.tag) ch with
    | some r => r.dest == m.destRank && r.ch == m.destChannel && (tagMember m.tag + r.member) % g == own
    | none => false).getD 0

/-- Bodies of 64 bytes put into a channel as channel messages, in order (R319). -/
def putBodies (s : State) (c : Nat) (x : Cx) (m : LinkMsg) : State :=
  let src := (tagMember m.tag, tagRank m.tag, sourceChannel s x m)
  ((chunks 64 m.body).zipIdx).foldl (fun t e =>
    chanPut t c m.destChannel { port := m.kind, base := m.arg + e.2, body := e.1, xp := 0, esc := 0, layer := 0, src := src }) s

/-- A tensor message checked, and handed on for the cluster of its rank if its attempt executes (R318, R324). -/
def tensorMsg (s : State) (n ty v : Nat) (m : LinkMsg) (f : State → Nat → Cx → State) : State :=
  if !msgKnown v ty m.kind m.body.length then linkDoubt s n
  else match tagKind s n m with
    | .early => s
    | .killed => takeLink s n ty (· == m)
    | .nothing => linkDoubt s n
    | .executing a =>
      match a.clusters[m.destRank]? with
      | none => linkDoubt s n
      | some c => match cxOf s c with
        | none => linkDoubt s n
        | some x => f (takeLink s n ty (· == m)) c x

/-- TENSOR_WRITE: its bodies become messages of the destination channel (R319). -/
def execTensorWrite (port : Nat) (m : LinkMsg) (s : State) : Out :=
  portRow s port (if s.flt.pkg != .serving then s else tensorMsg s port 1 1 m fun t c x => putBodies t c x m)

/-- XP_REDUCE: its values reach the destination channel and, where a binding waits, the reduction function unit combines them
(R49, R320). -/
def execXpReduce (port : Nat) (m : LinkMsg) (s : State) : Out :=
  portRow s port <|
    if s.flt.pkg != .serving then s
    else tensorMsg s port 2 2 m fun t c x =>
      let src := (tagMember m.tag, tagRank m.tag, sourceChannel t x m)
      deliverHead (chanPut t c m.destChannel { port := 4, base := m.arg, body := m.body, xp := m.kind, esc := 0, layer := 0, src := src }) c m.destChannel

/-- n places of an outbound channel's messages come back, the oldest first (R319). -/
def takePlaces (ch : Nat) : Nat → List Unret → List Unret
  | _, [] => []
  | n, u :: us =>
    if u.ch != ch || n = 0 then u :: takePlaces ch n us
    else if u.n ≤ n then takePlaces ch (n - u.n) us
    else { u with n := u.n - n } :: us

/-- A cluster's account of a remote channel after n places have come back. -/
def returnedPlaces (cl : Cluster) (ch n : Nat) : Cluster := { cl with unret := takePlaces ch n cl.unret }

/-- PLACE_RETURN: places come back to the sending rank's account of a remote channel (R319). -/
def execPlaceReturn (port : Nat) (m : LinkMsg) (s : State) : Out :=
  portRow s port <|
    if s.flt.pkg != .serving then s
    else if !msgKnown 0 1 0x10 m.body.length then linkDoubt s port
    else
      let s := takeLink s port 1 (· == m)
      match (partOf s m.part).attempt with
      | none => s
      | some a =>
        if attemptTag (partOf s m.part) a != m.tag / 65536 then s
        else match a.clusters[m.destRank]? with
          | none => s
          | some c => updCluster s c fun cl => returnedPlaces cl m.destChannel m.arg

/-- SEM_RELAY: a semaphore operation at its home, or its answer at the requester (R227, R228, R321). -/
def execSemRelay (port : Nat) (m : LinkMsg) (s : State) : Out :=
  portRow s port <|
    if s.flt.pkg != .serving then s
    else if !msgKnown 0 3 m.kind m.body.length || 8 ≤ m.part then linkDoubt s port
    else semRelayIn (takeLink s port 3 (· == m)) m

/-! ### CREDIT_RECLAIM (R324) -/

/-- Whether a port's receive counts of VC1 and VC2 have reached those a REQ carries. -/
def reached (p : Port) (body : Bytes) : Bool :=
  (vcOf p 1).rxFlits == rd body 0 8 && (vcOf p 2).rxFlits == rd body 8 8

/-- CREDIT_RECLAIM_REQ: the receiver discards the attempt's messages; once every flit has arrived and its credits have been
returned it answers ACK, which closes the reclaim (R324). -/
def execCreditReclaimReq (port : Nat) (m : LinkMsg) (s : State) : Out :=
  portRow s port <|
    if !linkUp (portOf s port) then s
    else if !msgKnown 3 6 1 m.body.length then linkDoubt s port
    else
      let tag := m.tag / 65536
      let s := openReclaim s m.part tag port
      if !reached (portOf s port) m.body then s
      else
        let s := updPort (takeLink s port 6 (· == m)) port (idleFlits 5)
        let s := portSend s port 3 (linkHeader 0x06 0x02 0 m.part 0 0 m.tag 0)
        updPort s port fun p => { p with reclaimRx := p.reclaimRx.filter (· != (m.part, tag)) }

/-- CREDIT_RECLAIM_ACK: one of the REQs of a killed attempt is answered (R324). -/
def execCreditReclaimAck (port : Nat) (m : LinkMsg) (s : State) : Out :=
  portRow s port <|
    let s := takeLink s port 6 fun x => x.kind == 2 && x == m
    match (partOf s m.part).attempt with
    | none => s
    | some a =>
      if a.phase == .killing && attemptTag (partOf s m.part) a == m.tag / 65536 then
        updPart s m.part fun x => { x with attempt := some { a with reclaims := a.reclaims.filter (· != port) } }
      else s

/-! ### PORT_LOST (R330) -/

/-- Whether SEQ a comes after SEQ b, modulo 4,096. -/
def seqAfter (a b : Nat) : Bool :=
  let d := (a + 4096 - b) % 4096
  decide (0 < d ∧ d < 2048)

/-- The payload bytes of a VC's flits, from the first that begins a message after SEQ b. -/
def payloadAfter (b v : Nat) (fs : List TxFlit) : Bytes :=
  let later := fs.filter fun f => f.vc == v && seqAfter f.seq b
  (later.dropWhile fun f => bits (rd f.bytes 0 8) 20 16 != 0).flatMap fun f => slice f.bytes 8 240

/-- Messages cut from payload bytes in which each starts a flit (log 11); the fuel is the number of bytes. -/
def cutMsgs : Nat → Bytes → List Bytes
  | 0, _ => []
  | f + 1, bs =>
    if bs.length < 16 then []
    else
      let n := 16 + rd bs 2 2
      slice bs 0 n :: cutMsgs f (bs.drop (ceilDiv n 240 * 240))

/-- The VC0 or VC3 messages of a lost port that the peer has not received: from its replay buffer, then those still queued. -/
def lostMsgs (p : Port) (b v : Nat) : List TxMsg :=
  let rest := (p.txq.filter fun m => m.vc == v && m.begun).flatMap (·.bytes)
  let bs := payloadAfter b v p.replay ++ rest
  ((cutMsgs bs.length bs) ++ (p.txq.filter fun m => m.vc == v && !m.begun).map (·.bytes)).map fun m => { vc := v, part := rd m 4 1, bytes := m, begun := false }

/-- PORT_LOST: the peer names a port of this end that is lost and the last SEQ it received; VC0 and VC3 messages begun after it are sent
again on the surviving port, ahead of new ones (R330 item 3). -/
def execPortLost (port lost seq : Nat) (s : State) : Out :=
  if lost < 12 then
    portRow s port <|
      let x := portOf s lost
      if x.st != .down || (portOf s port).st != .active then s
      else
        let ms := lostMsgs x seq 3 ++ lostMsgs x seq 0
        let s := updPort (takeLink s port 5 fun m => m.kind == 8) lost fun p => { p with replay := [], txq := [] }
        pumpState (updPort s port fun p =>
          let begun := p.txq.filter (·.begun)
          { p with txq := begun ++ ms ++ p.txq.filter fun m => !m.begun }) port
  else .fault .noSuchUnit

/-! ### HOLD (R333) -/

/-- The attempts and requests of the partitions that span a peer ended (R333, R432). -/
def endSpanning (s : State) (i : Nat) : State :=
  (List.range 8).foldl (fun t p =>
    if spansPeer t p i then holdEndAll (killStart t p 6 .none false) p else t) s

/-- HOLD_RECEIVED: the port enters HOLD and writes off its link state; the partitions that span the peer end (R333). -/
def execHoldReceived (port : Nat) (s : State) : Out :=
  portRow s port <|
    let x := portOf s port
    if x.st == .disabled || x.st == .down then s
    else
      let i := peerIndex s port
      let h := x.holding
      let s := updPort (portPermits (forgetPort s port) port) port fun p =>
        { clearLink p with st := .hold, holding := h, holds := satAdd 32 p.holds 1 }
      match i with
      | some i =>
        let s := forgetMember s i
        if s.flt.pkg == .serving then forgetPort (endSpanning s i) port else s
      | none => s

end Sys2Proof.Machine
end

