-- ==== Sys2Proof/Machine/Replay.lean ====
section
/-! DEFINITION. Capsules and replays: the meanings of CAPSULE_EXPORT, REPLAY_START and REPLAY_STATUS (07 R195, R198-R201, R527; 13
R391-R393; log 30). -/

namespace Sys2Proof.Machine

/-! ### CAPSULE_EXPORT (R195, R392) -/

/-- CAPSULE_EXPORT of a live or paused request: a SEAL at its plan's commit, or out of step; one that waits already serves (R189,
R195, R392). -/
def exportMsg (s : State) (m : Taken) (q : Req) : State :=
  if !q.ownsRing then refuse s m.ctx .unknownHandle
  else
    let t := updReq s q.h fun x => { x with exports := x.exports ++ [m.ctx] }
    if planned s q || q.jrn.waiting.any (fun w => w.ty == 9) then t
    else jrnOut t q.h [{ kind := .interim, ty := 9, len := 56, body := [] }]

/-- The body that reports a retained final SEAL, or zeros (R392). -/
def sealBody (e : Option Ended) : Bytes :=
  match e with
  | some e => leBytes 4 e.entries ++ leBytes 4 e.tokens ++ slice e.digest 0 32
  | none => zeroBytes 40

/-- CAPSULE_EXPORT of an ended request (R195, R392); a member of a group that did not own its ring, or retains no outcome, does not know
the handle (R368). -/
def exportGone (s : State) (m : Taken) (e : Option Ended) : State :=
  if (match e with | some x => !x.own | none => spans s m.ctx.part) then refuse s m.ctx .unknownHandle
  else respond s m.ctx .alreadyEnded (sealBody e)

/-- CAPSULE_EXPORT: the request's journal gets a SEAL, and the message reports it (R195). -/
def execCapsuleExport (fn : Nat) (via : Via) (s : State) : Out :=
  msgRow s fn via (isOp 0x0060) (withHandle true [(8, 8)] (fun st => st != .disabled) exportMsg exportGone)

/-! ### Well-formed capsules (R191, R192, R527) -/

/-- LEN of a type (R191); INPUT's is 4 per token. -/
def entryLen (e : Bytes) : Option Nat :=
  match entTy e with
  | 1 => some 48
  | 2 => some 40
  | 3 => some 40
  | 4 => some 56
  | 5 => let n := rd e 2 2; if 4 ≤ n ∧ n ≤ 56 ∧ n % 4 = 0 then some n else none
  | 6 => some 40
  | 7 => some 32
  | 8 => some 32
  | 9 => some 56
  | _ => none

/-- The reserved bytes of a type's payload within LEN: offset and length (Table CAP-5). -/
def entryReserved (e : Bytes) : List (Nat × Nat) :=
  match entTy e with
  | 1 => [(38, 2)]
  | 2 => [(9, 7)]
  | 3 => [(12, 4)]
  | 4 => [(30, 2)]
  | 6 => [(22, 2)]
  | 7 => [(10, 2)]
  | 8 => [(10, 2)]
  | 9 => [(12, 4)]
  | _ => []

/-- Whether the codes and FLAGS of an entry are known (Table CAP-5 to Table CAP-8). -/
def entryCodes (e : Bytes) : Bool :=
  match entTy e with
  | 2 => decide (1 ≤ rd e 8 1 ∧ rd e 8 1 ≤ 8)
  | 3 => decide (rd e 8 1 ≤ 1 ∧ rd e 9 1 ≤ 1)
  | 6 => decide (rd e 20 2 < 64)
  | 7 => decide (1 ≤ rd e 8 1 ∧ rd e 8 1 ≤ 5) && (if rd e 8 1 = 5 then decide (1 ≤ rd e 9 1 ∧ rd e 9 1 ≤ 3) else rd e 9 1 == 0)
  | 8 => decide (1 ≤ rd e 8 1 ∧ rd e 8 1 ≤ 6) && !bit (rd e 9 1) 0 && decide (rd e 9 1 < 8)
  | _ => true

/-- Items 1 and 2 of R527 for entry number i. -/
def entryOk (i : Nat) (e : Bytes) : Bool :=
  e.length == 64 && rd e 4 4 == i && entryCodes e && ((entryReserved e).all fun r => zeros e r.1 r.2) &&
    match entryLen e with
    | some n => rd e 2 2 == n && zeros e (8 + n) (56 - n)
    | none => false

/-- Tokens of an INPUT entry. -/
def inputOf (e : Bytes) : List Nat := tokensAt e 8 (rd e 2 2 / 4)

/-- Whether INPUT entries hold n tokens, 14 in each but the last (R192). -/
def inputsOk (n : Nat) (es : List Bytes) : Bool :=
  es.all (fun e => entTy e == 5) && (es.map fun e => rd e 2 2 / 4) == (List.range (ceilDiv n 14)).map fun i => min 14 (n - 14 * i)

/-- Item 4 of R527. -/
def samplingOk (e : Bytes) (prompt : Nat) : Bool :=
  tempOk (BitVec.ofNat 32 (rd e 8 4)) && topPOk (BitVec.ofNat 32 (rd e 16 4)) && decide (prompt + 1 ≤ rd e 20 4) && decide (rd e 28 1 ≤ 3) &&
    decide (rd e 29 1 ≤ 8) && zeros e (32 + 4 * rd e 29 1) (32 - 4 * rd e 29 1)

/-- A capsule's opening section, read (R192). -/
structure Opening where
  level : Nat
  groupSize : Nat
  part : Nat
  seed : Nat
  count : Nat
  /-- DIGEST kinds with their digests -/
  digests : List (Nat × Digest)
  /-- SLOT, ROLE, digest -/
  ads : List (Nat × Nat × Digest)
  sampling : Bytes
  prompt : List Nat
  deriving DecidableEq, Repr

/-- Ascending (SLOT, ROLE) pairs without repeats (R192). -/
def adsAscend : List Bytes → Bool
  | a :: b :: rest => decide (rd a 8 1 * 2 + rd a 9 1 < rd b 8 1 * 2 + rd b 9 1) && adsAscend (b :: rest)
  | _ => true

/-- Item 3 of R527: the opening section of a capsule, complete. -/
def readOpening (es : List Bytes) : Option Opening :=
  let o := es.headD []
  let n := rd o 48 4
  let plen := rd o 52 4
  let rest := (es.take n).drop 1
  let ds := rest.takeWhile fun e => entTy e == 2
  let r2 := rest.dropWhile fun e => entTy e == 2
  let as := r2.takeWhile fun e => entTy e == 3
  let r3 := r2.dropWhile fun e => entTy e == 3
  let sm := r3.headD []
  let kinds := ds.map fun e => rd e 8 1
  if entTy o == 1 && slice o 8 4 == ascii "HSKC" && rd o 12 2 == 1 && decide (1 ≤ n ∧ n ≤ es.length) &&
      (kinds == [1, 2, 3] || kinds == [1, 2, 3, 4, 5]) && adsAscend as && entTy sm == 4 && samplingOk sm plen && inputsOk plen (r3.drop 1) then
    some { level := rd o 14 1, groupSize := rd o 15 1, part := rd o 34 2, seed := rd o 40 8, count := n
           digests := ds.map fun e => (rd e 8 1, slice e 16 32), ads := as.map fun e => (rd e 8 1, rd e 9 1, slice e 16 32)
           sampling := sm, prompt := (r3.drop 1).flatMap inputOf }
  else none

/-- What must follow an entry at once (R527 item 5). -/
inductive Follow where
  | digest (kind : Nat)
  /-- k INPUT entries that hold n tokens -/
  | inputs (k n : Nat)
  | seal_
  /-- nothing follows the final SEAL -/
  | stop
  deriving DecidableEq, Repr

/-- What follows TERMINAL. -/
def afterTerminal : List Follow := [.digest 8, .seal_, .stop]

/-- INPUT entries that must follow: k of them with n tokens in all. -/
def inputsLeft (k n : Nat) : List Follow := if k = 0 then [] else [.inputs k n]

/-- What follows an EVENT. -/
def afterEvent (e : Bytes) : List Follow :=
  match rd e 8 1 with
  | 3 => [.digest 6, .digest 7]
  | 5 => inputsLeft (ceilDiv (rd e 12 4) 14) (rd e 12 4)
  | _ => []

/-- Items 5 and 6 of R527 for the entries after the opening section: t tokens so far, and what must follow now. -/
def bodyOk : List Bytes → Nat → List Follow → Bool
  | [], _, w => w.isEmpty || w == [.stop]
  | e :: es, t, w =>
    let terminal := rd e 16 8 == t && bodyOk es t afterTerminal
    match w with
    | .digest k :: ws => entTy e == 2 && rd e 8 1 == k && bodyOk es t ws
    | .inputs k n :: ws =>
      if entTy e = 8 then bit (rd e 9 1) 2 && terminal
      else
        let c := rd e 2 2 / 4
        entTy e == 5 && decide (c ≤ n) && (k != 1 || c == n) && bodyOk es t (inputsLeft (k - 1) (n - c) ++ ws)
    | .seal_ :: ws => entTy e == 9 && bodyOk es t ws
    | .stop :: _ => false
    | [] =>
      match entTy e with
      | 6 => rd e 8 8 == t && bodyOk es (t + 1) []
      | 7 => rd e 16 8 == t && bodyOk es t (afterEvent e)
      | 8 => terminal
      | 9 => bodyOk es t []
      | _ => false

/-- A capsule file's entries (R186). -/
def entriesOf (bs : Bytes) : List Bytes := chunks 64 bs

/-- Check 2 of Table CAP-9: the opening section of a well-formed capsule (R527). -/
def capsuleOf (es : List Bytes) : Option Opening :=
  if (es.zipIdx).all fun e => entryOk e.2 e.1 then
    match readOpening es with
    | some o => if bodyOk (es.drop o.count) 0 [] then some o else none
    | none => none
  else none

/-- The number of the last SEAL of a capsule. -/
def lastSealOf (es : List Bytes) : Option Nat := ((es.zipIdx).reverse.find? fun e => entTy e.1 == 9).map (·.2)

/-- Check 3 of Table CAP-9: the number of the last SEAL, if it fits. -/
def sealFits (es : List Bytes) (tail : Bool) : Option Nat :=
  match lastSealOf es with
  | none => none
  | some j =>
    let e := es.getD j []
    let before := es.take j
    if rd e 8 4 == j && rd e 16 8 == (before.filter fun x => entTy x == 6).length && slice e 32 32 == sha256 before.flatten &&
        (tail || j + 1 == es.length) then some j
    else none

/-! ### REPLAY_START (R198, R199, Table CAP-9) -/

/-- A model of a partition under a level, not UNLOADING, that passes a test of its key (R198, R276). -/
def findModel (s : State) (p level : Nat) (f : ModelKey → Bool) : Option Model :=
  ((partOf s p).slots.filterMap id).find? fun m => !m.unloading && levelVal m.key.level == level && f m.key

/-- The digest of a kind in an opening section. -/
def digestOf (o : Opening) (k : Nat) : Digest := match o.digests.find? fun e => e.1 == k with | some e => e.2 | none => []

/-- Whether an opening section names a fallback model (R192). -/
def namesFb (o : Opening) : Bool := o.digests.any fun e => e.1 == 4

/-- The base model, or with 4 the fallback model, that a capsule names by its model and program digests. -/
def namedModel (s : State) (p : Nat) (o : Opening) (k : Nat) : Option Model :=
  findModel s p o.level fun x => x.weights == digestOf o k && x.program == digestOf o (k + 1)

/-- Check 5 of Table CAP-9: the base model, where every model and program named is resident. -/
def replayModel (s : State) (p : Nat) (o : Opening) (es : List Bytes) : Option Model :=
  let conds := (es.filter fun e => entTy e == 2 && rd e 8 1 == 6).map fun e => slice e 16 32
  if (!namesFb o || (namedModel s p o 4).isSome) && conds.all fun d => (findModel s p o.level fun x => x.program == d).isSome then
    namedModel s p o 2
  else none

/-- The adapter of a digest that a replay of a tenant may use (Table CAP-9 check 6). -/
def replayAd (s : State) (p tenant : Nat) (d : Digest) : Option Adapter :=
  s.adapters.find? fun a => a.part == p && a.digest == d && !a.retiring && !a.bad && (a.owner == tenant || a.owner == 0xFFFF)

/-- The adapter index of a SLOT and ROLE of a capsule. -/
def replayIdx (s : State) (p tenant : Nat) (o : Opening) (slot role : Nat) : Option Nat :=
  match o.ads.find? fun a => a.1 == slot && a.2.1 == role with
  | some a => (replayAd s p tenant a.2.2).map (·.idx)
  | none => none

/-- END_ACTION of a capsule's SAMPLING entry (Table CAP-5). -/
def capAction : Nat → EndAction
  | 1 => .hold
  | 2 => .park
  | 3 => .condense
  | _ => .finish

/-- The recorded sampling and turn inputs (R199). -/
def capSampling (o : Opening) : Sampling :=
  let e := o.sampling
  { seed := o.seed, temp := BitVec.ofNat 32 (rd e 8 4), topK := rd e 12 4, topP := BitVec.ofNat 32 (rd e 16 4), ctxMax := rd e 20 4
    turnMax := rd e 24 4, endAction := capAction (rd e 28 1), endDefault := false, stops := tokensAt e 32 (rd e 29 1), prompt := o.prompt }

/-- The serial after n of a partition's replay ids that no kept status has (R372); at most one more than the statuses is skipped. -/
def freeSerial (kept : List Nat) : Nat → Nat → Nat
  | 0, n => n
  | f + 1, n => let k := if n + 1 = 2 ^ 24 then 1 else n + 1; if kept.contains k then freeSerial kept f k else k

/-- The next replay id's serial of a partition (R372). -/
def nextReplay (x : Part) : Nat := freeSerial (x.replayStats.map fun r => r.id % 2 ^ 24) (x.replayStats.length + 1) x.replays

/-- A ring that a replay does not have (R199). -/
def noRing : Ring := { addr := 0, log2 := 0, ctrl := 0, pidx := 0, cidx := 0 }

/-- The descriptor that a request with a capsule's inputs would have had. -/
def replayDesc (o : Opening) (a0 a1 : Option Nat) : ReqDesc :=
  { samp := capSampling o, endCode := 1, nStop := rd o.sampling 29 1, ad0 := a0, ad1 := a1, vector := 0xFFFF, ring := noRing, jrn := noRing
    firstDl := 0, tokDl := 0, irqRecords := 0, irqTicks := 0, promptLen := o.prompt.length }

/-- The model's own name for a replay's request: bits [55:48] hold 1, which no handle has (log 30). -/
def replayName (p serial : Nat) : Nat := p * 2 ^ 56 + 2 ^ 48 + serial

/-- The request that an accepted replay runs as (R199). -/
def bornReplay (s : State) (m : Taken) (o : Opening) (es : List Bytes) (sealed : Nat) (bm : Model) (t : Tenant) (serial : Nat) : Req :=
  let p := m.ctx.part
  let ix := replayIdx s p t.id o
  let b := { birthOf s m (replayName p serial) false with fn := 0 }
  let q := bornReq s b (replayDesc o (ix 0 0) (ix 1 0)) bm t
  let i := sha256 (ascii "SWRQ" ++ (es.take o.count).flatten)
  { q with ident := i, digest := digestInit i, comp0 := ix 0 1, comp1 := ix 1 1, fb := (namedModel s p o 4).map (·.key)
           canFall := namesFb o, queuedAt := none, replayId := p * 2 ^ 24 + serial
           replay := some { entries := es, next := o.count, sealedTo := sealed + 1 } }

/-- A replay's status at its start (R198, R201). -/
def newReplayStat (s : State) (q : Req) (o : Opening) : ReplayStat :=
  { id := q.replayId, tenant := q.tenant, st := 0, endNo := 0, compared := 0, divIndex := none, divKind := 0, divSeq := 0, recTok := 0
    recFlags := 0, recHead := zeroBytes 16, obsTok := 0, obsFlags := 0, obsHead := zeroBytes 16, termRep := false
    fwDiffers := digestOf o 1 != s.boot.curFw, partDiffers := o.part != partCode s, unsealed := false }

/-- Replays of a partition that have not ended. -/
def activeReplays (x : Part) : Nat := (x.replayStats.filter fun r => decide (r.st < 2)).length

/-- An accepted replay queued, the events recorded before its first token applied (R199). -/
def acceptReplay (s : State) (q : Req) (o : Opening) (serial : Nat) : State :=
  let s := { s with reqs := s.reqs ++ [{ q with quota := reqQuota (partOf s q.part) q }] }
  let s := updPart s q.part fun x => { x with replays := serial, submits := q.seq, replayStats := newReplayStat s q o :: x.replayStats }
  replayAdvance (match q.replay with | some r => r.entries.length | none => 0) (wake s q.part q.accept) q.h

/-- The code of the first check of Table CAP-9 that fails, or the request. -/
def checkReplay (s : State) (m : Taken) (capsule : Option Bytes) (t : Tenant) : Code × Option (Opening × Req × Nat) :=
  let p := m.ctx.part
  match capsule with
  | none => (.homeFault, none)
  | some bs =>
    let es := entriesOf bs
    match capsuleOf es with
    | none => (.capsuleInvalid, none)
    | some o => match sealFits es (bit (rd m.cmd 9 1) 0) with
      | none => (.sealMismatch, none)
      | some j =>
        if !(o.level == 1 || (o.level == 2 && o.groupSize == (partOf s p).items.groupSize)) then (.levelMismatch, none)
        else match replayModel s p o es with
          | none => (.modelNotResident, none)
          | some bm =>
            if !o.ads.all (fun a => (replayAd s p t.id a.2.2).isSome) then (.adapterUnknown, none)
            else
              let n := nextReplay (partOf s p)
              let q := bornReplay s m o es j bm t n
              if 16 ≤ activeReplays (partOf s p) || !canReserve s p (reqQuota (partOf s p) q) then (.noResource, none)
              else (.success, some (o, q, n))

/-- REPLAY_START behind the checks of R350 (R198, R393). -/
def startReplay (capsule : ReadResult) (s : State) (m : Taken) : State :=
  let p := m.ctx.part
  let n := rd m.cmd 24 8
  if !bodyZero m.cmd [(8, 2), (16, 16)] || !decide (rd m.cmd 9 1 < 2) || n % 64 != 0 then refuse s m.ctx .invalidField
  else if (partOf s p).st != .active then refuse s m.ctx .wrongState
  else match tenantOf s m.ctx.tenant with
    | none => refuse s m.ctx .tenantUnknown
    | some t =>
      if t.part != p then refuse s m.ctx .tenantUnknown
      else
        let s := charge s p 3 n
        let got := if winOk s m.fn (winNo p (rd m.cmd 8 1)) 0 (rd m.cmd 16 8) n then descBytes n capsule else none
        match checkReplay s m got t with
        | (_, some (o, q, k)) =>
          let s := acceptReplay (relay s m q.h (got.getD [])) q o k
          respond s m.ctx .success (leBytes 4 q.replayId)
        | (c, none) => refuse s m.ctx c

/-- Whether the DMA regulator of the partition that a function's front message names lets a read start (R287). -/
def capsuleMayStart (s : State) (fn : Nat) (via : Via) : Bool :=
  match frontMsg s fn via with
  | some cmd => mayStart (partOf s (rd cmd 6 1)) 3
  | none => true

/-- REPLAY_START: a capsule is read and checked, and a replay is queued (R198). The message waits while the partition's DMA regulator
does (R287). -/
def execReplayStart (fn : Nat) (via : Via) (capsule : ReadResult) (s : State) : Out :=
  if capsuleMayStart s fn via then msgRow s fn via (isOp 0x0061) (classF (startReplay capsule)) else inRange fn 16 s

/-! ### REPLAY_STATUS (R201, R393, Table CAP-10) -/

/-- The response body of REPLAY_STATUS (Table MSG-13). -/
def statusBody (r : ReplayStat) : Bytes :=
  leBytes 1 r.st ++ leBytes 1 r.divKind ++
    leBytes 1 (b2n r.unsealed * 8 + b2n r.partDiffers * 4 + b2n r.fwDiffers * 2 + b2n r.termRep) ++ zeroBytes 1 ++ leBytes 4 r.divSeq ++
    leBytes 8 r.compared ++ leBytes 8 (r.divIndex.getD (2 ^ 64 - 1))

/-- The divergence record (R391). -/
def divergence (r : ReplayStat) : Bytes :=
  leBytes 4 r.recTok ++ leBytes 2 r.recFlags ++ zeroBytes 2 ++ leBytes 4 r.obsTok ++ leBytes 2 r.obsFlags ++ zeroBytes 2 ++
    slice r.recHead 0 16 ++ slice r.obsHead 0 16 ++ zeroBytes 16

/-- REPLAY_STATUS behind the checks of R350 (R370, R391, R393). -/
def statusMsg (s : State) (m : Taken) : State :=
  let out := rd m.cmd 16 8
  if !bodyZero m.cmd [(8, 4), (16, 8)] || !aligned64 out then refuse s m.ctx .invalidField
  else if (partOf s m.ctx.part).st == .disabled then refuse s m.ctx .wrongState
  else match (partOf s m.ctx.part).replayStats.find? fun r => r.id == rd m.cmd 8 4 && (m.fn == 0 || r.tenant == m.ctx.tenant) with
    | none => refuse s m.ctx .unknownReplay
    | some r =>
      let s := if out = 0 || !fromHost m then s
        else issueBarrier (issue s { fn := m.fn, kind := .output, addr := out, data := divergence r }) m.fn .none
      respond s m.ctx .success (statusBody r)

/-- REPLAY_STATUS: the state of a replay, and its divergence record where one is asked for (R201). -/
def execReplayStatus (fn : Nat) (via : Via) (s : State) : Out := msgRow s fn via (isOp 0x0062) (classF statusMsg)

end Sys2Proof.Machine
end

