-- ==== Sys2Proof/Machine/Mgmt.lean ====
section
/-! DEFINITION. Mailbox messages on the link: the meaning of MGMT_FORWARD (01 R22; 05 R151; 06 R177; 10 R297; 11 R323; 13 R368, R369;
log 24). -/

namespace Sys2Proof.Machine

/-- What a message of class F does where it is decided, its descriptor given (R368). -/
def coreF (desc : ReadResult) (s : State) (m : Taken) : State :=
  let withBytes := fun n (f : State → Taken → Bytes → State) =>
    match descBytes n desc with | some d => f s m d | none => refuse s m.ctx .descFault
  match m.ctx.opcode with
  | 0x0011 => if rd m.cmd 8 1 = 2 then abortMsg s m else drainMsg s m
  | 0x0040 => let n := rd m.cmd 16 4; withBytes n (submitMsg n)
  | 0x0041 => cancelCore s m
  | 0x0050 => parkCore s m
  | 0x0051 => let n := rd m.cmd 40 4; if n = 0 then resumeCore s m [] else withBytes (4 * n) resumeCore
  | 0x0052 => condenseCore s m
  | 0x0053 => dropCore s m
  | 0x0061 => startReplay desc s m
  | 0x0062 => statusMsg s m
  | _ => s

/-- A forwarded message taken by the leader, with the DTC of its arrival as its acceptance DTC (R22, R177, R369). -/
def leaderTakes (s : State) (port fn : Nat) (cmd : Bytes) (desc : ReadResult) : State :=
  let p := rd cmd 6 1
  if !(spans s p && leads s p) then s
  else
    let a := acceptStamp s
    coreF desc { s with host := { s.host with lastAccept := a } } { cmd := cmd, ctx := ctxOf (.link port fn) cmd a, fn := fn }

/-- The message of this package's own host that a relay or response answers (log 24). -/
def sentBefore (s : State) (cmd : Bytes) : Option MsgCtx :=
  s.host.forwarded.find? fun c => c.opcode == rd cmd 0 2 && c.cid == rd cmd 2 2 && c.tenant == rd cmd 4 2 && c.part == rd cmd 6 1

/-- A relayed REQUEST_SUBMIT: this member's own copy of the request, owner of the ring where its host sent the submit (R22, R160). -/
def memberSubmit (s : State) (m : Taken) (own : Bool) (h : Nat) (d : Bytes) : State :=
  match tenantOf s m.ctx.tenant, offered s m.ctx.part .base with
  | some t, some b => acceptReq s (bornReq s (birthOf s m h own) (readReqDesc d) b t)
  | _, _ => s

/-- A relayed REPLAY_START (R199). -/
def memberReplay (s : State) (m : Taken) (h : Nat) (d : Bytes) : State :=
  match tenantOf s m.ctx.tenant with
  | some t => (match checkReplay s m (some d) t with | (_, some (o, q, k)) => acceptReplay s { q with h := h } o k | _ => s)
  | none => s

/-- A relayed CONV_PARK at a member; the byte behind its fields marks an idle action of the leader, which no message waits for (R137, R151;
log 24). -/
def memberPark (s : State) (m : Taken) (h : Nat) : State :=
  match reqOf s h with
  | none => s
  | some q => match parkOf s m.cmd q.tenant with
    | .park o st t g => if rd m.cmd 40 1 = 1 then beginPark s h o st t g else acceptPause s h (.park o st t g) none
    | _ => s

/-- A relayed CONV_CONDENSE at a member, marked in the same way. -/
def memberCondense (s : State) (m : Taken) (h : Nat) : State :=
  match reqOf s h with
  | none => s
  | some q => if rd m.cmd 16 1 = 1 then idleCondense s q else acceptPause s h .condense none

/-- What an accepted message does on a member the leader relays it to, under the handle the leader names; a cancel with a DETAIL is one
that the leader decides for another cause (R96, R151, R177, R297; log 24). -/
def memberTakes (s : State) (m : Taken) (own : Bool) (h : Nat) (d : Bytes) : State :=
  let p := m.ctx.part
  let a := m.ctx.accept
  match m.ctx.opcode with
  | 0x0011 => if rd m.cmd 8 1 = 2 then startAbort s p a [] else startDrain s p a (rd m.cmd 16 8) []
  | 0x0040 => memberDemands (memberSubmit s m own h d) p []
  | 0x0041 => if rd m.cmd 16 1 = 0 then cancelBy s h a else cancelReq s h a (rd m.cmd 16 1)
  | 0x0050 => memberPark s m h
  | 0x0051 => memberDemands (acceptResume s h (tokensAt d 0 (rd m.cmd 40 4)) (rd m.cmd 24 8) (rd m.cmd 32 8) a none) p []
  | 0x0052 => memberCondense s m h
  | 0x0053 => cancelReq s h a 2
  | 0x0061 => memberReplay s m h d
  | _ => s

/-- A relay of the leader taken by a member (R22, R323, R369). -/
def relayIn (s : State) (body : Bytes) (desc : ReadResult) : State :=
  let cmd := slice body 8 64
  let p := rd cmd 6 1
  if !spans s p || leads s p || (partOf s p).st == .disabled then s
  else
    let own := sentBefore s cmd
    let fn := match own with | some c => ctxFn c | none => 0
    let m : Taken := { cmd := cmd, ctx := ctxOf .board cmd (rd body 72 8), fn := fn }
    memberTakes s m own.isSome (rd body 80 8) (desc.getD [])

/-- The leader's response to a message this member forwarded, returned to the host (R323). -/
def responseIn (s : State) (fn : Nat) (rsp : Bytes) : State :=
  match s.host.forwarded.find? fun c => c.opcode == rd rsp 0 2 && c.cid == rd rsp 2 2 && ctxFn c == fn with
  | none => s
  | some c =>
    let s := { s with host := { s.host with forwarded := s.host.forwarded.erase c } }
    respondNum s { c with accept := rd rsp 8 8 } (rd rsp 4 2) (slice rsp 24 40)

/-! ### Notices (log 24) -/

/-- The terminal code that a notice of an ended request names (Table GEY-4). -/
def termOf : Nat → Term
  | 1 => .complete
  | 2 => .cancelled
  | 4 => .numericInvalid
  | 5 => .deviceFault
  | 6 => .expired
  | _ => .withheld

/-- A request that the leader has ended out of a step ends here too (R160, R173, R199). -/
def endedIn (s : State) (h : Nat) (t : Term) (d : Nat) : State :=
  match reqOf s h with
  | none => s
  | some q => if q.replay.isSome then endReplay s h 4 else endHere (stopTransfer s h) h t d

/-- How a park or resume stands on another member: the leader decides by it, and a member goes by what the leader decided (R151). -/
def workIn (s : State) (p h c : Nat) : State :=
  if leads s p then settleResume (settlePark s h) h
  else match c with
    | 11 => finishPark s h
    | 12 => abandonPark s h
    | 13 => resumeEnd s h .resumed
    | 15 => resumeEnd s h .otherLayout
    | _ => s

/-- What a notice does beside being kept: kind, object and body (R48, R90, R151, R160, R291, R364, R481). -/
def noticeActs (s : State) (p kind key : Nat) (b : Bytes) : State :=
  match kind with
  | 2 => if leads s p && bit (rd b 0 1) 2 then endAwaiting s p key .withheld 2 0 else s
  | 5 => workIn s p key (rd b 0 1)
  | 6 => if leads s p then s else endedIn s key (termOf (rd b 0 1)) (rd b 1 4)
  | 7 => promote s p key b
  | 8 => preemptAsked s p
  | 10 => cancelReq s key (rd b 0 8) 1
  | 11 => resetIn s p key
  | _ => s

/-- A notice of another member taken: kept in place of an earlier one, of a partition this member does not hold yet too, and acted on. -/
def noticeIn (s : State) (port p : Nat) (body : Bytes) : State :=
  match peerIndex s port with
  | none => s
  | some i =>
    let b := slice body 16 (min 56 (rd body 2 1))
    let kind := rd body 7 1
    let key := rd body 8 8
    let s := hear s { member := i, part := p, kind := kind, key := key, body := b }
    if spans s p then noticeActs s p kind key b else s

/-- FORWARD messages that carry the descriptor behind a message or relay (R369). -/
def pieceCount (cmd : Bytes) (relayed : Bool) : Nat :=
  match rd cmd 0 2 with
  | 0x0040 => ceilDiv (rd cmd 16 4) 4072
  | 0x0051 => ceilDiv (4 * rd cmd 40 4) 4072
  | 0x0061 => if relayed then ceilDiv (rd cmd 24 8) 4072 else 0
  | _ => 0

/-- The message, and what follows it of its descriptor, taken out of the receive buffer (R313, R369). -/
def takeForward (s : State) (port : Nat) (m : LinkMsg) : State :=
  let fn := rd m.body 0 2
  let n := if m.part == 0xFF || fn == noticeFn then 0 else pieceCount (slice m.body 8 64) (fn == relayFn)
  (List.range n).foldl (fun t _ => takeLink t port 5 fun x => x.kind == 1 && rd x.body 0 2 == fn) (takeLink s port 5 (· == m))

/-- MGMT_FORWARD: a mailbox message at the leader, the leader's relay or another member's notice at a member, or a response at the member
that forwarded the message (R323; log 24). -/
def execMgmtForward (port : Nat) (m : LinkMsg) (desc : ReadResult) (s : State) : Out :=
  portRow s port <|
    if s.flt.pkg != .serving then s
    else if m.kind != 1 || m.body.length < 72 then linkDoubt s port
    else
      let s := takeForward s port m
      let fn := rd m.body 0 2
      if m.part = 0xFF then responseIn s fn (slice m.body 8 64)
      else if fn = relayFn then relayIn s m.body desc
      else if fn = noticeFn then noticeIn s port m.part m.body
      else leaderTakes s port fn (slice m.body 8 64) desc

end Sys2Proof.Machine
end

