-- ==== Sys2Proof/Machine/Telemetry.lean ====
section
/-! DEFINITION. Telemetry pages: the meanings of TELEMETRY_READ and ACCOUNTING_READ (10 R286; 11 R336; 13 R370, R394, R395, Table
MSG-14; log 31). -/

namespace Sys2Proof.Machine

/-! ### Records (R395) -/

/-- A counter record: position in its page's list, SCOPE, INDEX, VALUE. -/
structure CounterRec where
  pos : Nat
  scope : Nat
  index : Nat
  value : Nat
  deriving DecidableEq, Repr

/-- The records of consecutive counters of one object, from a position. -/
def counters (pos scope index : Nat) (vs : List Nat) : List CounterRec :=
  (vs.zipIdx).map fun e => { pos := pos + e.2, scope := scope, index := index, value := e.1 }

/-- A record's bytes (R395). -/
def recBytes (page : Nat) (r : CounterRec) : Bytes :=
  leBytes 2 (page * 256 + r.pos) ++ leBytes 2 r.scope ++ leBytes 4 r.index ++ leBytes 8 r.value

/-- Who reads: the PF, or the tenant and partition of a VF (R395). -/
abbrev Reader := Option (Nat × Nat)

/-- The reader behind a message. -/
def readerOf (s : State) (m : Taken) : Reader := (boundTenant s m.fn).map fun t => (t.id, t.part)

/-- Whether a reader sees a tenant. -/
def seesTenant (r : Reader) (id : Nat) : Bool := match r with | some x => x.1 == id | none => true

/-- Partitions a reader sees, not DISABLED. -/
def seesParts (s : State) (r : Reader) : List Nat :=
  (List.range 8).filter fun p => (partOf s p).st != .disabled && (match r with | some x => x.2 == p | none => true)

/-- The tenants of a partition that a reader sees, by id. -/
def tenantsSeen (s : State) (r : Reader) (p : Nat) : List Tenant :=
  sortBy (·.id) (s.tenants.filter fun t => t.part == p && seesTenant r t.id)

/-! ### Pages (Table MSG-14) -/

/-- Page 0x01: a partition's counters, then those of its model slots. -/
def page1 (s : State) (r : Reader) : List CounterRec :=
  (seesParts s r).flatMap fun p =>
    let x := partOf s p
    counters 0 1 p [x.deadlocks, x.xpReruns, x.csCorrected, x.twinPairs, x.twinShadowed] ++
      (List.range 4).flatMap fun i => match modelAt x i with
        | some m => counters 5 7 i [m.resident, b2n m.stalled, modelRefs s p m.key]
        | none => []

/-- Page 0x02: a tenant's counters. -/
def page2 (s : State) (r : Reader) : List CounterRec :=
  (seesParts s r).flatMap fun p => (tenantsSeen s r p).flatMap fun t => counters 0 2 t.id [t.dlMisses, t.satRows, t.numInvalid, t.ringErrs]

/-- Page 0x03: one request's counters. -/
def page3 (s : State) (r : Reader) (h : Nat) : List CounterRec :=
  match s.reqs.find? fun q => q.h == h && living q && q.replay.isNone && seesTenant r q.tenant with
  | some q => counters 0 3 (h % 2 ^ 32) [convVal q.conv, q.next, q.ringErrs, q.jrnErrs, q.dlMisses, q.pauseFails]
  | none => []

/-- Page 0x04: an adapter's STATE word and last-use time (R80, Table ADP-6). -/
def page4 (s : State) (r : Reader) : List CounterRec :=
  (seesParts s r).flatMap fun p =>
    (sortBy (·.idx) (s.adapters.filter fun a => a.part == p && (a.owner == 0xFFFF || seesTenant r a.owner))).flatMap fun a =>
      counters 0 4 a.idx [adVal a + 256 * b2n a.retiring + 512 * b2n a.bad + 65536 * min a.pins 0xFFFF, a.lastUse]

/-- Ticks of a scrub pass: 20 hours (R257). -/
def passTicks : Nat := 7200000000000

/-- Page 0x05: the package's memory counters (R255-R257). -/
def page5 (s : State) : List CounterRec :=
  let n := s.tele.scrubRead.length
  let behind := decide (n * passTicks < (s.boot.dtc - s.tele.scrubStart) * nFrames s)
  counters 0 0 0 [s.tele.hbmCorrected, (s.frames.filter (·.unusable)).length, n * 1000 / nFrames s, b2n behind, s.host.sqTailInvalid]

/-- The reason a port was last DOWN, as a number. -/
def reasonNo : DownReason → Nat
  | .none => 0
  | .groupMismatch => 1
  | .rttExceeded => 2
  | .timeout => 3
  | .recoveryFailed => 4
  | .other c => 5 + c

/-- DOWN_EVENTS with the last reason: the count in the low half, the reason in the high half under a code the spec does not give
(Table LNK-11; log 31). -/
def downValue (p : Port) : Nat := p.downs + 2 ^ 32 * (Config.downReason (reasonNo p.reason) % 2 ^ 32)

/-- Page 0x06: lane, port and package counters of Table LNK-11. -/
def page6 (s : State) : List CounterRec :=
  ((s.ports.zipIdx).flatMap fun e => (e.1.lanes.zipIdx).flatMap fun l =>
    counters 0 5 (e.2 * 5 + l.2) [l.1.corr, l.1.uncorr, l.1.steers, l.1.recals, l.1.paused]) ++
  ((s.ports.zipIdx).flatMap fun e =>
    let p := e.1
    counters 5 6 e.2 [p.crcData, p.crcCtrl, p.nakSent, p.nakRecv, p.replayed, p.recCount, downValue p, p.rtt, b2n p.limited,
      b2n p.steered.isSome, p.holds]) ++
  counters 16 0 0 [s.group.lostKills, s.group.reclaims]

/-- Page 0x10: a tenant's accounting counters with ET, and the partition's for the PF (R286, Table PAR-3). -/
def page10 (s : State) (r : Reader) (p : Nat) (sel : Nat) : List CounterRec :=
  let x := partOf s p
  ((tenantsSeen s r p).filter fun t => sel == 0xFFFF || t.id == sel).flatMap (fun t =>
    counters 0 2 t.id [t.accepted, t.ended, t.queueTicks, t.preempted, t.engineTicks, t.rows, t.tokens, t.et]) ++
  (if r.isNone then counters 8 1 p [x.steps, x.kills, x.shelves, x.downgrades, x.turnWait] else [])

/-! ### Output (R370, R394, R395) -/

/-- A page's bytes: the header, then the records. -/
def pageBytes (s : State) (page : Nat) (rs : List CounterRec) : Bytes :=
  leBytes 2 page ++ leBytes 2 16 ++ leBytes 4 rs.length ++ leBytes 8 s.boot.dtc ++ rs.flatMap (recBytes page)

/-- The output written as far as OUT_LEN holds it, a barrier behind it, and the response once that completes; nothing written needs no
barrier (R361, R370, R394). -/
def output (s : State) (m : Taken) (data : Bytes) (addr len : Nat) : State :=
  let n := min data.length len
  let body := leBytes 4 data.length ++ leBytes 4 n ++ leBytes 8 s.boot.dtc
  if n = 0 then respond s m.ctx .success body
  else issueBarrier (issue s { fn := m.fn, kind := .output, addr := addr, data := data.take n }) m.fn (.output m.ctx n body)

/-- Whether an output buffer is aligned, its length a multiple of 16 (R370). -/
def outOk (addr len : Nat) : Bool := aligned64 addr && len % 16 == 0

/-- The records of a page of TELEMETRY_READ; none where it is PF-only and a VF reads (R395). -/
def pageFor (s : State) (r : Reader) (page sel : Nat) : Option (List CounterRec) :=
  match page with
  | 1 => some (page1 s r)
  | 2 => some (page2 s r)
  | 3 => some (page3 s r sel)
  | 4 => some (page4 s r)
  | 5 => if r.isSome then none else some (page5 s)
  | _ => if r.isSome then none else some (page6 s)

/-- TELEMETRY_READ behind the checks of R350 (R394, R395). -/
def telemetryMsg (s : State) (m : Taken) : State :=
  let page := rd m.cmd 8 2
  let sel := rd m.cmd 24 8
  if !bodyZero m.cmd [(8, 2), (12, 20)] || !outOk (rd m.cmd 16 8) (rd m.cmd 12 4) || !decide (1 ≤ page ∧ page ≤ 6) || (page != 3 && sel != 0) then
    refuse s m.ctx .invalidField
  else
    let data := match pageFor s (readerOf s m) page sel with | some rs => pageBytes s page rs | none => []
    output s m data (rd m.cmd 16 8) (rd m.cmd 12 4)

/-- TELEMETRY_READ: a page of counter records written to an output buffer (R394). -/
def execTelemetryRead (fn : Nat) (via : Via) (s : State) : Out := msgRow s fn via (isOp 0x0070) telemetryMsg

/-- ACCOUNTING_READ behind the checks of R350 (R286, R394). -/
def accountingMsg (s : State) (m : Taken) : State :=
  let p := m.ctx.part
  let sel := rd m.cmd 8 2
  let r := readerOf s m
  let known := match r with
    | some x => sel == 0xFFFF || sel == x.1
    | none => sel == 0xFFFF || (match tenantOf s sel with | some t => t.part == p | none => false)
  if !bodyZero m.cmd [(8, 2), (12, 12)] || !outOk (rd m.cmd 16 8) (rd m.cmd 12 4) then refuse s m.ctx .invalidField
  else if (partOf s p).st == .disabled then refuse s m.ctx .wrongState
  else if !known then refuse s m.ctx .tenantUnknown
  else output s m (pageBytes s 0x10 (page10 s r p sel)) (rd m.cmd 16 8) (rd m.cmd 12 4)

/-- ACCOUNTING_READ: the accounting counters of page 0x10 (R286, R394). -/
def execAccountingRead (fn : Nat) (via : Via) (s : State) : Out := msgRow s fn via (isOp 0x0071) accountingMsg

end Sys2Proof.Machine
end

