-- ==== Sys2Proof/Machine/Tenants.lean ====
section
/-! DEFINITION. Tenants, their keys, and the attestation transport: the meanings of TENANT_SET_CREATE, TENANT_SET_MODIFY,
TENANT_SET_DELETE, KEY_INSTALL and SPDM_TRANSPORT (04 R101-R103; 12 R341; 13 R382, R383, R396; 16 R449-R454; log 27). -/

namespace Sys2Proof.Machine

/-! ### TENANT_SET (R341, R382) -/

/-- Whether TENANT_SET's reserved bytes, codes and MASK are as they must be (R11, R371, R382; log 27). -/
def tenantFormed (cmd : Bytes) : Bool :=
  let b := readTenantBody cmd
  let on := fun i => b.op == 1 || (b.op == 2 && bit b.mask i)
  bodyZero cmd [(8, 50)] && decide (1 ≤ b.op ∧ b.op ≤ 3) && decide (b.endCode ≤ 4 ∧ b.idleCode ≤ 3) && (!on 4 || decide (1 ≤ b.endCode)) &&
    (!on 5 || decide (1 ≤ b.idleCode)) && (if b.op = 2 then decide (b.mask < 128) else b.mask == 0)

/-- Whether the fields that apply are in range, and VF names an enabled one (check 1 of R382, Table STP-1, Table MSG-8). -/
def tenantRanges (s : State) (b : TenantBody) : Bool :=
  let on := fun i => b.op == 1 || (b.op == 2 && bit b.mask i)
  decide (1 ≤ b.tenant ∧ b.tenant ≤ 0xFFFE) && (!on 0 || decide (b.vf ≤ min 15 s.host.vfs)) && (!on 1 || decide (b.rate ≤ 16777215)) &&
    (!on 2 || decide (64 ≤ b.burst)) && (!on 3 || decide (1 ≤ b.weight)) && (!on 6 || b.parkTtl == 0 || ttlOk b.parkTtl)

/-- Whether a VF has a request that has not ended, or an SQ (R341). -/
def vfBusy (s : State) (vf : Nat) : Bool := vf != 0 && ((s.reqs.any fun q => living q && q.fn == vf) || !(fnOf s vf).sqs.isEmpty)

/-- Checks 1, and those of a binding, of R382: none where a tenant may have the VF that the command gives it, from what it had. -/
def vfCode (s : State) (id old new : Nat) : Option Code :=
  if s.tenants.any fun t => t.vf == new && new != 0 && t.id != id then some .conflict
  else if old != new && (vfBusy s old || vfBusy s new) then some .busy
  else none

/-- The response of TENANT_SET: the tenants of the package (R382). -/
def tenantDone (s : State) (m : Taken) : State := respond s m.ctx .success (leBytes 2 s.tenants.length)

/-- A tenant as CREATE leaves it: its bucket full at the leader of its partition, which alone keeps buckets, its counters zero (R102,
R103, R382). -/
def newTenant (p : Nat) (lead : Bool) (b : TenantBody) : Tenant :=
  let bal := if lead then (b.burst : Int) * tokenUnits else 0
  { id := b.tenant, part := p, vf := b.vf, rate := b.rate, burst := b.burst, pend := none, weight := b.weight
    endAction := endActOf b.endCode, idleAction := idleOf b.idleCode, idleTicks := b.idleTicks, parkOffset := b.parkOffset
    parkTtl := b.parkTtl, parkStride := b.parkStride, bal := bal, res := 0, flow := 0, balAtClose := bal, et := 0, keys := []
    accepted := 0, ended := 0, queueTicks := 0, preempted := 0, engineTicks := 0, rows := 0, tokens := 0, dlMisses := 0, satRows := 0
    numInvalid := 0, ringErrs := 0 }

/-- The checks of R382 that come before those of an OP: reserved fields, the partition's state, ranges. -/
def withTenant (core : State → Taken → TenantBody → State) (s : State) (m : Taken) : State :=
  let b := readTenantBody m.cmd
  if !tenantFormed m.cmd then refuse s m.ctx .invalidField
  else if (partOf s m.ctx.part).st != .active then refuse s m.ctx .wrongState
  else if !tenantRanges s b then refuse s m.ctx .invalidField
  else core s m b

/-- CREATE: every field applied (R102, R103, R382). -/
def createTenant (s : State) (m : Taken) (b : TenantBody) : State :=
  if (tenantOf s b.tenant).isSome then refuse s m.ctx .conflict
  else if 1024 ≤ s.tenants.length then refuse s m.ctx .noResource
  else match vfCode s b.tenant 0 b.vf with
    | some c => refuse s m.ctx c
    | none => tenantDone { s with tenants := s.tenants ++ [newTenant m.ctx.part (leads s m.ctx.part) b] } m

/-- TENANT_SET_CREATE: a new tenant of a partition (R382). An unknown OP is refused here. -/
def execTenantSetCreate (fn : Nat) (via : Via) (s : State) : Out :=
  msgRow s fn via (fun c => isOp 0x0030 c && rd c 10 1 != 2 && rd c 10 1 != 3) (withTenant createTenant)

/-- A tenant with the masked fields of a command; RATE and BURST wait for the next freeze instant (R101, R104, Table MSG-8). -/
def maskTenant (t : Tenant) (b : TenantBody) : Tenant :=
  let on := bit b.mask
  let now := t.pend.getD (t.rate, t.burst)
  { t with vf := if on 0 then b.vf else t.vf
           pend := if on 1 || on 2 then some (if on 1 then b.rate else now.1, if on 2 then b.burst else now.2) else t.pend
           weight := if on 3 then b.weight else t.weight
           endAction := if on 4 then endActOf b.endCode else t.endAction
           idleAction := if on 5 then idleOf b.idleCode else t.idleAction
           idleTicks := if on 5 then b.idleTicks else t.idleTicks
           parkOffset := if on 6 then b.parkOffset else t.parkOffset
           parkTtl := if on 6 then b.parkTtl else t.parkTtl
           parkStride := if on 6 then b.parkStride else t.parkStride }

/-- The idle actions of a tenant's conversations that come due at t; one whose idle instant has passed is due at t (R137). -/
def idleTenant (s : State) (id t : Nat) : State :=
  (s.reqs.filter fun q => q.tenant == id && living q && leads s q.part).foldl (fun u q => match tenantOf u id with
    | some n => (match idleInstant q n with | some i => if i ≤ t then idleAct u q n t else u | none => u)
    | none => u) s

/-- MODIFY: the masked fields applied; a change of IDLE_TICKS or IDLE_ACTION acts on clocks that run (R137, R341, R382). -/
def modifyTenant (s : State) (m : Taken) (b : TenantBody) : State :=
  match tenantOf s b.tenant with
  | none => refuse s m.ctx .tenantUnknown
  | some t =>
    if t.part != m.ctx.part then refuse s m.ctx .tenantUnknown
    else match vfCode s t.id t.vf (if bit b.mask 0 then b.vf else t.vf) with
      | some c => refuse s m.ctx c
      | none =>
        let s := updTenant (s.reqs.foldl (fun u q => if q.tenant == t.id && leads u q.part then idleBy u m.ctx.accept q.h else u) s) t.id
          fun u => maskTenant u b
        tenantDone (if bit b.mask 5 then idleTenant s t.id m.ctx.accept else s) m

/-- TENANT_SET_MODIFY: the masked fields of a tenant (R382). -/
def execTenantSetModify (fn : Nat) (via : Via) (s : State) : Out := msgRow s fn via (isOp2 0x0030 10 2) (withTenant modifyTenant)

/-- DELETE: the tenant and its keys gone (R382, R454). -/
def deleteTenant (s : State) (m : Taken) (b : TenantBody) : State :=
  match tenantOf s b.tenant with
  | none => refuse s m.ctx .tenantUnknown
  | some t =>
    if t.part != m.ctx.part then refuse s m.ctx .tenantUnknown
    else if (t.vf != 0 && vfBusy s t.vf) || (s.reqs.any fun q => q.tenant == t.id && living q) ||
        (s.adapters.any fun a => a.part == t.part && a.owner == t.id) then refuse s m.ctx .busy
    else tenantDone { s with tenants := s.tenants.filter fun u => u.id != t.id } m

/-- TENANT_SET_DELETE: a tenant without requests or adapters leaves (R382). -/
def execTenantSetDelete (fn : Nat) (via : Via) (s : State) : Out := msgRow s fn via (isOp2 0x0030 10 3) (withTenant deleteTenant)

/-! ### KEY_INSTALL (R383, R452, R453) -/

/-- A wrapped key opened under a session (Table TRU-3, R452). -/
def unwrapKey (k : Session) (tenant part gen : Nat) (d : Bytes) : Option Bytes :=
  let wrap := hkdfExpand k.secret (ascii "swiori tenant key wrap") 32
  let aad := ascii "SWKW" ++ leBytes 2 tenant ++ leBytes 1 part ++ leBytes 4 gen
  if rd d 0 4 != k.id then none else gcmOpen wrap (slice d 4 12) aad (slice d 16 48)

/-- Whether an install would evict a generation that a parking record names (check 4 of R383). -/
def evictsNamed (s : State) (t : Tenant) : Bool :=
  match t.keys[3]? with
  | some k => s.reqs.any fun q => q.tenant == t.id && (match q.record with | some r => r.keyGen == k.gen | none => false)
  | none => false

/-- KEY_INSTALL behind its descriptor read (R383, R462, R463). -/
def installKey (s : State) (m : Taken) (d : Bytes) : State :=
  let gen := rd m.cmd 8 4
  let x := partOf s m.ctx.part
  if !bodyZero m.cmd [(8, 4), (16, 8)] then refuse s m.ctx .invalidField
  else if s.boot.keyBar || s.boot.lock == .retired || !(x.st == .active || x.st == .draining) then refuse s m.ctx .wrongState
  else match tenantOf s m.ctx.tenant with
    | none => refuse s m.ctx .tenantUnknown
    | some t =>
      if t.part != m.ctx.part then refuse s m.ctx .tenantUnknown
      else if t.keys.any fun k => decide (gen ≤ k.gen) then refuse s m.ctx .invalidField
      else match (fnOf s m.fn).session with
        | none => refuse s m.ctx .wrongState
        | some k => match unwrapKey k t.id t.part gen d with
          | none => refuse s m.ctx .keyInvalid
          | some key =>
            if evictsNamed s t then refuse s m.ctx .busy
            else if (leaderTold s t.part (partOf s t.part).items.groupSize .key (keyKey t.id gen)).any fun b => b != kcv key then
              refuse s m.ctx .conflict
            else respond (updTenant s t.id fun u => { u with keys := ({ gen := gen, key := key, uses := 0 } :: u.keys).take 4 }) m.ctx .success []

/-- KEY_INSTALL: a new generation of a tenant's key (R383, R452). -/
def execKeyInstall (fn : Nat) (via : Via) (desc : ReadResult) (s : State) : Out :=
  msgRow s fn via (isOp 0x0031) fun s m => withDesc (rd m.cmd 16 8) 64 desc false installKey s m

/-! ### SPDM_TRANSPORT (R396, R449-R451) -/

/-- The measurement block of slot i of partition p (Table TRU-2). -/
def slotBlock (s : State) (p i : Nat) : Bytes :=
  let x := partOf s p
  match modelAt x i with
  | none => zeroBytes 72
  | some m =>
    slice m.key.weights 0 32 ++ slice m.key.program 0 32 ++ leBytes 1 (if m.key.level == .nlX1 then 1 else 2) ++
      leBytes 1 (if m.stream then 2 else 1) ++ leBytes 1 (roleVal (x.roles.getD i .spare)) ++ zeroBytes 5

/-- The package's measurement blocks (Table TRU-2). -/
def packageBlocks (s : State) : List (Nat × Bytes) :=
  let b := s.boot
  [(1, leBytes 4 b.romVersion), (2, slice b.curFw 0 32),
   (3, leBytes 4 b.svn ++ leBytes 4 b.minSvn ++ leBytes 1 b.keySlot ++ leBytes 1 b.revoked),
   (4, leBytes 1 3 ++ leBytes 1 b.ifMajor ++ leBytes 1 b.ifMinor), (5, leBytes 1 (lockVal b.lock)),
   (6, leBytes 2 (partCode s) ++ leBytes 2 0x00B0 ++ leBytes 8 s.group.id ++ leBytes 1 s.group.size ++ leBytes 1 s.group.index)]

/-- The blocks of a partition's slots. -/
def partBlocks (s : State) (p : Nat) : List (Nat × Bytes) := (List.range 4).map fun i => (0x10 + 4 * p + i, slotBlock s p i)

/-- The measurement blocks offered to a function (R450, R451). -/
def blocksFor (s : State) (fn : Nat) : List (Nat × Bytes) :=
  if fn = 0 then packageBlocks s ++ (List.range 8).flatMap (partBlocks s)
  else match boundTenant s fn with
    | some t => packageBlocks s ++ partBlocks s t.part
    | none => packageBlocks s

/-- What a request does to a function's session: a key exchange replaces it, its END_SESSION ends it (R449). -/
def spdmSession (old : Option Session) (req : Bytes) (ctr : Nat) : Option Session :=
  match Config.spdmExchange req ctr with
  | some (i, k) => some { id := i % 2 ^ 32, secret := k }
  | none => match old with
    | some x => if Config.spdmEnds req x.id x.secret then none else some x
    | none => none

/-- Whether the part answers a request: in RETIRED only GET_VERSION, code 0x84, and GET_CAPABILITIES, code 0xE1, the codes of DSP0274
(R463; log 27). -/
def spdmAnswered (s : State) (req : Bytes) : Bool := s.boot.lock != .retired || rd req 1 1 == 0x84 || rd req 1 1 == 0xE1

/-- The bytes of the response to a request (R449, R463). -/
def spdmOut (s : State) (fn : Nat) (req : Bytes) : Bytes :=
  if spdmAnswered s req then Config.spdmResponse req (blocksFor s fn) s.freeCtr else Config.spdmSilence req s.freeCtr

/-- SPDM_TRANSPORT behind the checks of R350: the request read, the response written, and the barrier behind it (R361, R396). -/
def spdm (req : ReadResult) (s : State) (m : Taken) : State :=
  let n := rd m.cmd 16 4
  let cap := rd m.cmd 20 4
  if !bodyZero m.cmd [(8, 24)] || !decide (1 ≤ n ∧ n ≤ 4096) || !decide (64 ≤ cap ∧ cap ≤ 4096) then refuse s m.ctx .invalidField
  else if (fnOf s m.fn).spdmPending then refuse s m.ctx .busy
  else match descBytes n req with
    | none => refuse s m.ctx .descFault
    | some bs =>
      let out := (spdmOut s m.fn bs).take cap
      let s := updFn { s with freeCtr := s.freeCtr + 1 } m.fn fun f =>
        { f with session := if spdmAnswered s bs then spdmSession f.session bs s.freeCtr else f.session, spdmPending := true }
      let s := issue s { fn := m.fn, kind := .output, addr := rd m.cmd 24 8, data := out }
      issueBarrier s m.fn (.output m.ctx out.length (leBytes 4 out.length))

/-- SPDM_TRANSPORT: one SPDM request and its response (R396, R449). -/
def execSpdmTransport (fn : Nat) (via : Via) (req : ReadResult) (s : State) : Out := msgRow s fn via (isOp 0x0090) (spdm req)

end Sys2Proof.Machine
end

