-- ==== Sys2Proof/Machine/Dispatch.lean ====
section
/-! DEFINITION. One arm per command: which meaning runs. -/

namespace Sys2Proof.Machine

def exec (i : Instr) (s : State) : Host.Outcome State Fault Refusal :=
  match i with
  | .queueCreate fn via => Sys2Proof.Machine.execQueueCreate fn via s
  | .queueDelete fn via => Sys2Proof.Machine.execQueueDelete fn via s
  | .partitionCreate fn via desc => Sys2Proof.Machine.execPartitionCreate fn via desc s
  | .partitionModify fn via desc => Sys2Proof.Machine.execPartitionModify fn via desc s
  | .partitionDisableDrain fn via => Sys2Proof.Machine.execPartitionDisableDrain fn via s
  | .partitionDisableAbort fn via => Sys2Proof.Machine.execPartitionDisableAbort fn via s
  | .modelLoad fn via desc => Sys2Proof.Machine.execModelLoad fn via desc s
  | .modelLoadDone p weights program => Sys2Proof.Machine.execModelLoadDone p weights program s
  | .modelUnload fn via => Sys2Proof.Machine.execModelUnload fn via s
  | .linkSetGroup fn via => Sys2Proof.Machine.execLinkSetGroup fn via s
  | .linkSetPortEnable fn via => Sys2Proof.Machine.execLinkSetPortEnable fn via s
  | .linkSetPortDisable fn via => Sys2Proof.Machine.execLinkSetPortDisable fn via s
  | .linkSetPortRetrain fn via => Sys2Proof.Machine.execLinkSetPortRetrain fn via s
  | .adapterRegister fn via => Sys2Proof.Machine.execAdapterRegister fn via s
  | .adapterRegisterDone p idx home => Sys2Proof.Machine.execAdapterRegisterDone p idx home s
  | .adapterRetireDefer fn via => Sys2Proof.Machine.execAdapterRetireDefer fn via s
  | .adapterRetireForce fn via => Sys2Proof.Machine.execAdapterRetireForce fn via s
  | .tenantSetCreate fn via => Sys2Proof.Machine.execTenantSetCreate fn via s
  | .tenantSetModify fn via => Sys2Proof.Machine.execTenantSetModify fn via s
  | .tenantSetDelete fn via => Sys2Proof.Machine.execTenantSetDelete fn via s
  | .keyInstall fn via desc => Sys2Proof.Machine.execKeyInstall fn via desc s
  | .requestSubmit fn via desc => Sys2Proof.Machine.execRequestSubmit fn via desc s
  | .requestCancel fn via => Sys2Proof.Machine.execRequestCancel fn via s
  | .convPark fn via => Sys2Proof.Machine.execConvPark fn via s
  | .convResume fn via desc => Sys2Proof.Machine.execConvResume fn via desc s
  | .convCondense fn via => Sys2Proof.Machine.execConvCondense fn via s
  | .convDrop fn via => Sys2Proof.Machine.execConvDrop fn via s
  | .capsuleExport fn via => Sys2Proof.Machine.execCapsuleExport fn via s
  | .replayStart fn via capsule => Sys2Proof.Machine.execReplayStart fn via capsule s
  | .replayStatus fn via => Sys2Proof.Machine.execReplayStatus fn via s
  | .telemetryRead fn via => Sys2Proof.Machine.execTelemetryRead fn via s
  | .accountingRead fn via => Sys2Proof.Machine.execAccountingRead fn via s
  | .pinmuxSet fn via => Sys2Proof.Machine.execPinmuxSet fn via s
  | .pinmuxArmed pin => Sys2Proof.Machine.execPinmuxArmed pin s
  | .powerLimitSet fn via => Sys2Proof.Machine.execPowerLimitSet fn via s
  | .fwActivate fn via image => Sys2Proof.Machine.execFwActivate fn via image s
  | .fwActivateQuiesced => Sys2Proof.Machine.execFwActivateQuiesced s
  | .fwActivateTimeout => Sys2Proof.Machine.execFwActivateTimeout s
  | .recover fn via => Sys2Proof.Machine.execRecover fn via s
  | .recoveryVerifyDone bad => Sys2Proof.Machine.execRecoveryVerifyDone bad s
  | .recoveryTestDone failed => Sys2Proof.Machine.execRecoveryTestDone failed s
  | .spdmTransport fn via req => Sys2Proof.Machine.execSpdmTransport fn via req s
  | .invalidOpcode fn via => Sys2Proof.Machine.execInvalidOpcode fn via s
  | .mailboxDoorbell fn value => Sys2Proof.Machine.execMailboxDoorbell fn value s
  | .sqTailWrite fn q value => Sys2Proof.Machine.execSqTailWrite fn q value s
  | .cqHeadWrite fn q value => Sys2Proof.Machine.execCqHeadWrite fn q value s
  | .sqEntryFetch fn q => Sys2Proof.Machine.execSqEntryFetch fn q s
  | .windowValidSet d => Sys2Proof.Machine.execWindowValidSet d s
  | .windowValidClear d => Sys2Proof.Machine.execWindowValidClear d s
  | .msixVectorUnmask fn v => Sys2Proof.Machine.execMsixVectorUnmask fn v s
  | .logClear value => Sys2Proof.Machine.execLogClear value s
  | .partitionReset value => Sys2Proof.Machine.execPartitionReset value s
  | .dtcLoRead fn => Sys2Proof.Machine.execDtcLoRead fn s
  | .dtcHiRead fn => Sys2Proof.Machine.execDtcHiRead fn s
  | .registerWrite fn bar offset data => Sys2Proof.Machine.execRegisterWrite fn bar offset data s
  | .smbusPointer ptr => Sys2Proof.Machine.execSmbusPointer ptr s
  | .smbusRead => Sys2Proof.Machine.execSmbusRead s
  | .jtagDebugUnlock pubkey response => Sys2Proof.Machine.execJtagDebugUnlock pubkey response s
  | .jtagExtest levels => Sys2Proof.Machine.execJtagExtest levels s
  | .pwrGoodRise => Sys2Proof.Machine.execPwrGoodRise s
  | .pllLock dir0 dir1 => Sys2Proof.Machine.execPllLock dir0 dir1 s
  | .pllLockTimeout => Sys2Proof.Machine.execPllLockTimeout s
  | .fwImageLoaded slotA slotB => Sys2Proof.Machine.execFwImageLoaded slotA slotB s
  | .hbmTrainingDone failed => Sys2Proof.Machine.execHbmTrainingDone failed s
  | .bistDone failed => Sys2Proof.Machine.execBistDone failed s
  | .katDone failed boardCfg => Sys2Proof.Machine.execKatDone failed boardCfg s
  | .stageTimeout unit => Sys2Proof.Machine.execStageTimeout unit s
  | .coldReset => Sys2Proof.Machine.execColdReset s
  | .perstNAssert => Sys2Proof.Machine.execPerstNAssert s
  | .perstNDeassert => Sys2Proof.Machine.execPerstNDeassert s
  | .pcieLinkDown => Sys2Proof.Machine.execPcieLinkDown s
  | .pcieLinkUp => Sys2Proof.Machine.execPcieLinkUp s
  | .pcieHotReset => Sys2Proof.Machine.execPcieHotReset s
  | .flrVf n => Sys2Proof.Machine.execFlrVf n s
  | .flrPf => Sys2Proof.Machine.execFlrPf s
  | .flrDmaDrained fn => Sys2Proof.Machine.execFlrDmaDrained fn s
  | .throttleNAssert => Sys2Proof.Machine.execThrottleNAssert s
  | .throttleNDeassert => Sys2Proof.Machine.execThrottleNDeassert s
  | .stepSyncArmed => Sys2Proof.Machine.execStepSyncArmed s
  | .stepSyncCandidate edge => Sys2Proof.Machine.execStepSyncCandidate edge s
  | .stepSyncMark => Sys2Proof.Machine.execStepSyncMark s
  | .stepSyncOutPulse => Sys2Proof.Machine.execStepSyncOutPulse s
  | .syncLost => Sys2Proof.Machine.execSyncLost s
  | .dtcSlew => Sys2Proof.Machine.execDtcSlew s
  | .thermalSample cd hub => Sys2Proof.Machine.execThermalSample cd hub s
  | .thermalTripClear => Sys2Proof.Machine.execThermalTripClear s
  | .vcoreRequestUpdate => Sys2Proof.Machine.execVcoreRequestUpdate s
  | .vcoreHold die => Sys2Proof.Machine.execVcoreHold die s
  | .vcoreHoldRelease die => Sys2Proof.Machine.execVcoreHoldRelease die s
  | .domainUpDone dom => Sys2Proof.Machine.execDomainUpDone dom s
  | .powerGovernorTick => Sys2Proof.Machine.execPowerGovernorTick s
  | .permitGranted req => Sys2Proof.Machine.execPermitGranted req s
  | .idleFreeze p => Sys2Proof.Machine.execIdleFreeze p s
  | .stepSyncPlan p pieces => Sys2Proof.Machine.execStepSyncPlan p pieces s
  | .stepPlace p => Sys2Proof.Machine.execStepPlace p s
  | .maMac c rows => Sys2Proof.Machine.execMaMac c rows s
  | .amMac c side base rows => Sys2Proof.Machine.execAmMac c side base rows s
  | .vuOp c work rows => Sys2Proof.Machine.execVuOp c work rows s
  | .load c => Sys2Proof.Machine.execLoad c s
  | .send c => Sys2Proof.Machine.execSend c s
  | .bind c => Sys2Proof.Machine.execBind c s
  | .semSignal c => Sys2Proof.Machine.execSemSignal c s
  | .semWait c => Sys2Proof.Machine.execSemWait c s
  | .semAcquire c => Sys2Proof.Machine.execSemAcquire c s
  | .semRelease c => Sys2Proof.Machine.execSemRelease c s
  | .routeLoad c => Sys2Proof.Machine.execRouteLoad c s
  | .cheapPoint c => Sys2Proof.Machine.execCheapPoint c s
  | .kvStage c => Sys2Proof.Machine.execKvStage c s
  | .sample c first => Sys2Proof.Machine.execSample c first s
  | .stepEnd c => Sys2Proof.Machine.execStepEnd c s
  | .twinShadow c faulty => Sys2Proof.Machine.execTwinShadow c faulty s
  | .channelDelivery c ch => Sys2Proof.Machine.execChannelDelivery c ch s
  | .probeLaunch c ch => Sys2Proof.Machine.execProbeLaunch c ch s
  | .probe c ch origin originCh hops => Sys2Proof.Machine.execProbe c ch origin originCh hops s
  | .noRetire c => Sys2Proof.Machine.execNoRetire c s
  | .stepSyncReady port p member entries => Sys2Proof.Machine.execStepSyncReady port p member entries s
  | .stepCommit p => Sys2Proof.Machine.execStepCommit p s
  | .stepSyncRelease p body => Sys2Proof.Machine.execStepSyncRelease p body s
  | .stepKill p cause => Sys2Proof.Machine.execStepKill p cause s
  | .killComplete p => Sys2Proof.Machine.execKillComplete p s
  | .stepSyncAbort p reason tag => Sys2Proof.Machine.execStepSyncAbort p reason tag s
  | .stepSyncTurn p arg => Sys2Proof.Machine.execStepSyncTurn p arg s
  | .turnPreempt p => Sys2Proof.Machine.execTurnPreempt p s
  | .shelveCheapPointClean p => Sys2Proof.Machine.execShelveCheapPointClean p s
  | .shelveDone p => Sys2Proof.Machine.execShelveDone p s
  | .shelveTimeout p => Sys2Proof.Machine.execShelveTimeout p s
  | .shelveResume p => Sys2Proof.Machine.execShelveResume p s
  | .drainTimeout p => Sys2Proof.Machine.execDrainTimeout p s
  | .ledgerClose => Sys2Proof.Machine.execLedgerClose s
  | .cidxPoll h journal => Sys2Proof.Machine.execCidxPoll h journal s
  | .cidxReadDone h journal value => Sys2Proof.Machine.execCidxReadDone h journal value s
  | .ringIrqTicks h => Sys2Proof.Machine.execRingIrqTicks h s
  | .vectorHoldoffEnd fn v => Sys2Proof.Machine.execVectorHoldoffEnd fn v s
  | .idleAction h => Sys2Proof.Machine.execIdleAction h s
  | .parkExpiry h => Sys2Proof.Machine.execParkExpiry h s
  | .parkComplete h => Sys2Proof.Machine.execParkComplete h s
  | .parkAbandon h => Sys2Proof.Machine.execParkAbandon h s
  | .resumeComplete h entry => Sys2Proof.Machine.execResumeComplete h entry s
  | .resumeFail h entry => Sys2Proof.Machine.execResumeFail h entry s
  | .dmaReadCompletion tag data => Sys2Proof.Machine.execDmaReadCompletion tag data s
  | .completionBarrierDone tag ok => Sys2Proof.Machine.execCompletionBarrierDone tag ok s
  | .adapterFetchStart p => Sys2Proof.Machine.execAdapterFetchStart p s
  | .adapterFetchDone p idx home => Sys2Proof.Machine.execAdapterFetchDone p idx home s
  | .adapterEvictionDone p idx => Sys2Proof.Machine.execAdapterEvictionDone p idx s
  | .sinterFrameSealed frame lanesEqual => Sys2Proof.Machine.execSinterFrameSealed frame lanesEqual s
  | .streamLayerSealed p slot data => Sys2Proof.Machine.execStreamLayerSealed p slot data s
  | .streamStalled p slot => Sys2Proof.Machine.execStreamStalled p slot s
  | .scrubRead frame ecc digestEqual => Sys2Proof.Machine.execScrubRead frame ecc digestEqual s
  | .hubWatchdog pair => Sys2Proof.Machine.execHubWatchdog pair s
  | .doubtContained source unit detail part => Sys2Proof.Machine.execDoubtContained source unit detail part s
  | .doubtUncontained source unit detail part => Sys2Proof.Machine.execDoubtUncontained source unit detail part s
  | .linkFlitReceived port flit fec => Sys2Proof.Machine.execLinkFlitReceived port flit fec s
  | .nakResendTimeout port => Sys2Proof.Machine.execNakResendTimeout port s
  | .ackCreditTimer port => Sys2Proof.Machine.execAckCreditTimer port s
  | .tensorWrite port m => Sys2Proof.Machine.execTensorWrite port m s
  | .placeReturn port m => Sys2Proof.Machine.execPlaceReturn port m s
  | .xpReduce port m => Sys2Proof.Machine.execXpReduce port m s
  | .semRelay port m => Sys2Proof.Machine.execSemRelay port m s
  | .mgmtForward port m desc => Sys2Proof.Machine.execMgmtForward port m desc s
  | .ident port info => Sys2Proof.Machine.execIdent port info s
  | .ping port => Sys2Proof.Machine.execPing port s
  | .echo port dtc => Sys2Proof.Machine.execEcho port dtc s
  | .steer port lane => Sys2Proof.Machine.execSteer port lane s
  | .ledger port txFlits txCredits => Sys2Proof.Machine.execLedger port txFlits txCredits s
  | .ledgerSend port => Sys2Proof.Machine.execLedgerSend port s
  | .portLost port lost seq => Sys2Proof.Machine.execPortLost port lost seq s
  | .disableReq port => Sys2Proof.Machine.execDisableReq port s
  | .disableAck port => Sys2Proof.Machine.execDisableAck port s
  | .creditReclaimReq port m => Sys2Proof.Machine.execCreditReclaimReq port m s
  | .creditReclaimAck port m => Sys2Proof.Machine.execCreditReclaimAck port m s
  | .holdReceived port => Sys2Proof.Machine.execHoldReceived port s
  | .laneFailure port lane => Sys2Proof.Machine.execLaneFailure port lane s
  | .laneRecalStart port lane => Sys2Proof.Machine.execLaneRecalStart port lane s
  | .laneRecalDone port lane good => Sys2Proof.Machine.execLaneRecalDone port lane good s
  | .portStateDone port info => Sys2Proof.Machine.execPortStateDone port info s
  | .portStateTimeout port => Sys2Proof.Machine.execPortStateTimeout port s
  | .portDown port reason => Sys2Proof.Machine.execPortDown port reason s
  | .portDisableTimeout port => Sys2Proof.Machine.execPortDisableTimeout port s
  | .candidateDiscarded => Sys2Proof.Machine.execCandidateDiscarded s
  | .peerLeavesHold port => Sys2Proof.Machine.execPeerLeavesHold port s
  | .flashPersistDone ok => Sys2Proof.Machine.execFlashPersistDone ok s

end Sys2Proof.Machine
end

