-- ==== Sys2Proof/WellFormed.lean ====
section
/-! DEFINITION. Which commands a part can be given: every unit number a command carries names a unit of the kind. -/

namespace Sys2Proof

/-- The queue of a message, if it comes by one: its number and the bound of R354. -/
def Via.units : Via → List (Nat × Nat)
  | .mailbox => []
  | .sq q => [(q, 16)]

/-- The unit numbers of a command, each with how many units of its kind there are: functions (R337), queues (R354), vectors
(R362), partitions (R266), ports and lanes (R301), clusters (R14, R205), pins (R502), dies (R14), power
domains (R405), permit requesters (R411), windows (R345) and HBM frames (R237, of which the part has `frames`). -/
def Instr.units (frames : Nat) : Instr → List (Nat × Nat)
  | .queueCreate fn _ | .queueDelete fn _ | .partitionCreate fn _ _ | .partitionModify fn _ _
  | .partitionDisableDrain fn _ | .partitionDisableAbort fn _ | .modelLoad fn _ _ | .modelUnload fn _
  | .linkSetGroup fn _ | .linkSetPortEnable fn _ | .linkSetPortDisable fn _ | .linkSetPortRetrain fn _
  | .adapterRegister fn _ | .adapterRetireDefer fn _ | .adapterRetireForce fn _ | .tenantSetCreate fn _
  | .tenantSetModify fn _ | .tenantSetDelete fn _ | .keyInstall fn _ _ | .requestSubmit fn _ _
  | .requestCancel fn _ | .convPark fn _ | .convResume fn _ _ | .convCondense fn _ | .convDrop fn _
  | .capsuleExport fn _ | .replayStart fn _ _ | .replayStatus fn _ | .telemetryRead fn _
  | .accountingRead fn _ | .pinmuxSet fn _ | .powerLimitSet fn _ | .fwActivate fn _ _ | .recover fn _
  | .spdmTransport fn _ _ | .invalidOpcode fn _ | .mailboxDoorbell fn _ | .sqEntryFetch fn _
  | .dtcLoRead fn | .dtcHiRead fn | .registerWrite fn _ _ _ | .flrDmaDrained fn => [(fn, 16)]
  | .sqTailWrite fn q _ | .cqHeadWrite fn q _ => [(fn, 16), (q, 16)]
  | .msixVectorUnmask fn v | .vectorHoldoffEnd fn v => [(fn, 16), (v, 128)]
  | .flrVf n => [(n, 16), (0, n)]
  | .modelLoadDone p _ _ | .adapterRegisterDone p _ _ | .adapterFetchStart p | .adapterFetchDone p _ _
  | .adapterEvictionDone p _ | .idleFreeze p | .stepSyncPlan p _ | .stepPlace p | .stepCommit p
  | .stepSyncRelease p _ | .stepKill p _ | .killComplete p | .stepSyncAbort p _ _ | .stepSyncTurn p _
  | .turnPreempt p | .shelveCheapPointClean p | .shelveDone p | .shelveTimeout p | .shelveResume p
  | .drainTimeout p | .streamLayerSealed p _ _ | .streamStalled p _ => [(p, 8)]
  | .stepSyncReady port p _ _ => [(port, 12), (p, 8)]
  | .portLost port lost _ => [(port, 12), (lost, 12)]
  | .maMac ⟨c, _⟩ _ | .amMac ⟨c, _⟩ _ _ _ | .vuOp ⟨c, _⟩ _ _ | .load ⟨c, _⟩ | .send c | .bind c | .semSignal c | .semWait c
  | .semAcquire c | .semRelease c | .routeLoad c | .cheapPoint c | .kvStage c | .sample c _ | .stepEnd c
  | .twinShadow c _ | .channelDelivery c _ | .probeLaunch c _ | .probe c _ _ _ _ | .noRetire c => [(c, 192)]
  | .linkFlitReceived port _ _ | .nakResendTimeout port | .ackCreditTimer port | .tensorWrite port _
  | .placeReturn port _ | .xpReduce port _ | .semRelay port _ | .mgmtForward port _ _ | .ident port _
  | .ping port | .echo port _ | .ledger port _ _ | .ledgerSend port
  | .disableReq port | .disableAck port | .creditReclaimReq port _ | .creditReclaimAck port _
  | .holdReceived port | .portStateDone port _ | .portStateTimeout port | .portDown port _
  | .portDisableTimeout port | .peerLeavesHold port => [(port, 12)]
  | .steer port ⟨lane, _, _⟩ => [(port, 12), (lane, 4)]
  | .laneFailure port ⟨lane, _⟩ | .laneRecalStart port lane | .laneRecalDone port lane _ => [(port, 12), (lane, 5)]
  | .pinmuxArmed pin => [(pin, 16)]
  | .hubWatchdog pair => [(pair, 2)]
  | .vcoreHold die | .vcoreHoldRelease die => [(die, 4)]
  | .domainUpDone dom => [(dom, 227)]
  | .permitGranted req => [(req, 639)]
  | .windowValidSet d | .windowValidClear d => [(d, 512)]
  | .sinterFrameSealed frame _ | .scrubRead frame _ _ => [(frame, frames)]
  | .fwActivateQuiesced | .fwActivateTimeout | .recoveryVerifyDone _ | .recoveryTestDone _ | .logClear _
  | .partitionReset _ | .smbusPointer _ | .smbusRead | .jtagDebugUnlock _ _ | .jtagExtest _ | .pwrGoodRise
  | .pllLock _ _ | .pllLockTimeout | .fwImageLoaded _ _ | .hbmTrainingDone _ | .bistDone _ | .katDone _ _
  | .stageTimeout _ | .coldReset | .perstNAssert | .perstNDeassert | .pcieLinkDown | .pcieLinkUp | .pcieHotReset
  | .flrPf | .throttleNAssert | .throttleNDeassert | .stepSyncArmed | .stepSyncCandidate _ | .stepSyncMark
  | .stepSyncOutPulse | .syncLost | .dtcSlew | .thermalSample _ _ | .thermalTripClear | .vcoreRequestUpdate
  | .powerGovernorTick | .ledgerClose | .cidxPoll _ _ | .cidxReadDone _ _ _ | .ringIrqTicks _ | .idleAction _
  | .parkExpiry _ | .parkComplete _ | .parkAbandon _ | .resumeComplete _ _ | .resumeFail _ _
  | .dmaReadCompletion _ _ | .completionBarrierDone _ _ | .doubtContained _ _ _ _
  | .doubtUncontained _ _ _ _ | .candidateDiscarded | .flashPersistDone _ => []

/-- Whether every unit number of a command is below its bound. -/
def Instr.unitsExist (frames : Nat) (i : Instr) : Bool := (i.units frames).all fun u => decide (u.1 < u.2)

/-- Where a command's message comes from, if it is a message row (R350). -/
def Instr.via : Instr → Option Via
  | .queueCreate _ v | .queueDelete _ v | .partitionCreate _ v _ | .partitionModify _ v _
  | .partitionDisableDrain _ v | .partitionDisableAbort _ v | .modelLoad _ v _ | .modelUnload _ v
  | .linkSetGroup _ v | .linkSetPortEnable _ v | .linkSetPortDisable _ v | .linkSetPortRetrain _ v
  | .adapterRegister _ v | .adapterRetireDefer _ v | .adapterRetireForce _ v | .tenantSetCreate _ v
  | .tenantSetModify _ v | .tenantSetDelete _ v | .keyInstall _ v _ | .requestSubmit _ v _
  | .requestCancel _ v | .convPark _ v | .convResume _ v _ | .convCondense _ v | .convDrop _ v
  | .capsuleExport _ v | .replayStart _ v _ | .replayStatus _ v | .telemetryRead _ v
  | .accountingRead _ v | .pinmuxSet _ v | .powerLimitSet _ v | .fwActivate _ v _ | .recover _ v
  | .spdmTransport _ v _ | .invalidOpcode _ v => some v
  | .modelLoadDone _ _ _ | .adapterRegisterDone _ _ _ | .fwActivateQuiesced | .fwActivateTimeout
  | .recoveryVerifyDone _ | .recoveryTestDone _ | .pinmuxArmed _ | .mailboxDoorbell _ _ | .sqTailWrite _ _ _
  | .cqHeadWrite _ _ _ | .sqEntryFetch _ _ | .windowValidSet _ | .windowValidClear _ | .msixVectorUnmask _ _
  | .logClear _ | .partitionReset _ | .dtcLoRead _ | .dtcHiRead _ | .registerWrite _ _ _ _ | .smbusPointer _
  | .smbusRead | .jtagDebugUnlock _ _ | .jtagExtest _ | .pwrGoodRise | .pllLock _ _ | .pllLockTimeout
  | .fwImageLoaded _ _ | .hbmTrainingDone _ | .bistDone _ | .katDone _ _ | .stageTimeout _ | .coldReset
  | .perstNAssert | .perstNDeassert | .pcieLinkDown | .pcieLinkUp | .pcieHotReset | .flrVf _ | .flrPf
  | .flrDmaDrained _ | .throttleNAssert | .throttleNDeassert | .stepSyncArmed | .stepSyncCandidate _
  | .stepSyncMark | .stepSyncOutPulse | .syncLost | .dtcSlew | .thermalSample _ _ | .thermalTripClear
  | .vcoreRequestUpdate | .vcoreHold _ | .vcoreHoldRelease _ | .domainUpDone _ | .powerGovernorTick
  | .permitGranted _ | .idleFreeze _ | .stepSyncPlan _ _ | .stepPlace _ | .maMac _ _ | .amMac _ _ _ _
  | .vuOp _ _ _ | .load _ | .send _ | .bind _ | .semSignal _ | .semWait _ | .semAcquire _ | .semRelease _
  | .routeLoad _ | .cheapPoint _ | .kvStage _ | .sample _ _ | .stepEnd _ | .twinShadow _ _
  | .channelDelivery _ _ | .probeLaunch _ _ | .probe _ _ _ _ _ | .noRetire _ | .stepSyncReady _ _ _ _
  | .stepCommit _ | .stepSyncRelease _ _ | .stepKill _ _ | .killComplete _ | .stepSyncAbort _ _ _
  | .stepSyncTurn _ _ | .turnPreempt _ | .shelveCheapPointClean _ | .shelveDone _ | .shelveTimeout _
  | .shelveResume _ | .drainTimeout _ | .ledgerClose | .cidxPoll _ _ | .cidxReadDone _ _ _ | .ringIrqTicks _
  | .vectorHoldoffEnd _ _ | .idleAction _ | .parkExpiry _ | .parkComplete _ | .parkAbandon _
  | .resumeComplete _ _ | .resumeFail _ _ | .dmaReadCompletion _ _ | .completionBarrierDone _ _
  | .adapterFetchStart _ | .adapterFetchDone _ _ _ | .adapterEvictionDone _ _ | .sinterFrameSealed _ _
  | .streamLayerSealed _ _ _ | .streamStalled _ _ | .scrubRead _ _ _ | .hubWatchdog _ | .doubtContained _ _ _ _
  | .doubtUncontained _ _ _ _ | .linkFlitReceived _ _ _ | .nakResendTimeout _ | .ackCreditTimer _
  | .tensorWrite _ _ | .placeReturn _ _ | .xpReduce _ _ | .semRelay _ _ | .mgmtForward _ _ _ | .ident _ _
  | .ping _ | .echo _ _ | .steer _ _ | .ledger _ _ _ | .ledgerSend _ | .portLost _ _ _ | .disableReq _
  | .disableAck _ | .creditReclaimReq _ _ | .creditReclaimAck _ _ | .holdReceived _ | .laneFailure _ _
  | .laneRecalStart _ _ | .laneRecalDone _ _ _ | .portStateDone _ _ | .portStateTimeout _ | .portDown _ _
  | .portDisableTimeout _ | .candidateDiscarded | .peerLeavesHold _ | .flashPersistDone _ => none

/-- A command a SWL-9400 can be given: its units exist, its queue is one of 16, and a register write carries 1 to 64 bytes
(R12, R486). -/
def Instr.wellFormed (i : Instr) : Bool :=
  i.unitsExist 4718592 && (match i.via with | some v => v.units.all fun u => decide (u.1 < u.2) | none => true) &&
    match i with
    | .registerWrite _ _ _ data => decide (1 ≤ data.length ∧ data.length ≤ 64)
    | _ => true

end Sys2Proof
end

