-- ==== Sys2Proof/Safety.lean ====
section
/-! DEFINITION. The terms in which statements about the part are made: which states act on commands, when a message is taken
and passes its checks, and what a step keeps. -/

namespace Sys2Proof.Machine

/-- The part acts on commands: it is not in UNCONTAINED (R436, R488). -/
def Live (s : State) : Prop := s.flt.pkg ≠ .uncontained

/-- The state once the front message of a function has been taken: it has left its slot or queue and has its ACCEPT_DTC (R350). -/
def took (s : State) (fn : Nat) (via : Via) (cmd : Bytes) : State := (takeMsg s fn via cmd).1

/-- The message as taken (R350). -/
def ask (s : State) (fn : Nat) (via : Via) (cmd : Bytes) : Taken := (takeMsg s fn via cmd).2

/-- Its context: where its response goes (R350, R351). -/
def askCtx (s : State) (fn : Nat) (via : Via) (cmd : Bytes) : MsgCtx := (takeMsg s fn via cmd).2.ctx

/-- A message waits at function fn for its turn (R350, R353, R356). -/
def Waits (s : State) (fn : Nat) (via : Via) (cmd : Bytes) : Prop :=
  fn < 16 ∧ Live s ∧ frontMsg s fn via = some cmd

/-- A message waits at function fn and passes the checks that precede every opcode's own (R350 checks 1 to 4, R477). -/
def Accepts (s : State) (fn : Nat) (via : Via) (cmd : Bytes) : Prop :=
  Waits s fn via cmd ∧ gateCode (took s fn via cmd) (ask s fn via cmd) = none

/-- Byte ranges that lie within the 4 MiB of a Cluster Store (R208, R241). -/
def InStore (rs : List (Nat × Nat)) : Prop := ∀ r ∈ rs, r.1 + r.2 ≤ 4194304

/-- Byte ranges of a rank's store that no shadow has still to read as its input (R233). -/
def NotAwaited (x : Cx) (rs : List (Nat × Nat)) : Prop := ∀ r ∈ rs, inputHeld x.att x.rank r.1 r.2 = false

/-- Command k of opcode op, at the head of its queue on cluster c, may issue now for the rank x the cluster runs: its wait tag is
satisfied, the slot is not the TWIN queue's, and a shadow it needs has room (R206, R207, R233, R293). -/
def Issues (s : State) (c op : Nat) (x : Cx) (k : QCmd) : Prop :=
  c < 192 ∧ Live s ∧ cxOf s c = some x ∧ x.cl.finished = false ∧ x.cl.atCheap = none ∧
    (x.cl.queues.getD (queueOf op) []).head? = some k ∧ k.cmd.op = op ∧ waitOk x.cl k = true ∧
    twinSlot s x.p x.cl (queueOf op) = false ∧ ¬ (shadowed x k = true ∧ 64 ≤ (clusterOf s (shadowOf x)).twinQ.length)

/-- A run is safe at a command when every unit the command names exists: then the command has a next state. -/
def Safe (s : State) (i : Instr) : Prop := i.unitsExist (nFrames s) = true

end Sys2Proof.Machine
end

