-- ==== Sys2Proof/Certificates/Slice0/Obligations.lean ====
section
/-! DEFINITION. The statements about the part, one definition each. OBLIGATIONS.json lists them with the rules they follow. -/

open Sys2Proof
open Sys2Proof.Machine

/-- A step runs the command at the front of the queue. With a command at the front of the queue, a step is that command's
meaning on the state whose queue is the rest. The queue is the model's own (log 1). -/
def Obligations.StepRunsFrontCommand : Prop :=
  ∀ (s : State) (c : Instr) (rest : List Instr), s.pending = c :: rest → step s = exec c { s with pending := rest }

/-- With nothing waiting, one DTC tick passes. With an empty queue a step is one DTC tick, which is the model's choice (log 1).
Once the root PLL is locked the DTC advances by one, modulo 2^64 (R401); each regulator whose RATE is not 0 gains RATE bytes
up to BURST and one of RATE 0 keeps its level (R287); THROTTLE_TICKS gains one while THROTTLE_N is asserted (R420),
saturating; and the no-retire clock of a cluster whose wait is excused does not run, so its start moves with the DTC (R225,
R288). While the package serves, ports whose time has come leave DISABLED (R472), the Sinter Engine writes what was handed to
it (R244, R248), drains that have come to their end complete (R298), and the members of a group are told what changed (log 24). Where
none of these is under way, and in every harmless state, nothing else of the package changes. Before the lock nothing changes
at all. -/
def Obligations.EmptyQueueIsOneTick : Prop :=
  ∀ s : State, s.pending = [] →
    (s.boot.pllLocked = false → step s = .next s) ∧
    (s.boot.pllLocked = true →
      let t := clockTick s
      (t.boot = { s.boot with dtc := (s.boot.dtc + 1) % 2 ^ 64 } ∧
        t.pins = { s.pins with throttleTicks :=
          if s.pins.throttle then min (s.pins.throttleTicks + 1) (2 ^ 64 - 1) else s.pins.throttleTicks } ∧
        t = { s with boot := t.boot, pins := t.pins, parts := t.parts, clusters := t.clusters } ∧
        t.parts.length = s.parts.length ∧ t.clusters.length = s.clusters.length ∧
        (∀ (p : Nat) (x : Part), s.parts[p]? = some x → ∃ y, t.parts[p]? = some y ∧ y = { x with levels := y.levels } ∧
          ∀ (k rate burst : Nat) (lv : Int), x.items.rates[k]? = some (rate, burst) → x.levels[k]? = some lv →
            y.levels[k]? = some (if rate = 0 then lv else min (lv + rate) burst)) ∧
        ∀ (i : Nat) (cl : Cluster), s.clusters[i]? = some cl → ∃ k, t.clusters[i]? = some { cl with lastRetire := cl.lastRetire + k } ∧
          k ≤ 1 ∧ (k = 1 ↔ ∃ x, cxOf s cl.no = some x ∧ excused s cl.no x = true)) ∧
      (s.flt.pkg ≠ .serving → step s = .next t) ∧
      (s.flt.pkg = .serving → step s = .next (announceAll ((List.range 8).foldl settleDrain (sinterTick (startPorts t))))) ∧
      ((∀ n, n < 12 → (portOf s n).startAt = none) → (∀ h, h < 8 → holds s.gov (392 + h) .sinter = false) →
        (∀ p, p < 8 → (partOf s p).disable = none ∧ spans s p = false ∧ told s s.group.index p .part 0 = none) → step s = .next t))

/-- A command stops only where a unit it names does not exist. For every command and state: where every unit number the command
carries names a unit, exec answers a next state; otherwise it faults noSuchUnit. No command is refused. That a missing unit
stops the model is its own convention (log 2). -/
def Obligations.CommandsStopOnlyOnMissingUnits : Prop :=
  ∀ (i : Instr) (s : State),
    (i.unitsExist (nFrames s) = true → ∃ t, exec i s = .next t) ∧
    (i.unitsExist (nFrames s) = false → exec i s = .fault .noSuchUnit)

/-- In UNCONTAINED no command but resets and the mailbox front end acts. In a package in UNCONTAINED, a command whose units
exist leaves the whole state as it is, unless it is a reset or a reset pin (cold reset, PERST_N, hot reset, PWR_GOOD), an
event of the boot that follows a reset (PLL lock or its timeout, the images read), the register mailbox (a DOORBELL or a
BAR0 write), PARTITION_RESET's ignored-write counter, a read of the DTC, an SMBus access or boundary scan. A read of the DTC gives 0,
which is a reading of the model (log 84). -/
def Obligations.UncontainedCommandsDoNothing : Prop :=
  ∀ (i : Instr) (s : State), s.flt.pkg = .uncontained → i.unitsExist (nFrames s) = true →
    exec i s = .next s ∨
    i ∈ [Instr.coldReset, .perstNAssert, .perstNDeassert, .pcieHotReset, .pwrGoodRise, .pllLockTimeout, .smbusRead] ∨
    (∃ a b, i = .pllLock a b) ∨ (∃ a b, i = .fwImageLoaded a b) ∨
    (∃ fn v, i = .mailboxDoorbell fn v) ∨ (∃ fn off bs, i = .registerWrite fn .bar0 off bs) ∨
    (∃ v, i = .partitionReset v) ∨ (∃ v, i = .smbusPointer v) ∨ (∃ ls, i = .jtagExtest ls) ∨
    (∃ fn, (i = .dtcLoRead fn ∨ i = .dtcHiRead fn) ∧ exec i s = .next { s with host := { s.host with readData := 0 } })

/-- Only a reset takes a package out of UNCONTAINED. From any state in UNCONTAINED, a step whose front command is not a cold
reset, PERST_N asserted or a hot reset leaves the package in UNCONTAINED; nothing new is on the bus or held for it, and no
DMA read or barrier is issued. A tick with an empty queue does so too. -/
def Obligations.OnlyResetLeavesUncontained : Prop :=
  ∀ s t : State, s.flt.pkg = .uncontained → step s = .next t →
    (∃ c rest, s.pending = c :: rest ∧ c ∈ [Instr.coldReset, .perstNAssert, .pcieHotReset]) ∨
    (t.flt.pkg = .uncontained ∧ t.host.bus = s.host.bus ∧ t.host.held = s.host.held ∧ t.host.reads = s.host.reads ∧
      t.host.barriers = s.host.barriers)

/-- A DOORBELL write sets SEQ and BUSY; a busy mailbox drops writes and sets OVERRUN. R353: for an enabled function not in
reset, a DOORBELL write while STATE is IDLE or DONE copies DOORBELL[15:0] into SEQ, sets STATE to BUSY and leaves the
message to firmware; in UNCONTAINED and after a boot failure the front end answers it DEVICE_QUARANTINED at once (R436,
R477). A write to CMD or DOORBELL while STATE is BUSY is dropped and sets OVERRUN. Nothing else changes. A disabled
function, or one in reset, takes no doorbell (R346, R366). These complete: MAILBOX_DOORBELL, REGISTER_WRITE. -/
def Obligations.DoorbellPassesTheCmdSlot : Prop :=
  ∀ (s : State) (fn value : Nat), fn < 16 →
    ((fnEnabled s fn = false ∨ (fnOf s fn).flr ≠ none) → exec (.mailboxDoorbell fn value) s = .next s) ∧
    (fnEnabled s fn = true → (fnOf s fn).flr = none → (fnOf s fn).mbox.st = .busy →
      exec (.mailboxDoorbell fn value) s = .next (updFn s fn fun f => { f with mbox := { f.mbox with overrun := true } }) ∧
      ∀ (off : Nat) (bs : Bytes), (bar0Bases fn).1 ≤ off → off + bs.length ≤ (bar0Bases fn).1 + 0x40 → off % 4 = 0 →
        bs.length % 4 = 0 → 4 ≤ bs.length →
        exec (.registerWrite fn .bar0 off bs) s = .next (updFn s fn fun f => { f with mbox := { f.mbox with overrun := true } })) ∧
    (fnEnabled s fn = true → (fnOf s fn).flr = none → (fnOf s fn).mbox.st ≠ .busy →
      let u := updFn s fn fun f => { f with mbox := { f.mbox with seq := value % 65536, st := .busy, taken := false } }
      (Live s → bootFailed s.boot.stage = false → exec (.mailboxDoorbell fn value) s = .next u) ∧
      (¬ Live s ∨ bootFailed s.boot.stage = true →
        exec (.mailboxDoorbell fn value) s = .next (refuse u (ctxOf (.mbox fn) (fnOf s fn).mbox.cmd 0) .deviceQuarantined)))

/-- SQ_TAIL and CQ_HEAD writes are kept or counted. R355: SQ_TAIL[q] lies at offset 8q and CQ_HEAD[q] at 8q + 4 of the doorbell
page, so a 4-byte write there is the write of that count. A written SQ_TAIL that neither moves backward nor lies more than
2^LOG2 entries ahead of the SQ's head becomes the tail; any other is ignored and counted, the previous value staying.
CQ_HEAD follows the same rule against the CQ's PIDX. Counts are free-running modulo 2^32, so distances are taken modulo
2^32. These complete: SQ_TAIL_WRITE, CQ_HEAD_WRITE. -/
def Obligations.DoorbellPageValidity : Prop :=
  ∀ (s : State) (fn q value : Nat), fn < 16 → q < 16 → Live s → fnEnabled s fn = true → (fnOf s fn).flr = none →
    (∀ x, sqOf s fn q = some x →
      let ahead := (value % 2 ^ 32 + (2 ^ 32 - x.head % 2 ^ 32)) % 2 ^ 32
      let before := (x.tail % 2 ^ 32 + (2 ^ 32 - x.head % 2 ^ 32)) % 2 ^ 32
      exec (.sqTailWrite fn q value) s = .next (
        if ahead ≤ 2 ^ x.log2 ∧ before ≤ ahead then updSq s fn q fun y => { y with tail := value % 2 ^ 32 }
        else { s with host := { s.host with sqTailInvalid := satAdd 64 s.host.sqTailInvalid 1 } })) ∧
    (∀ x, cqOf s fn q = some x →
      let ahead := (value % 2 ^ 32 + (2 ^ 32 - x.head % 2 ^ 32)) % 2 ^ 32
      let written := (x.pidx % 2 ^ 32 + (2 ^ 32 - x.head % 2 ^ 32)) % 2 ^ 32
      exec (.cqHeadWrite fn q value) s = .next (
        if ahead ≤ written then updCq s fn q fun y => { y with head := value % 2 ^ 32 }
        else { s with host := { s.host with cqHeadInvalid := satAdd 64 s.host.cqHeadInvalid 1 } })) ∧
    (∀ bs : Bytes, bs.length = 4 →
      exec (.registerWrite fn .bar0 ((bar0Bases fn).2.1 + 8 * q) bs) s = exec (.sqTailWrite fn q (leNat bs)) s ∧
      exec (.registerWrite fn .bar0 ((bar0Bases fn).2.1 + 8 * q + 4) bs) s = exec (.cqHeadWrite fn q (leNat bs)) s)

/-- An SQ entry is fetched once a completion slot is reserved, and joins the entries fetched. R356, R358, R339: while reads may
be issued and firmware serves, an announced entry of an SQ that is not stopped and has no fetch out is read once the CQ has
a free slot that is not reserved: the slot is reserved, and one DMA read is issued under a new tag. When the read returns
bytes, SQ_HEAD advances by one and the first 64 bytes join the fetched entries behind the others; a failed read is issued
again up to twice, after which the SQ stops. A DMA read that carried a CIDX value hands it to its ring or journal. In each
case the read is no longer in flight. These complete: SQ_ENTRY_FETCH, DMA_READ_COMPLETION. -/
def Obligations.SqEntriesAreFetchedInOrder : Prop :=
  (∀ (s : State) (fn q : Nat) (x : Sq) (c : Cq), fn < 16 → Live s → sqOf s fn q = some x → cqOf s fn x.cqid = some c →
    mayRead s fn = true → fwServes s = true → x.stopped = false → x.fetching = 0 → x.head % 2 ^ 32 ≠ x.tail →
    c.reserved < 2 ^ c.log2 - (c.pidx % 2 ^ 32 + (2 ^ 32 - c.head % 2 ^ 32)) % 2 ^ 32 →
    ∃ t, exec (.sqEntryFetch fn q) s = .next t ∧ t = { s with host := t.host } ∧
      t.host.reads = s.host.reads ++ [{ tag := s.host.nextTag, fn := fn, why := .sqEntry fn q 0 }] ∧
      t.host.nextTag = s.host.nextTag + 1 ∧
      t.host.fns = (updSq (updCq s fn x.cqid fun y => { y with reserved := y.reserved + 1 }) fn q fun y => { y with fetching := 1 }).host.fns) ∧
  ∀ (s : State) (r : DmaRead), Live s → s.host.reads.find? (fun y => y.tag == r.tag) = some r →
    let u : State := { s with host := { s.host with reads := s.host.reads.filter fun y => y.tag != r.tag } }
    (∀ fn q n bs x, r.why = .sqEntry fn q n → sqOf s fn q = some x →
      exec (.dmaReadCompletion r.tag (some bs)) s = .next (updSq u fn q fun y =>
        { y with fetching := 0, head := (y.head + 1) % 2 ^ 32, fetched := y.fetched ++ [slice bs 0 64] })) ∧
    (∀ fn q n x, r.why = .sqEntry fn q n → sqOf s fn q = some x →
      exec (.dmaReadCompletion r.tag none) s = .next (if n < 2 then issueRead u fn (.sqEntry fn q (n + 1)) else stopSq u fn q)) ∧
    (∀ h j bs, r.why = .cidx h j → exec (.dmaReadCompletion r.tag (some bs)) s = .next (cidxValue u h j (rd bs 0 4))) ∧
    (∀ h j, r.why = .cidx h j → exec (.dmaReadCompletion r.tag none) s = .next u)

/-- QUEUE_CREATE and QUEUE_DELETE. R354, Table HST-9: a QUEUE_CREATE whose reserved fields are zero, with LOG2 of 4 to 12, BASE
aligned to 4 KiB, QID 0 to 15 not in use for its kind, and for an SQ an existing CQ, for a CQ CTRL_ADDR aligned to 64 B and
VECTOR 1 to 127 or 0xFFFF, adds exactly that queue, empty, to the sending function and completes SUCCESS. A QUEUE_DELETE of
an SQ removes it with its untaken entries and its read in flight, and frees the CQ slots reserved for them; on the SQ it
came by it is BUSY. A CQ that no SQ is bound to and in which nothing is reserved is removed; otherwise BUSY. These complete:
QUEUE_CREATE, QUEUE_DELETE. -/
def Obligations.QueuesAreMadeAndDeleted : Prop :=
  ∀ (s : State) (fn : Nat) (via : Via) (cmd : Bytes), Accepts s fn via cmd →
    let u := took s fn via cmd
    let c := askCtx s fn via cmd
    let qid := rd cmd 9 1
    (rd cmd 0 2 = 0x0001 → rd cmd 8 1 = 1 → qid < 16 → 4 ≤ rd cmd 10 1 → rd cmd 10 1 ≤ 12 → rd cmd 16 8 % 4096 = 0 →
      bodyZero cmd [(8, 4), (16, 8)] = true → (cqOf u fn (rd cmd 11 1)).isSome → sqOf u fn qid = none →
      exec (.queueCreate fn via) s = .next (respond (updFn u fn fun f =>
        { f with sqs := insertBy (·.qid) { qid := qid, base := rd cmd 16 8, log2 := rd cmd 10 1, cqid := rd cmd 11 1, tail := 0, head := 0, fetching := 0, fetched := [], stopped := false } f.sqs }) c .success [])) ∧
    (rd cmd 0 2 = 0x0001 → rd cmd 8 1 = 2 → qid < 16 → 4 ≤ rd cmd 10 1 → rd cmd 10 1 ≤ 12 → rd cmd 16 8 % 4096 = 0 →
      rd cmd 24 8 % 64 = 0 → (1 ≤ rd cmd 12 2 ∧ rd cmd 12 2 ≤ 127 ∨ rd cmd 12 2 = 0xFFFF) →
      bodyZero cmd [(8, 3), (12, 2), (16, 16)] = true → cqOf u fn qid = none →
      exec (.queueCreate fn via) s = .next (respond (updFn u fn fun f =>
        { f with cqs := insertBy (·.qid) { qid := qid, base := rd cmd 16 8, log2 := rd cmd 10 1, ctrl := rd cmd 24 8, vector := rd cmd 12 2, pidx := 0, head := 0, reserved := 0 } f.cqs }) c .success [])) ∧
    (rd cmd 0 2 = 0x0002 → bodyZero cmd [(8, 2)] = true → rd cmd 8 1 = 1 → ∀ x, sqOf u fn qid = some x →
      (via = .sq qid → exec (.queueDelete fn via) s = .next (respond u c .busy [])) ∧
      (via ≠ .sq qid →
        let d : State := { u with host := { u.host with reads := u.host.reads.filter fun r => !readsSq fn x.qid r } }
        exec (.queueDelete fn via) s = .next (respond (updFn (updCq d fn x.cqid fun k => { k with reserved := k.reserved - (x.fetching + x.fetched.length) }) fn fun f =>
          { f with sqs := f.sqs.filter fun y => y.qid != x.qid }) c .success []))) ∧
    (rd cmd 0 2 = 0x0002 → bodyZero cmd [(8, 2)] = true → rd cmd 8 1 = 2 → ∀ x, cqOf u fn qid = some x →
      (0 < x.reserved ∨ (∃ y ∈ (fnOf u fn).sqs, y.cqid = qid) → exec (.queueDelete fn via) s = .next (respond u c .busy [])) ∧
      (x.reserved = 0 → (∀ y ∈ (fnOf u fn).sqs, y.cqid ≠ qid) →
        exec (.queueDelete fn via) s = .next (respond (updFn u fn fun f => { f with cqs := f.cqs.filter fun y => y.qid != qid }) c .success [])))

/-- A taken message is stamped, checked in order, and rejected without effect. R350: taking a message changes nothing but its
slot or queue, the function served last (R356) and the last acceptance stamp, which is the DTC or one above the last one given,
so stamps strictly increase. One message stands at the front at a time: of the functions with a message waiting, the next after
the one served last, and of its own places the mailbox first. An unknown opcode completes INVALID_OPCODE, whatever else the message
holds. For each message command, a waiting message of that command's opcode, and of its sub-operation where several commands share
one opcode, that fails one of the checks common to all messages completes with that check's code and has no other effect. A
REPLAY_START waits first for the DMA regulator of the partition it names (R287). Which of the commands of one opcode takes a message
of an unknown sub-operation is the model's choice (log 2). These complete: INVALID_OPCODE. -/
def Obligations.MessagesPassTheirChecksInOrder : Prop :=
  ∀ (s : State) (fn : Nat) (via : Via) (cmd : Bytes), Waits s fn via cmd →
    let u := took s fn via cmd
    let c := askCtx s fn via cmd
    (u = { s with host := u.host } ∧ c.accept = max s.boot.dtc (s.host.lastAccept + 1) ∧ u.host.lastAccept = c.accept ∧
      s.host.lastAccept < c.accept ∧ u.host = { s.host with lastAccept := c.accept, lastFn := some fn, fns := u.host.fns } ∧
      (∀ fn2 via2 cmd2, frontMsg s fn2 via2 = some cmd2 → fn2 = fn ∧ via2 = via ∧ cmd2 = cmd)) ∧
    (classOf (rd cmd 0 2) = none → exec (.invalidOpcode fn via) s = .next (respond u c .invalidOpcode [])) ∧
    (∀ code, gateCode u (ask s fn via cmd) = some code → ∀ (i : Instr) (d : ReadResult),
      let op := rd cmd 0 2
      let sub := rd cmd 8 1
      let act := rd cmd 9 1
      let tOp := rd cmd 10 1
      ((op, i) ∈ [(0x0001, Instr.queueCreate fn via), (0x0002, .queueDelete fn via), (0x0012, .modelLoad fn via d),
          (0x0013, .modelUnload fn via), (0x0020, .adapterRegister fn via), (0x0031, .keyInstall fn via d),
          (0x0040, .requestSubmit fn via d), (0x0041, .requestCancel fn via), (0x0050, .convPark fn via),
          (0x0051, .convResume fn via d), (0x0052, .convCondense fn via), (0x0053, .convDrop fn via),
          (0x0060, .capsuleExport fn via), (0x0062, .replayStatus fn via), (0x0070, .telemetryRead fn via),
          (0x0071, .accountingRead fn via), (0x0080, .pinmuxSet fn via), (0x0081, .powerLimitSet fn via),
          (0x0082, .fwActivate fn via d), (0x0083, .recover fn via), (0x0090, .spdmTransport fn via d)] ∨
        (op = 0x0010 ∧ i = if bit (rd cmd 16 4) 0 = true then .partitionModify fn via d else .partitionCreate fn via d) ∨
        (op = 0x0011 ∧ i = if sub = 2 then .partitionDisableAbort fn via else .partitionDisableDrain fn via) ∨
        (op = 0x0014 ∧ i = if sub ≠ 2 then .linkSetGroup fn via else if act = 2 then .linkSetPortDisable fn via
          else if act = 3 then .linkSetPortRetrain fn via else .linkSetPortEnable fn via) ∨
        (op = 0x0021 ∧ i = if tOp = 2 then .adapterRetireForce fn via else .adapterRetireDefer fn via) ∨
        (op = 0x0030 ∧ i = if tOp = 2 then .tenantSetModify fn via else if tOp = 3 then .tenantSetDelete fn via
          else .tenantSetCreate fn via) ∨
        (op = 0x0061 ∧ mayStart (partOf s (rd cmd 6 1)) 3 = true ∧ i = .replayStart fn via d)) →
      exec i s = .next (respond u c code []))

/-- A completed message's response goes where the message came from. R351, R353, R356, R357: a mailbox response is written to
RSP, STATE becomes DONE, and vector 0 of the function is signalled. A completion entry goes to slot PIDX mod 2^LOG2 of the
SQ's CQ, with PHASE ((i >> LOG2) and 1) xor 1; then PIDX is written, the reserved slot is free again, and the CQ's vector is
signalled. In either case only the host side of the package changes. A function in reset gets no response (R364). -/
def Obligations.ResponsesReachTheirSender : Prop :=
  ∀ (s : State) (c : MsgCtx) (code : Code) (body : Bytes) (fn : Nat),
    (c.origin = .mbox fn → respond s c code body = if (fnOf s fn).flr.isSome then s else
      signal (updFn s fn fun f => { f with
        mbox := { f.mbox with rsp := respBytes c (codeVal code) 0xFF 0 0 body, st := .done, taken := false }, causeMbox := true }) fn 0) ∧
    (∀ q cq k x, c.origin = .queue fn q cq → s.flt.pkg = .serving → (fnOf s fn).flr = none → cqOf s fn cq = some k →
      sqOf s fn q = some x →
      let phase := (k.pidx / 2 ^ k.log2 + 1) % 2
      let entry : BusWrite := { fn := fn, kind := .cqEntry, addr := k.base + 64 * (k.pidx % 2 ^ k.log2), data := respBytes c (codeVal code) q phase (x.head % 2 ^ 32) body }
      let index : BusWrite := { fn := fn, kind := .cqPidx, addr := k.ctrl, data := leBytes 4 ((k.pidx + 1) % 2 ^ 32) }
      respond s c code body = signal (updCq (issue (issue s entry) index) fn cq fun y =>
        { y with pidx := (k.pidx + 1) % 2 ^ 32, reserved := y.reserved - 1 }) fn k.vector) ∧
    (∀ q cq, c.origin = .queue fn q cq → (fnOf s fn).flr.isSome = true → respond s c code body = s) ∧
    (∀ q cq, c.origin = .mbox fn ∨ c.origin = .queue fn q cq →
      respond s c code body = { s with host := (respond s c code body).host })

/-- A pending vector is sent once it is unmasked and no holdoff runs. R362, R363: a signal sets a vector pending; a vector that
is pending, unmasked and without a running holdoff sends its MSI-X message, which clears pending and starts a holdoff of
HOLDOFF ticks. Unmasking a vector, and the end of its holdoff, send a message that is still pending. While the package is in
a harmless state only vector 0 sends (R428). Nothing but the function's vector and the bus changes. These complete:
MSIX_VECTOR_UNMASK, VECTOR_HOLDOFF_END. -/
def Obligations.VectorsSendOnceUnmasked : Prop :=
  ∀ (s : State) (fn v : Nat), fn < 16 → v < 128 → Live s →
    let open_ := updVec s fn v fun x => { x with masked := false }
    let over_ := updVec s fn v fun x => { x with running := none }
    let sends := fun (u : State) => (vecOf u fn v).pending = true ∧ (vecOf u fn v).masked = false ∧ (vecOf u fn v).running = none ∧
      (v = 0 ∨ s.flt.pkg = .serving)
    let ready := fun (u : State) (y : Vec) =>
      updVec (issue u { fn := fn, kind := .msix, addr := y.addr, data := leBytes 4 y.data }) fn v fun z =>
        { z with pending := false, running := if z.holdoff = 0 then none else some (s.boot.dtc + z.holdoff) }
    (sends open_ → exec (.msixVectorUnmask fn v) s = .next (ready open_ (vecOf open_ fn v))) ∧
    (¬ sends open_ → exec (.msixVectorUnmask fn v) s = .next open_) ∧
    (∀ t, (vecOf s fn v).running = some t → t ≤ s.boot.dtc →
      (sends over_ → exec (.vectorHoldoffEnd fn v) s = .next (ready over_ (vecOf over_ fn v))) ∧
      (¬ sends over_ → exec (.vectorHoldoffEnd fn v) s = .next over_)) ∧
    let sig := updVec s fn v fun x => { x with pending := true }
    (sends sig → signal s fn v = ready sig (vecOf sig fn v)) ∧ (¬ sends sig → signal s fn v = sig)

/-- VALID is set only for a sound descriptor, and cleared at will. R345 to R347: setting VALID of a descriptor whose fields are
in range and aligned, whose owner is the PF or an enabled VF, and which is the only valid PARK window of its partition if it
is one, sets VALID and clears ERROR; otherwise VALID stays 0 and ERROR is set. Clearing VALID leaves the accesses already
issued outstanding, so BUSY stays 1 until they complete. A descriptor that is valid stays as it is when VALID is set again.
Nothing but that descriptor changes. These complete: WINDOW_VALID_SET, WINDOW_VALID_CLEAR. -/
def Obligations.WindowsAreValidatedAndCleared : Prop :=
  ∀ (s : State) (d : Nat), d < 512 → Live s →
    let w := winOf s d
    let page := 2 ^ w.pageLog2
    let sound := (w.pageLog2 = 12 ∨ w.pageLog2 = 16 ∨ w.pageLog2 = 21 ∨ w.pageLog2 = 30) ∧ w.table % 4096 = 0 ∧
      page ≤ w.length ∧ w.length ≤ 2 ^ 36 ∧ w.length % page = 0 ∧ w.owner ≤ s.host.vfs ∧ w.owner < 16 ∧ w.use < 8 ∧
      ¬ (w.use / 4 % 2 = 1 ∧ ∃ v ∈ s.host.wins, v.d ≠ w.d ∧ v.d / 64 = w.d / 64 ∧ v.valid = true ∧ v.use / 4 % 2 = 1)
    (w.valid = true → exec (.windowValidSet d) s = .next s) ∧
    (w.valid = false → sound → exec (.windowValidSet d) s = .next (putWin s { w with valid := true, error := false })) ∧
    (w.valid = false → ¬ sound → exec (.windowValidSet d) s = .next (putWin s { w with error := true })) ∧
    exec (.windowValidClear d) s = .next (putWin s { w with valid := false })

/-- LOG_CLEAR, and the DTC reads with their shadow. R496: a write of LOG_CLEAR with the key 0xFA17 in its upper half while
SERVING empties the fault log and sets LOG_CLEARED_AT to LOG_COUNT, which stays; any other is ignored. R499: a 4-byte read
of DTC_LO returns DTC bits [31:0] and latches bits [63:32] for the reading function; its next read of DTC_HI returns the
latched value and empties the latch, and with an empty latch DTC_HI returns the live bits. An 8-byte read returns the DTC
whole, which is the two words of one state. No other function's latch changes. These complete: LOG_CLEAR, DTC_LO_READ,
DTC_HI_READ. -/
def Obligations.FaultLogAndDtcRegisters : Prop :=
  ∀ (s : State), Live s →
    (∀ value, exec (.logClear value) s = .next (
      if value / 65536 % 65536 = 0xFA17 ∧ s.flt.pkg = .serving then { s with flt := { s.flt with log := [], logClearedAt := s.flt.logCount } }
      else s)) ∧
    ∀ fn, fn < 16 → fn < s.host.fns.length →
      (∃ t, exec (.dtcLoRead fn) s = .next t ∧ t.host.readData = s.boot.dtc % 2 ^ 32 ∧
        (fnOf t fn).shadow = some (s.boot.dtc / 2 ^ 32 % 2 ^ 32) ∧ t.host.readData + 2 ^ 32 * (s.boot.dtc / 2 ^ 32) = s.boot.dtc ∧
        (∀ n, n ≠ fn → fnOf t n = fnOf s n) ∧ fnOf t fn = { fnOf s fn with shadow := (fnOf t fn).shadow } ∧
        t = { s with host := { s.host with fns := t.host.fns, readData := t.host.readData } }) ∧
      (∃ t, exec (.dtcHiRead fn) s = .next t ∧
        t.host.readData = (match (fnOf s fn).shadow with | some x => x | none => s.boot.dtc / 2 ^ 32 % 2 ^ 32) ∧
        (fnOf t fn).shadow = none ∧ (∀ n, n ≠ fn → fnOf t n = fnOf s n) ∧
        fnOf t fn = { fnOf s fn with shadow := none } ∧
        t = { s with host := { s.host with fns := t.host.fns, readData := t.host.readData } })

/-- A BAR write acts on the register it meets and on nothing else. R339, R346, R352, R486, R487: bytes written into a CMD slot
that is not BUSY replace the slot's bytes at that offset. A write of 1 to bit 2 of STATUS clears OVERRUN. A write outside
the CMD slot that is neither 4 nor 8 bytes long changes nothing (R339). Descriptor fields are written while VALID is 0 and
keep their values while it is 1; bit 0 of CTRL sets or clears VALID. HOLDOFF takes the low 16 bits. VF Enable set to n takes
the VFs above n through the start of an FLR and leaves VFs 1 to n enabled (log 8). These complete: REGISTER_WRITE. -/
def Obligations.RegisterWritesReachTheirField : Prop :=
  ∀ (s : State) (fn : Nat), fn < 16 → Live s → fnEnabled s fn = true → (fnOf s fn).flr = none →
    let bases := bar0Bases fn
    (∀ off bs, (fnOf s fn).mbox.st ≠ .busy → off + bs.length ≤ 0x40 → off % 4 = 0 → bs.length % 4 = 0 → 4 ≤ bs.length →
      exec (.registerWrite fn .bar0 (bases.1 + off) bs) s =
        .next (updFn s fn fun f => { f with mbox := { f.mbox with cmd := patch f.mbox.cmd off bs } })) ∧
    (∀ bs, bs.length = 4 → leNat bs / 4 % 2 = 1 →
      exec (.registerWrite fn .bar0 (bases.1 + 0x84) bs) s = .next (updFn s fn fun f => { f with mbox := { f.mbox with overrun := false } })) ∧
    (∀ bs, bs.length = 4 → exec (.registerWrite fn .bar0 (bases.1 + 0x80) bs) s = exec (.mailboxDoorbell fn (leNat bs)) s) ∧
    (∀ off bs, bs.length ≠ 4 → bs.length ≠ 8 → bases.1 + 0x40 ≤ off → exec (.registerWrite fn .bar0 off bs) s = .next s) ∧
    (∀ v bs, v < 128 → bs.length = 4 → exec (.registerWrite fn .bar0 (bases.2.2 + 0xC00 + 4 * v) bs) s =
      .next (updVec s fn v fun x => { x with holdoff := leNat bs % 65536 })) ∧
    (fn = 0 → ∀ d bs, d < 512 → bs.length = 4 →
      exec (.registerWrite 0 .bar2 (64 * d + 20) bs) s = exec (if leNat bs % 2 = 1 then .windowValidSet d else .windowValidClear d) s ∧
      ((winOf s d).valid = true → ∀ off, off < 20 → off % 4 = 0 →
        exec (.registerWrite 0 .bar2 (64 * d + off) bs) s = .next (putWin s (winOf s d))) ∧
      ((winOf s d).valid = false → ∀ off, off = 0 ∨ off = 4 →
        exec (.registerWrite 0 .bar2 (64 * d + off) bs) s =
          .next (putWin s { winOf s d with table := leNat (patch (leBytes 8 (winOf s d).table) off bs) }) ∧
        exec (.registerWrite 0 .bar2 (64 * d + 8 + off) bs) s =
          .next (putWin s { winOf s d with length := leNat (patch (leBytes 8 (winOf s d).length) off bs) })) ∧
      ((winOf s d).valid = false → exec (.registerWrite 0 .bar2 (64 * d + 16) bs) s = .next (putWin s { winOf s d with
        pageLog2 := leNat bs % 256, owner := leNat bs / 256 % 256, use := leNat bs / 65536 % 256 }))) ∧
    (fn = 0 → ∀ n, n < 16 →
      let u := ((List.range 16).filter fun i => decide (n < i)).foldl flrStart s
      exec (.registerWrite 0 .cfg 0 (leBytes 2 n)) s = .next { u with host := { u.host with vfs := n } })

/-- The SMBus pointer is set, and a block read advances it by 32. R513: from PWR_GOOD on, in every package state, POINTER sets a
24-bit pointer and READ returns 32 bytes from it and advances it by 32; before PWR_GOOD neither does anything. Nothing else
in the part changes. These complete: SMBUS_POINTER, SMBUS_READ. -/
def Obligations.SmbusServesFromPowerGood : Prop :=
  ∀ (s : State) (ptr : Nat),
    (s.boot.pwrGood = false → exec (.smbusPointer ptr) s = .next s ∧ exec .smbusRead s = .next s) ∧
    (s.boot.pwrGood = true →
      exec (.smbusPointer ptr) s = .next { s with host := { s.host with smbPtr := ptr % 2 ^ 24 } } ∧
      ∃ t, exec .smbusRead s = .next t ∧ t = { s with host := { s.host with smbData := t.host.smbData, smbPtr := t.host.smbPtr } } ∧
        t.host.smbPtr = (s.host.smbPtr + 32) % 2 ^ 24 ∧ t.host.smbData.length = 32 ∧
        (s.host.smbPtr = 0 → (t.host.smbData.take 4) = leBytes 4 ((match s.boot.part with | .swl9400 => 0x9400 | .swl9300 => 0x9300) * 65536 + 0xB0)))

/-- A consumer index is read when space is low, and used only if it is valid. R169: a poll for a live request's own ring, with
fewer than 4 free slots and no read of it out, issues one DMA read for it. R166: a returned CIDX that leaves at most
2^RING_LOG2 records unread and does not move backward is taken over; any other is counted as a ring-protocol error of the
request and its tenant, and the last valid value stays. A failed read changes nothing but that it is out no more. R171:
IRQ_TICKS after the first record since the last interrupt the pending count returns to 0 and the ring's vector is signalled. These
complete: CIDX_POLL, CIDX_READ_DONE, RING_IRQ_TICKS. -/
def Obligations.CidxIsValidatedBeforeUse : Prop :=
  ∀ (s : State) (h : Nat) (q : Req), Live s → reqOf s h = some q → q.outcome = none →
    (q.ownsRing = true → q.replay = none → mayRead s q.fn = true → recFree q < 4 →
      (∀ r ∈ s.host.reads, r.why ≠ .cidx h false) → exec (.cidxPoll h false) s = .next (issueRead s q.fn (.cidx h false))) ∧
    (let u : State := { s with host := { s.host with reads := s.host.reads.filter fun r => r.why != .cidx h false } };
      exec (.cidxReadDone h false none) s = .next u ∧
      ∀ v, v < 2 ^ 32 →
        let unread := (q.ring.pidx + (2 ^ 32 - v)) % 2 ^ 32
        let step_ := (v + (2 ^ 32 - q.ring.cidx % 2 ^ 32)) % 2 ^ 32
        let behind := (q.ring.pidx + (2 ^ 32 - q.ring.cidx % 2 ^ 32)) % 2 ^ 32
        (unread ≤ 2 ^ q.ring.log2 → step_ ≤ behind → ∃ t, exec (.cidxReadDone h false (some v)) s = .next t ∧
          t = { u with reqs := t.reqs, parts := t.parts } ∧
          t.reqs = (updReq u h fun x => { x with ring := { x.ring with cidx := v } }).reqs ∧
          ∀ p, p ≠ q.part → partOf t p = partOf s p) ∧
        (¬ (unread ≤ 2 ^ q.ring.log2 ∧ step_ ≤ behind) → exec (.cidxReadDone h false (some v)) s =
          .next (updTenant (updReq u h fun x => { x with ringErrs := satAdd 64 x.ringErrs 1 }) q.tenant fun t =>
            { t with ringErrs := satAdd 64 t.ringErrs 1 }))) ∧
    (q.irqTicks ≠ 0 → 0 < q.irqPend → q.irqFirst + q.irqTicks ≤ s.boot.dtc → q.ownsRing = true → q.vector < 128 →
      exec (.ringIrqTicks h) s = .next (signal (updReq s h fun x => { x with irqPend := 0 }) q.fn q.vector))

/-- A completion barrier releases what waits for it. R361: when a barrier's read returns, the barrier is out no more. A message
that wrote an output buffer then completes SUCCESS, or DESC_FAULT if the read failed, and for SPDM_TRANSPORT (0x0090) the function's
attestation request is pending no more; a park notes that its writes have
arrived, or counts a failed write of its last part and, up to twice, writes it again (R144). The last barrier of a contained
quarantine stops DMA and takes the package to QUARANTINED, whether it completes or fails (R428 item 6), where the partition
resets that waited for it begin (R481). These complete: COMPLETION_BARRIER_DONE. -/
def Obligations.BarriersReleaseWhatWaits : Prop :=
  ∀ (s : State) (b : Barrier), Live s → s.host.barriers.find? (fun x => x.tag == b.tag) = some b →
    let u : State := { s with host := { s.host with barriers := s.host.barriers.filter fun x => x.tag != b.tag } }
    (∀ c w body ok, b.why = .output c w body →
      (c.opcode ≠ 0x0090 → exec (.completionBarrierDone b.tag ok) s = .next (respond u c (if ok then .success else .descFault) body)) ∧
      (c.opcode = 0x0090 → exec (.completionBarrierDone b.tag ok) s =
        .next (respond (updFn u b.fn fun f => { f with spdmPending := false }) c (if ok then .success else .descFault) body))) ∧
    (∀ ok, b.why = .quarantine → s.flt.pkg = .entering → (∀ x ∈ u.host.barriers, x.why ≠ .quarantine) →
      exec (.completionBarrierDone b.tag ok) s = .next (waitedResets (setPkg { u with flt := { u.flt with dma := false } } .quarantined))) ∧
    (∀ h q k, b.why = .park h → reqOf s h = some q → q.parking = some k →
      exec (.completionBarrierDone b.tag true) s = .next (updReq u h fun x => { x with parking := some { k with barrier := true } }) ∧
      exec (.completionBarrierDone b.tag false) s = .next (rewritePart u h (k.parts.length - 1)))

/-- FLR ends a function's requests without records; the link holds writes while it is down. R364: an FLR of an enabled VF, or of
the PF, leaves the function with nothing but the FLR's stamp, with VALID cleared on every window it owns; every request
whose ring it owns has its outcome fixed, no further write through the function is issued, and none is held. R365: an FLR of the PF clears
VF Enable. R364 item 5, R366: once no DMA of the function is outstanding the FLR completes, and a function that its FLR left with
nothing but the stamp is as after reset: its mailbox is IDLE and it has no queues. R340: while the link is down writes are held; when it returns they are issued in order.
These complete: FLR_VF, FLR_PF, FLR_DMA_DRAINED, PCIE_LINK_DOWN, PCIE_LINK_UP. -/
def Obligations.FunctionResetsAndTheLink : Prop :=
  (∀ (s : State) (n : Nat), 1 ≤ n → n ≤ 15 → Live s → fnEnabled s n = true → (fnOf s n).flr = none → n < s.host.fns.length →
    ∃ t, exec (.flrVf n) s = .next t ∧ fnOf t n = { Fn.reset with flr := some s.boot.dtc } ∧
      (∀ w ∈ t.host.wins, w.owner = n → w.valid = false) ∧ (∀ w : BusWrite, w.fn = n → issue t w = t) ∧
      (∀ w ∈ t.host.held, w.fn ≠ n) ∧
      ((s.reqs.map fun q => q.h).Nodup → ∀ q ∈ t.reqs, q.fn = n → q.ownsRing = true → q.replay = none →
        q.outcome ≠ none)) ∧
  (∀ s : State, Live s → (fnOf s 0).flr = none → 0 < s.host.fns.length → ∃ t, exec .flrPf s = .next t ∧ t.host.vfs = 0 ∧
    fnOf t 0 = { Fn.reset with flr := some s.boot.dtc } ∧ (∀ w ∈ t.host.wins, w.owner = 0 → w.valid = false) ∧
    (∀ w : BusWrite, w.fn = 0 → issue t w = t) ∧ (∀ w ∈ t.host.held, w.fn ≠ 0) ∧
    ((s.reqs.map fun q => q.h).Nodup → ∀ q ∈ t.reqs, q.fn = 0 → q.ownsRing = true → q.replay = none → q.outcome ≠ none)) ∧
  (∀ (s : State) (n : Nat), n < 16 → Live s → (fnOf s n).flr ≠ none → n < s.host.fns.length →
    ∃ t, exec (.flrDmaDrained n) s = .next t ∧ fnOf t n = { fnOf s n with flr := none } ∧ (∀ r ∈ t.host.reads, r.fn ≠ n) ∧
      (fnOf s n = { Fn.reset with flr := (fnOf s n).flr } → (fnOf t n).mbox.st = .idle ∧ (fnOf t n).sqs = [] ∧ (fnOf t n).cqs = []) ∧
      t = { s with host := t.host } ∧ t.host = { s.host with reads := t.host.reads, barriers := t.host.barriers, fns := t.host.fns }) ∧
  (∀ s : State, Live s →
    exec .pcieLinkDown s = .next { s with host := { s.host with linkUp := false } } ∧
    (s.host.linkUp = false → s.boot.pllLocked = true → s.boot.perst = false →
      exec .pcieLinkUp s = .next (rearm { s with host := { s.host with linkUp := true, bus := s.host.bus ++ s.host.held, held := [] } })) ∧
    ∀ w : BusWrite, mayIssue s w = true →
      issue s w = if s.host.linkUp then { s with host := { s.host with bus := s.host.bus ++ [w] } }
        else { s with host := { s.host with held := s.host.held ++ [w] } })

/-- Each boot event of a sound package leads to the next stage, up to SERVING. R466 to R476: PWR_GOOD starts a cold boot in ROM.
PLL lock starts the DTC at 0 on a cold boot, counts BOOT_EPOCH and, with a valid directory copy, keeps it and enters
FW_LOAD. Images read, the valid image of the active slot runs: its version, SVN and key slot are reported and FW_START is
entered. HBM training done leads to BIST; BIST done leaves every Cluster Store zero and leads to KAT; KAT done, without a
board configuration, leads to SERVING and ends BOOTING. Each step changes only what is named here, the power domains that
come on, and the cause bits and vectors that a change of BOOT_STAGE signals (R493). These complete: PWR_GOOD_RISE, PLL_LOCK,
FW_IMAGE_LOADED, HBM_TRAINING_DONE, BIST_DONE, KAT_DONE. -/
def Obligations.BootStagesAdvance : Prop :=
  (∀ s : State, s.boot.pwrGood = false → exec .pwrGoodRise s = .next { s with
    boot := { s.boot with pwrGood := true, cold := true, stage := .rom, booting := true }, flt := { s.flt with quietN := true } }) ∧
  (∀ (s : State) (r0 r1 : ReadResult) (d : Dir), s.boot.pwrGood = true → s.boot.stage = .rom → s.boot.cold = true →
    chooseDir r0 r1 = some d → ∃ t, exec (.pllLock r0 r1) s = .next t ∧ t = { s with boot := t.boot, gov := t.gov, host := t.host } ∧
      t.boot = { s.boot with pllLocked := true, dtc := 0, epoch := (s.boot.epoch + 1) % 2 ^ 32, dir := some d, stage := .fwLoad } ∧
      t.gov = { s.gov with on := t.gov.on } ∧ ∀ k ∈ s.gov.on, k ∈ t.gov.on) ∧
  (∀ (s : State) (a b : ReadResult) (d : Dir) (im : Bytes), s.boot.stage = .fwLoad → s.boot.dir = some d → d.active < 2 →
    slotImage s.boot (if d.active = 0 then d.lenA else d.lenB) (if d.active = 0 then a else b) = some im →
    ∃ t, exec (.fwImageLoaded a b) s = .next t ∧ t = { s with boot := t.boot, host := t.host } ∧ t.boot.stage = .fwStart ∧
      t.boot.ranSlot = d.active ∧ t.boot.fallbackSlot = false ∧ t.boot.curFw = fwDigest im ∧ t.boot.svn = rd im 8 4 ∧
      t.boot.keySlot = rd im 12 1 ∧ t.boot.ifMajor = rd im 6 1 ∧ t.boot.ifMinor = rd im 7 1 ∧ t.boot.dtc = s.boot.dtc ∧
      (s.boot.cold = false → t.boot.revoked = s.boot.revoked ∧ t.boot.minSvn = s.boot.minSvn)) ∧
  (∀ s : State, Live s → s.boot.stage = .fwStart ∨ s.boot.stage = .hbmTrain → ∃ t, exec (.hbmTrainingDone none) s = .next t ∧
    t = { s with boot := { s.boot with stage := .bist }, gov := t.gov, host := t.host } ∧ t.gov = { s.gov with on := t.gov.on }) ∧
  (∀ s : State, Live s → s.boot.stage = .bist → ∃ t, exec (.bistDone none) s = .next t ∧
    t = { s with boot := { s.boot with stage := .kat }, clusters := [], host := t.host }) ∧
  (∀ (s : State) (r : ReadResult) (d : Dir), Live s → s.boot.stage = .kat → s.boot.dir = some d → d.cfgLen = 0 →
    ∃ t, exec (.katDone none r) s = .next t ∧
      t = { s with boot := { s.boot with stage := .serving, booting := false }, flt := t.flt, host := t.host } ∧
      t.flt = { s.flt with quietN := harmless s.flt.pkg })

/-- A boot that fails stops at its stage, asserts FAULT_N and logs the failure. R466, R474, R477: no lock within the bound is
PLL_FAIL, no valid directory copy is NO_IMAGE, a failed stack, die or cluster is HBM_FAIL, BIST_FAIL or KAT_FAIL, and a
stage that exceeds its bound is STAGE_TIMEOUT. BOOT_STAGE reads the failure, FAULT_N and QUIET_N are asserted, one entry
joins the fault log with that stage's source, and firmware serves no message from then on. -/
def Obligations.BootFailuresStop : Prop :=
  ∀ (s t : State) (st : BootStage), Live s →
    ((∃ r0 r1, s.boot.pwrGood = true ∧ s.boot.stage = .rom ∧ s.boot.cold = true ∧ chooseDir r0 r1 = none ∧ st = .noImage ∧
        exec (.pllLock r0 r1) s = .next t) ∨
      (s.boot.pwrGood = true ∧ s.boot.stage = .rom ∧ s.boot.pllLocked = false ∧ st = .pllFail ∧ exec .pllLockTimeout s = .next t) ∨
      (∃ n, (s.boot.stage = .fwStart ∨ s.boot.stage = .hbmTrain) ∧ st = .hbmFail ∧ exec (.hbmTrainingDone (some n)) s = .next t) ∨
      (∃ n, s.boot.stage = .bist ∧ st = .bistFail ∧ exec (.bistDone (some n)) s = .next t) ∨
      (∃ n r, s.boot.stage = .kat ∧ st = .katFail ∧ exec (.katDone (some n) r) s = .next t) ∨
      (∃ n, (s.boot.stage ∈ [BootStage.fwLoad, .fwStart, .hbmTrain, .bist, .kat] ∨
          s.boot.stage = .rom ∧ s.boot.pllLocked = true ∧ s.boot.pwrGood = true) ∧ st = .stageTimeout ∧
        exec (.stageTimeout n) s = .next t)) →
    t.boot.stage = st ∧ t.flt.faultN = true ∧ t.flt.quietN = true ∧ t.flt.logCount = (s.flt.logCount + 1) % 2 ^ 32 ∧
      (∃ e, t.flt.log.getLast? = some e ∧ e.source = 0x0200 + stageVal st ∧ e.seq = s.flt.logCount ∧ e.dtc = t.boot.dtc) ∧
      t.flt.pkg = s.flt.pkg ∧ fwServes t = false

/-- PLL_LOCK_TIMEOUT and STAGE_TIMEOUT complete with the failed stage. R466, R474: a root PLL that has not locked within its
bound, and a boot stage that exceeds its own, have a next state in which BOOT_STAGE is PLL_FAIL or STAGE_TIMEOUT and the
boot is over. These complete: PLL_LOCK_TIMEOUT, STAGE_TIMEOUT. -/
def Obligations.BootTimeoutsStop : Prop :=
  ∀ s : State,
    (s.boot.pwrGood = true → s.boot.stage = .rom → s.boot.pllLocked = false →
      ∃ t, exec .pllLockTimeout s = .next t ∧ t.boot = { s.boot with stage := .pllFail } ∧ bootFailed t.boot.stage = true) ∧
    ∀ n, Live s → s.boot.stage ∈ [BootStage.fwLoad, .fwStart, .hbmTrain, .bist, .kat] →
      ∃ t, exec (.stageTimeout n) s = .next t ∧ t.boot = { s.boot with stage := .stageTimeout } ∧
        ∃ e, t.flt.log.getLast? = some e ∧ e.unit = n % 2 ^ 32 ∧ e.part = 0xFF

/-- Cold and warm resets clear the package and keep what Table BRU-7 keeps. R478, R479, Table BRU-7: a cold reset leaves the
fuses, the fault log with its counts, BOOT_EPOCH, CUR_FW and PREV_FW as they are and takes DEBUG to LOCKED; every partition,
tenant, adapter, request, frame, cluster, port, window, queue and vector is as after reset, and the DTC is 0. A warm reset
(a hot reset, or PERST_N asserted with PWR_GOOD high) does the same but for the DTC and the root PLL's lock, which go on, and
for the ports: each is DISABLED with its counters cleared, and one that was not DISABLED or DOWN sends HOLD for 10,000 ticks
more (R480). Releasing PERST_N clears nothing. These complete: COLD_RESET, PCIE_HOT_RESET, PERST_N_ASSERT, PERST_N_DEASSERT. -/
def Obligations.ResetsClearAndKeep : Prop :=
  ∀ s : State,
    let cleared := fun (t : State) =>
      t.parts = List.replicate 8 .reset ∧ t.tenants = [] ∧ t.adapters = [] ∧ t.regs = [] ∧ t.reqs = [] ∧ t.frames = [] ∧
      t.clusters = [] ∧ t.host.fns = List.replicate 16 .reset ∧ t.host.wins = [] ∧
      t.group = State.reset.group ∧ t.pins.mf = Pins.reset.mf ∧ t.flt.pkg = .serving ∧ t.flt.log = s.flt.log ∧
      t.flt.logCount = s.flt.logCount ∧ t.flt.logClearedAt = s.flt.logClearedAt ∧ t.boot.epoch = s.boot.epoch ∧
      t.boot.curFw = s.boot.curFw ∧ t.boot.prevFw = s.boot.prevFw ∧ t.boot.keyHashes = s.boot.keyHashes ∧
      t.boot.revoked = s.boot.revoked ∧ t.boot.minSvn = s.boot.minSvn ∧ t.boot.part = s.boot.part ∧
      t.boot.lock = (if s.boot.lock = .debug then .locked else s.boot.lock) ∧ t.boot.stage = .rom ∧ t.boot.booting = true
    let warm := fun (t : State) =>
      (∀ x ∈ t.ports, { x with holdUntil := 0 } = Port.reset) ∧ t.ports.length = s.ports.length ∧
      ∀ (i : Nat) (x : Port), s.ports[i]? = some x → x.st ≠ .disabled → x.st ≠ .down →
        ∃ y, t.ports[i]? = some y ∧ y.holdUntil = s.boot.dtc + 10000 ∧ ∀ now, s.boot.dtc ≤ now → (sendsHold now y = true ↔ now < s.boot.dtc + 10000)
    (∃ t, exec .coldReset s = .next t ∧ cleared t ∧ t.ports = List.replicate 12 .reset ∧ t.boot.dtc = 0 ∧ t.boot.pllLocked = false) ∧
    (s.boot.pwrGood = true → s.boot.pllLocked = true →
      (∃ t, exec .pcieHotReset s = .next t ∧ cleared t ∧ warm t ∧ t.boot.dtc = s.boot.dtc ∧ t.boot.pllLocked = true) ∧
      (s.boot.perst = false →
        ∃ t, exec .perstNAssert s = .next t ∧ cleared t ∧ warm t ∧ t.boot.dtc = s.boot.dtc ∧ t.boot.pllLocked = true ∧ t.boot.perst = true)) ∧
    exec .perstNDeassert s = .next { s with boot := { s.boot with
      perst := false, extest := if s.boot.lock = .manufacturing then s.boot.extest else none } }

/-- A keyed write resets a partition, any other is counted. R497, R481: a write with key 0xC1EA for a
partition that is not DISABLED and not already being reset, sets its busy bit. In ENTERING the reset waits until QUARANTINED,
which the partition notes. For a partition that spans members the leader relays the reset to every member as it begins its own,
and another member leaves it to the leader and waits for that relay; in a package that does not serve it begins at once, which is
the model's choice (log 83). Where it begins, the wipe leaves no request of the partition, no outcome and no replay status, no model
load under way, every adapter of it ABSENT, and its tenants without keys. Any other write increments RESET_IGNORED and changes nothing
else; so does every write in UNCONTAINED. These complete: PARTITION_RESET. -/
def Obligations.PartitionResetEndsItsRequests : Prop :=
  ∀ (s : State) (value : Nat),
    let p := value % 8
    (value / 65536 % 65536 ≠ 0xC1EA ∨ (partOf s p).st = .disabled ∨ (partOf s p).resetting = true ∨ s.flt.pkg = .uncontained →
      exec (.partitionReset value) s = .next { s with flt := { s.flt with resetIgnored := (s.flt.resetIgnored + 1) % 2 ^ 32 } }) ∧
    (value / 65536 % 65536 = 0xC1EA → (partOf s p).st ≠ .disabled → (partOf s p).resetting = false → s.flt.pkg ≠ .uncontained →
      let u := updPart s p fun y => { y with resetting := true, resetWait := false, freezeAt := none }
      (s.flt.pkg = .entering → exec (.partitionReset value) s =
        .next (updPart s p fun y => { y with resetting := true, resetWait := true, freezeAt := none })) ∧
      (s.flt.pkg ≠ .entering → s.flt.pkg ≠ .serving ∨ spans s p = false → exec (.partitionReset value) s = .next (wipePart u p)) ∧
      (s.flt.pkg = .serving → spans s p = true → leads s p = true → ∃ v, exec (.partitionReset value) s = .next (wipePart v p) ∧
        v = { u with ports := v.ports, gov := v.gov }) ∧
      (s.flt.pkg = .serving → spans s p = true → leads s p = false → ∃ v, exec (.partitionReset value) s = .next v ∧
        v = { updPart s p (fun y => { y with resetting := true, resetWait := true }) with ports := v.ports, gov := v.gov }) ∧
      (∀ k ∈ (wipePart u p).tenants, k.part = p → k.keys = []) ∧ (∀ q ∈ (wipePart u p).reqs, q.part ≠ p) ∧
      (∀ a ∈ (wipePart u p).adapters, a.part = p → a.st = .absent) ∧ (partOf (wipePart u p) p).load = none ∧
      (partOf (wipePart u p) p).outcomes = [] ∧ (partOf (wipePart u p) p).replayStats = [])

/-- FW_ACTIVATE checks, persists, quiesces and exchanges the image. R379, R482 to R485: a well-formed FW_ACTIVATE whose image
lies in a readable window of the PF, has the digest given, is signed by a fused key that is not revoked with an SVN not
below the minimum, and has the running IF_MAJOR, is accepted: with PERSIST it waits for the flash, and the older directory
copy then names the inactive slot; otherwise the quiesce begins at once. Once no attempt runs, the staged image is the
running one: CUR_FW, version, SVN and key slot are its own, no fuse changes, and the message completes SUCCESS. A quiesce
that exceeds its bound is uncontained doubt HUB_WATCHDOG. These complete: FW_ACTIVATE, FLASH_PERSIST_DONE, FW_ACTIVATE_QUIESCED,
FW_ACTIVATE_TIMEOUT. -/
def Obligations.FirmwareActivates : Prop :=
  (∀ (s : State) (fn : Nat) (via : Via) (cmd : Bytes) (image : ReadResult) (im : Bytes), Accepts s fn via cmd → rd cmd 0 2 = 0x0082 →
    bodyZero cmd [(8, 1), (9, 1), (12, 4), (16, 8), (24, 32)] = true → rd cmd 9 1 < 2 →
    let u := took s fn via cmd
    u.boot.fwPhase = .idle → fwImage u cmd image = some im → fwDigest im = slice cmd 24 32 → fwSigned u.boot im = true →
    fwFormed im = true → rd im 6 1 = u.boot.ifMajor →
    (rd cmd 9 1 = 1 → ∃ t f, exec (.fwActivate fn via image) s = .next t ∧ t = { u with boot := t.boot } ∧
      t.boot = { u.boot with staged := some f, fwPhase := .persist } ∧ f.image = im ∧ f.ctx = askCtx s fn via cmd ∧ f.persist = true) ∧
    (rd cmd 9 1 = 0 → ∃ v f, exec (.fwActivate fn via image) s = .next (beginQuiesce v) ∧
      v = { u with boot := { u.boot with staged := some f, fwPhase := .idle } } ∧ f.image = im ∧ f.ctx = askCtx s fn via cmd ∧
      f.persist = false)) ∧
  (∀ (s : State) (f : Staged) (d : Dir), Live s → s.boot.fwPhase = .persist → s.boot.staged = some f → s.boot.dir = some d → d.active < 2 →
    (∃ v, exec (.flashPersistDone true) s = .next (beginQuiesce v) ∧ v = { s with boot := v.boot } ∧
      v.boot = { s.boot with dir := v.boot.dir, flashOut := v.boot.flashOut } ∧
      (∃ e, v.boot.dir = some e ∧ e.copy = 1 - d.copy ∧ e.active = 1 - d.active ∧ e.gen = (d.gen + 1) % 2 ^ 32) ∧
      ∃ x y, v.boot.flashOut = s.boot.flashOut ++ [x, y] ∧ x.data = f.image) ∧
    exec (.flashPersistDone false) s = .next (respond { s with boot := { s.boot with fwPhase := .idle, staged := none } } f.ctx .noResource [])) ∧
  (∀ (s : State) (f : Staged), Live s → s.boot.fwPhase = .quiesce → s.boot.staged = some f → quiesced s = true →
    (∃ v, exec .fwActivateQuiesced s = .next (rearm (respond v f.ctx .success (leBytes 2 f.ifMinor ++ zeroBytes 6 ++ f.digest))) ∧
      v.boot.stage = .serving ∧ v.boot.fwPhase = .idle ∧ v.boot.staged = none ∧ v.boot.curFw = fwDigest f.image ∧
      v.boot.svn = rd f.image 8 4 ∧ v.boot.keySlot = rd f.image 12 1 ∧ v.boot.revoked = s.boot.revoked ∧ v.boot.minSvn = s.boot.minSvn ∧
      v.parts = s.parts ∧ v.reqs = s.reqs ∧ v.clusters = s.clusters) ∧
    exec .fwActivateTimeout s = .next (doubtUncontained s 0x16 0xFF 0 0))

/-- RECOVER verifies, tests, and leads back to SERVING. R433, R435: a RECOVER from the PF's mailbox in QUARANTINED takes the
package to RECOVERING, and waits for a thermal trip to clear before verification; sent in any other state it is WRONG_STATE.
Verification hands over to the tests. A failed test fails the recovery. Tests that pass leave every Cluster Store cleared
and close the ledger; if that close balances, FAULT_N and QUIET_N are released, DMA is allowed, the first-doubt record is
cleared, and the package serves again, with RECOVER's response given. These complete: RECOVER, RECOVERY_TEST_DONE,
RECOVERY_VERIFY_DONE. -/
def Obligations.RecoveryReturnsToServing : Prop :=
  (∀ (s : State) (fn : Nat) (cmd : Bytes), Accepts s fn .mailbox cmd → rd cmd 0 2 = 0x0083 → bodyZero cmd [] = true →
    let u := took s fn .mailbox cmd
    let c := askCtx s fn .mailbox cmd
    (u.flt.pkg = .quarantined → exec (.recover fn .mailbox) s = .next (setPkg { u with flt :=
      { u.flt with recCtx := some c, recStep := if u.flt.trip then .cause else .verify } } .recovering)) ∧
    (u.flt.pkg ≠ .quarantined → exec (.recover fn .mailbox) s = .next (respond u c .wrongState []))) ∧
  ∀ s : State, s.flt.pkg = .recovering →
    (s.flt.recStep = .verify → ∀ bad, exec (.recoveryVerifyDone bad) s =
      .next { bad.foldl badFrame s with flt := { (bad.foldl badFrame s).flt with recStep := .test } }) ∧
    (s.flt.recStep = .test →
      (∀ n, exec (.recoveryTestDone (some n)) s = .next (recoveryFails s)) ∧
      let v := closeLedger (idleQuantities { s with clusters := [] }) (List.range 8)
      v.flt.pkg = .recovering → ∃ t, exec (.recoveryTestDone none) s = .next t ∧ t.flt.pkg = .serving ∧ t.flt.faultN = false ∧
        t.flt.quietN = false ∧ t.flt.dma = true ∧ t.flt.recCtx = none ∧ t.flt.firstSource = 0 ∧ t.flt.doubtCount = 0 ∧
        ∀ c, v.flt.recCtx = some c → ∃ w, w.flt.pkg = .serving ∧ t = rearm (respond w c .success []))

/-- A pin switch floats the pin, arms the new function, and completes when it takes the pin. R510 to R512: a PINMUX_SET of
another function that Table PKG-3 gives the pin, with an ARG in its range, leaves the pin as GPIO_IN with the new function
arming, after the one tick in which the pin floats, for its time of Table PKG-11 (100 ticks for UART2_RX and STEP_SYNC_IN_ALT,
else none), without a response; until then it drives no level. A pin whose switch is in progress answers BUSY; the function the pin already holds completes SUCCESS at once, and for GPIO_OUT
takes the new ARG. When the arming ends the new function takes the pin and the message completes SUCCESS: GPIO_OUT drives
ARG[0], UART2_TX idles high, THERM_TRIP_OUT shows a trip, STEP_SYNC_OUT_ALT is low, and an input drives nothing. A switch to or
from STEP_SYNC_IN_ALT leaves the filter UNARMED. These complete: PINMUX_SET, PINMUX_ARMED. -/
def Obligations.PinmuxFloatsThenArms : Prop :=
  (∀ (s : State) (fn : Nat) (via : Via) (cmd : Bytes) (f : PinFn), Accepts s fn via cmd → rd cmd 0 2 = 0x0080 →
    bodyZero cmd [(8, 1), (9, 1), (12, 4)] = true → pinFnOf (rd cmd 9 1) = some f → rd cmd 8 1 < 16 →
    pinTakes (rd cmd 8 1) f = true → pinArgOk (rd cmd 12 4) f = true →
    let u := took s fn via cmd
    let c := askCtx s fn via cmd
    let pin := rd cmd 8 1
    let arg := rd cmd 12 4
    ((pinOf u pin).arming ≠ none → exec (.pinmuxSet fn via) s = .next (respond u c .busy [])) ∧
    ((pinOf u pin).arming = none → (pinOf u pin).fn = f →
      exec (.pinmuxSet fn via) s = .next (respond (if f = .gpioOut then updPin u pin fun x => { x with arg := arg } else u) c .success [])) ∧
    ((pinOf u pin).arming = none → (pinOf u pin).fn ≠ f →
      ∃ t, exec (.pinmuxSet fn via) s = .next t ∧ t = { u with pins := { u.pins with mf := t.pins.mf, filter := t.pins.filter } } ∧
        t.pins.mf = (updPin u pin fun _ => { fn := .gpioIn, arg := 0, arming := some (f, arg, c), armAt := u.boot.dtc + 1 + (if f = .uart2Rx ∨ f = .syncInAlt then 100 else 0) }).pins.mf ∧
        (pin < u.pins.mf.length → pinDrive t pin = none) ∧
        t.pins.filter = (if (pinOf u pin).fn = .syncInAlt then .unarmed else u.pins.filter))) ∧
  ∀ (w : State) (n : Nat) (g : PinFn) (a : Nat) (k : MsgCtx), n < 16 → Live w → (pinOf w n).arming = some (g, a, k) →
    (pinOf w n).armAt ≤ w.boot.dtc → ∃ v, exec (.pinmuxArmed n) w = .next (respond v k .success []) ∧
      v = { w with pins := { w.pins with mf := v.pins.mf, filter := v.pins.filter } } ∧
      v.pins.mf = (updPin w n fun _ => { fn := g, arg := a, arming := none, armAt := w.boot.dtc }).pins.mf ∧
      v.pins.filter = (if g = .syncInAlt then .unarmed else w.pins.filter) ∧
      (n < w.pins.mf.length →
        (g = .gpioOut → pinDrive v n = some (decide (a % 2 = 1))) ∧ (g = .uart2Tx → pinDrive v n = some true) ∧
        (g = .thermTripOut → pinDrive v n = some w.flt.trip) ∧ (g = .syncOutAlt → pinDrive v n = some false) ∧
        (g ∈ [PinFn.gpioIn, .uart2Rx, .fanTach, .syncInAlt] → pinDrive v n = none))

/-- The STEP_SYNC_IN filter yields marks, and a mark corrects the DTC or is counted. R507: UNARMED becomes ARMED, a rising edge
in ARMED becomes a CANDIDATE with its DTC, and a candidate that is discarded or becomes a mark returns to UNARMED. R403: a
mark that member 0 takes changes nothing else. On another member a mark whose DTC lies d from the nearest multiple of 2^20,
with the magnitude of d at most 16,384, leaves a correction of -d ticks to be made; otherwise SYNC_MISALIGN counts. Each
slew step, 64 ticks after the last, holds the DTC for one tick or advances it by 2 as one tick passes, and brings the correction
one tick nearer 0. Member 0 drives STEP_SYNC_OUT for 200 ticks from each multiple of 2^20. A member without a mark for two periods
counts SYNC_LOST. These complete: STEP_SYNC_ARMED, STEP_SYNC_CANDIDATE, CANDIDATE_DISCARDED, STEP_SYNC_MARK, STEP_SYNC_OUT_PULSE,
SYNC_LOST, DTC_SLEW. -/
def Obligations.TimeMarksAlignTheDtc : Prop :=
  ∀ s : State, Live s →
    (s.pins.filter = .unarmed → exec .stepSyncArmed s = .next { s with pins := { s.pins with filter := .armed } }) ∧
    (∀ e, s.pins.filter = .armed → exec (.stepSyncCandidate e) s = .next { s with pins := { s.pins with filter := .candidate e } }) ∧
    (∀ e, s.pins.filter = .candidate e →
      exec .candidateDiscarded s = .next { s with pins := { s.pins with filter := .unarmed } } ∧
      (s.group.index = 0 → exec .stepSyncMark s = .next { s with pins := { s.pins with filter := .unarmed } }) ∧
      (s.group.index ≠ 0 → ∀ (k : Nat) (d : Int), (e : Int) = k * 2 ^ 20 + d → -(2 ^ 19) < d → d < 2 ^ 19 →
        (-16384 ≤ d ∧ d ≤ 16384 → exec .stepSyncMark s = .next { s with pins :=
          { s.pins with filter := .unarmed, lastMark := s.boot.dtc, slew := -d, slewAt := s.boot.dtc } }) ∧
        (d < -16384 ∨ 16384 < d → exec .stepSyncMark s = .next { s with pins :=
          { s.pins with filter := .unarmed, lastMark := s.boot.dtc, misalign := (s.pins.misalign + 1) % 2 ^ 32 } }))) ∧
    (s.group.index = 0 → s.boot.pllLocked = true → s.boot.dtc % 2 ^ 20 = 0 →
      exec .stepSyncOutPulse s = .next { s with pins := { s.pins with syncOutUntil := some (s.boot.dtc + 200) } }) ∧
    (s.group.index ≠ 0 → s.pins.lastMark + 2 * 2 ^ 20 ≤ s.boot.dtc → exec .syncLost s = .next { s with pins :=
      { s.pins with lost := (s.pins.lost + 1) % 2 ^ 32, lastMark := s.boot.dtc } }) ∧
    (s.pins.slew ≠ 0 → s.pins.slewAt + 64 ≤ s.boot.dtc → s.boot.pllLocked = true → ∃ t, exec .dtcSlew s = .next t ∧
      t.boot = { (tick s).boot with dtc := if 0 < s.pins.slew then (s.boot.dtc + 2) % 2 ^ 64 else s.boot.dtc } ∧
      t.pins.slew = (if 0 < s.pins.slew then s.pins.slew - 1 else s.pins.slew + 1) ∧ t.pins.slewAt = t.boot.dtc ∧
      t.pins = { (tick s).pins with slew := t.pins.slew, slewAt := t.pins.slewAt } ∧ t = { tick s with boot := t.boot, pins := t.pins })

/-- B_eff is the least of the limit, the thermal budget and the throttle floor, and each tick uses it. R410: B_eff is the least
of B_limit, the thermal budget, and, while THROTTLE_N is asserted, floor(B_limit / 4); every TCLK tick evaluates it anew.
POWER_LIMIT_SET with a LIMIT_W of 800 to 2,000 sets it and reports B_limit, floor(2.5 × (LIMIT_W - 440)) on the SWL-9400 and
floor(2.5 × (LIMIT_W - 330)) on the SWL-9300. The thermal budget follows R421 and R422: B_limit up to 95 degrees,
floor(B_limit × (111 - T_max) / 16) from 96 to 107, floor(B_limit / 4) at 108 and 109, and 0 during a thermal trip. These
complete: POWER_GOVERNOR_TICK, POWER_LIMIT_SET. -/
def Obligations.EffectiveBudgetIsTheLeast : Prop :=
  ∀ s : State,
    let fixed := match s.boot.part with | .swl9400 => 440 | .swl9300 => 330
    let limit := 5 * (s.gov.limitW - fixed) / 2
    let thermal := if s.flt.trip = true then 0 else if s.pins.tMax ≤ 95 then limit
      else if s.pins.tMax ≤ 107 then limit * (111 - s.pins.tMax).toNat / 16 else limit / 4
    (bEff s ≤ limit ∧ bEff s ≤ thermal ∧ (s.pins.throttle = true → bEff s ≤ limit / 4) ∧
      (bEff s = limit ∨ bEff s = thermal ∨ s.pins.throttle = true ∧ bEff s = limit / 4)) ∧
    (Live s → ∃ t, exec .powerGovernorTick s = .next t ∧ t.gov.bEffLast = bEff s) ∧
    ∀ (fn : Nat) (via : Via) (cmd : Bytes), Accepts s fn via cmd → rd cmd 0 2 = 0x0081 → bodyZero cmd [(8, 2)] = true →
      800 ≤ rd cmd 8 2 → rd cmd 8 2 ≤ 2000 →
      exec (.powerLimitSet fn via) s = .next (respond { took s fn via cmd with gov := { s.gov with limitW := rd cmd 8 2 } }
        (askCtx s fn via cmd) .success (leBytes 4 (5 * (rd cmd 8 2 - fixed) / 2)))

/-- In one governor tick G rises by at most 4 DU and never past B_eff. R413, R417: at a governor tick every release that has
arrived lowers G, and the requests of the last tick join the queue: each stands in it or has its permit, and none is left among the
arrivals. G then rises by at most 4 DU, and where it rises it stays at or below B_eff. Only the Governor, and the trains of ports
whose permit was revoked, change. These complete: POWER_GOVERNOR_TICK. -/
def Obligations.GovernorRisesByFourPerTick : Prop :=
  ∀ s : State, Live s → ∃ t, exec .powerGovernorTick s = .next t ∧ t = { s with gov := t.gov, ports := t.ports } ∧
    t.gov.releases = 0 ∧ t.gov.g ≤ s.gov.g - s.gov.releases + 4 ∧
    (s.gov.g - s.gov.releases < t.gov.g → t.gov.g ≤ bEff s) ∧
    t.gov.limitW = s.gov.limitW ∧ t.gov.on = s.gov.on ∧ t.gov.rising = s.gov.rising ∧ t.gov.arrivals = [] ∧
    ∀ r ∈ s.gov.arrivals, (∃ x ∈ t.gov.queue, x.req = r.req ∧ x.cls = r.cls) ∨ ∃ x ∈ t.gov.permits, x.req = r.req ∧ x.cls = r.cls

/-- A grant reaches its requester, and a risen domain gives its permit back. R413 item 4: when the grants of a requester reach
it, each of its permits is held by it, and no other requester's permit and no part of G change; a port that now holds its
standing and its train permit sends, and a Sinter run that only appends granules gives its permit back (R245). R406, R407: a
domain that is rising under its DOMAIN_UP permit and exists in the part is on from now; the permit goes back, and a
cluster's store and registers read zero. These complete: PERMIT_GRANTED, DOMAIN_UP_DONE. -/
def Obligations.PermitsReachTheirRequester : Prop :=
  (∀ (s : State) (req : Nat), req < 639 → Live s → ∃ g, (∀ x ∈ g.permits, x.req = req → x.delivered = true) ∧
    (∀ x ∈ s.gov.permits, x.req ≠ req → x ∈ g.permits) ∧ g = { s.gov with permits := g.permits } ∧
    (req < 392 ∨ 412 ≤ req → exec (.permitGranted req) s = .next { s with gov := g }) ∧
    (392 ≤ req → req < 400 → exec (.permitGranted req) s =
      .next { s with gov := if sealWaits s (req - 392) = true then g else govDrop g req .sinter }) ∧
    (400 ≤ req → req < 412 → exec (.permitGranted req) s = .next (
      if (∃ x ∈ g.permits, x.req = req ∧ x.cls = .standing) ∧ (∃ x ∈ g.permits, x.req = req ∧ x.cls = .linkTrain)
      then pumpState (updPort { s with gov := g } (req - 400) fun p => { p with permit := true }) (req - 400) else { s with gov := g }))) ∧
  ∀ (s : State) (dom : Nat) (p : Permit), dom < 227 → Live s → dom ∈ s.gov.rising → p ∈ s.gov.permits → p.req = 412 + dom →
    p.cls = .domainUp → p.delivered = true → (s.boot.part = .swl9400 ∨ dom < 144 ∨ (192 ≤ dom ∧ dom < 195)) →
    ∃ t, exec (.domainUpDone dom) s = .next t ∧ t.gov = { govDropReq s.gov (412 + dom) with on := s.gov.on ++ [dom], rising := s.gov.rising.filter (· != dom) } ∧
      t = { s with gov := t.gov, clusters := t.clusters } ∧
      t.clusters = if dom < 192 then s.clusters.filter fun y => y.no != dom else s.clusters

/-- THROTTLE_N is counted, and a reading of 110 degrees is a trip. R419, R420: the filtered THROTTLE_N asserts and its assertion
is counted, or deasserts. R421, R422: a thermal sample takes the highest reading of every sensor as T_max. Below 110 degrees
nothing trips, and the time since which T_max has stayed below 100 is kept. A first reading of 110 degrees or more is a
trip: contained doubt of the compute die it lies on, or uncontained doubt when a hub sensor reads it; a reading that hot during a
trip, with the hub below 110 degrees, is no new one. A trip clears once
T_max has stayed below 100 for 100,000 ticks, and a recovery that waited for it goes on. These complete: THROTTLE_N_ASSERT,
THROTTLE_N_DEASSERT, THERMAL_SAMPLE, THERMAL_TRIP_CLEAR. -/
def Obligations.ThrottleAndThermalSensing : Prop :=
  ∀ s : State, Live s →
    (s.pins.throttle = false → exec .throttleNAssert s = .next { s with pins := { s.pins with throttle := true, throttleCount := (s.pins.throttleCount + 1) % 2 ^ 32 } }) ∧
    (exec .throttleNDeassert s = .next { s with pins := { s.pins with throttle := false } }) ∧
    (∀ (cd hub : List Int) (m : Int), m ∈ cd ++ hub → (∀ y ∈ cd ++ hub, y ≤ m) →
      let since := if m < 100 then some (s.flt.coolSince.getD s.boot.dtc) else none
      (m < 110 → exec (.thermalSample cd hub) s = .next { s with pins := { s.pins with tMax := m }, flt := { s.flt with coolSince := since } }) ∧
      (110 ≤ m → (∀ y ∈ hub, y < 110) → s.flt.trip = false → ∃ die, exec (.thermalSample cd hub) s = .next (doubt
        { s with pins := { s.pins with tMax := m }, flt := { s.flt with coolSince := none, trip := true } } 0x11 0xFF die 0) ∧
        ∃ i y, cd[i]? = some y ∧ 110 ≤ y ∧ die = i / 4) ∧
      (110 ≤ m → (∀ y ∈ hub, y < 110) → s.flt.trip = true → exec (.thermalSample cd hub) s =
        .next { s with pins := { s.pins with tMax := m }, flt := { s.flt with coolSince := none } }) ∧
      ((∃ y ∈ hub, 110 ≤ y) → ∃ n, exec (.thermalSample cd hub) s = .next (doubtUncontained
        { s with pins := { s.pins with tMax := m }, flt := { s.flt with coolSince := none, trip := true, tripHub := true } } 0x12 0xFF n 0))) ∧
    (∀ since, s.flt.trip = true → s.flt.coolSince = some since → since + 100000 ≤ s.boot.dtc →
      exec .thermalTripClear s = .next { s with flt := { s.flt with trip := false, tripHub := false, recStep := if s.flt.recStep = .cause then .verify else s.flt.recStep } })

/-- V_req follows the fused base and the band, and a low die gives up its permits. R517: at each computation V_req of a die
becomes V_fuse + 10 mV × band, with the band taken from T_max + 10 degrees, but rises by at most 10 mV. R518: HOLD of a die
whose voltage is low reads 1, every permit its clusters held is taken back and asked for again, and a governor tick
grants none of its clusters' requests while HOLD reads 1; other dies keep theirs. These complete: VCORE_REQUEST_UPDATE, VCORE_HOLD,
VCORE_HOLD_RELEASE. -/
def Obligations.CoreVoltageRequests : Prop :=
  ∀ s : State, Live s →
    (∃ t, exec .vcoreRequestUpdate s = .next t ∧ t = { s with pins := { s.pins with vReq := t.pins.vReq } } ∧
      ∀ (d fuse old : Nat), s.pins.vFuse[d]? = some fuse → s.pins.vReq[d]? = some old →
        let band := if s.pins.tMax + 10 ≤ 60 then 0 else if s.pins.tMax + 10 ≤ 80 then 1 else if s.pins.tMax + 10 ≤ 95 then 2 else 3
        t.pins.vReq[d]? = some (min (fuse + 10 * band) (old + 10))) ∧
    ∀ die, die < 4 →
      (∃ t, exec (.vcoreHold die) s = .next t ∧ t = { s with gov := t.gov, pins := { s.pins with vHold := s.pins.vHold.set die true } } ∧
        (∀ p ∈ t.gov.permits, ¬ (clusterReq p.cls = true ∧ dieOfReq p.req = die)) ∧
        (∀ p ∈ s.gov.permits, ¬ (clusterReq p.cls = true ∧ dieOfReq p.req = die) → p ∈ t.gov.permits) ∧
        ∀ p ∈ s.gov.permits, clusterReq p.cls = true → dieOfReq p.req = die →
          ∃ r ∈ t.gov.queue ++ t.gov.arrivals, r.req = p.req ∧ r.cls = p.cls) ∧
      (s.pins.vHold[die]? = some true → (∀ r ∈ s.gov.queue ++ s.gov.arrivals, r.admitted < r.du) → (∀ p ∈ s.gov.permits, 0 < p.du) →
        ∃ t, exec .powerGovernorTick s = .next t ∧
          ∀ p ∈ t.gov.permits, clusterReq p.cls = true → dieOfReq p.req = die → p ∈ s.gov.permits) ∧
      exec (.vcoreHoldRelease die) s = .next { s with pins := { s.pins with vHold := s.pins.vHold.set die false } }

/-- A signed unlock enters DEBUG without keys; boundary scan drives pins only under PERST_N. R462: in LOCKED, with every
partition DISABLED, a response that the fused debug key signed over the nonce and DEVICE_ID takes the part to DEBUG: every
tenant key and parking record is gone, every SPDM session has ended, and KEY_INSTALL is barred until the next cold boot. Any
other response changes nothing but that the nonce is used up (a free value, log 3). R460, R461, Table TRU-5: pin-driving boundary
scan takes effect only while PERST_N is asserted, or in MANUFACTURING; IDCODE, BYPASS and SAMPLE/PRELOAD are reached in every
state, halt, step and hub registers in MANUFACTURING and DEBUG only, and the stores in MANUFACTURING only, where the debug UART
takes input in those two and sends its boot log in every state. R514: IDCODE is 0xB9400A5F on the SWL-9400 and 0xB9300A5F on
the SWL-9300. These complete: JTAG_DEBUG_UNLOCK, JTAG_EXTEST. -/
def Obligations.JtagDebugAndBoundaryScan : Prop :=
  ∀ s : State,
    (jtagIdcode .swl9400 = 0xB9400A5F ∧ jtagIdcode .swl9300 = 0xB9300A5F ∧ uartSends s true = true ∧
      (∀ r ∈ [JtagReach.idcode, .bypass, .samplePreload], jtagReaches s r = true) ∧
      (∀ r ∈ [JtagReach.haltStep, .hubRegs], jtagReaches s r = true ↔ s.boot.lock = .manufacturing ∨ s.boot.lock = .debug) ∧
      (jtagReaches s .stores = true ↔ s.boot.lock = .manufacturing) ∧
      (uartInput s = true ↔ s.boot.lock = .manufacturing ∨ s.boot.lock = .debug) ∧
      (uartSends s false = false ↔ s.boot.lock = .locked)) ∧
    (Live s → ∀ pub resp,
      let v : State := { s with freeCtr := s.freeCtr + 1 }
      let good := s.boot.lock = .locked ∧ (∀ p ∈ s.parts, p.st = .disabled) ∧ sha256 pub = s.boot.debugKeyHash ∧
        Config.ecdsaVerify pub (slice (Config.freeBytes s.freeCtr 32) 0 32 ++ s.boot.deviceId) resp = true
      (good → ∃ t, exec (.jtagDebugUnlock pub resp) s = .next t ∧ t.boot = { s.boot with lock := .debug, keyBar := true } ∧
        (∀ k ∈ t.tenants, k.keys = []) ∧ (∀ q ∈ t.reqs, q.record = none) ∧ (∀ f ∈ t.host.fns, f.session = none) ∧
        t = { v with boot := t.boot, tenants := t.tenants, reqs := t.reqs, host := t.host }) ∧
      (¬ good → exec (.jtagDebugUnlock pub resp) s = .next v)) ∧
    ∀ ls, exec (.jtagExtest ls) s =
      .next (if s.boot.perst = true ∨ s.boot.lock = .manufacturing then { s with boot := { s.boot with extest := some ls } } else s)

/-- PARTITION_CREATE makes an ACTIVE partition, and MODIFY leaves its items in force until the next freeze instant. R267, R268,
R278, R380: with its reserved fields zero and every item in range, PARTITION_CREATE completes WRONG_STATE where a spanning
partition has no formed group of its size, INDEX_IN_USE where the partition is not DISABLED, and CONFLICT where another
partition that is not DISABLED shares a cluster group with it and the two are not both TIME, in force and to come, over the
same members (R282). Otherwise, where the granules and the Cluster Store do not fit it completes NO_RESOURCE, and CONFLICT
where the items differ from those the leader of the partition has told (check 6, R271; log 24); else the partition becomes ACTIVE with the items and roles of its descriptor, every regulator at its
BURST, empty slots and no attempt (R286, R297), the domains of its clusters are asked to power up, and the message completes
SUCCESS. MODIFY applies the masked items to those in force or coming, checks them in the same way, keeps them for the next
freeze instant and changes nothing else. A failed descriptor read completes DESC_FAULT (R369). These complete: PARTITION_CREATE,
PARTITION_MODIFY. -/
def Obligations.PartitionsAreCreatedAndModified : Prop :=
  (∀ (x : Part) (it : Items) (rs : List Role) (now : Nat), createdPart x it rs now =
    { Part.reset with st := .active, items := it, roles := rs, levels := it.rates.map fun r => (r.2 : Int), lastFreeze := now,
                      handles := x.handles, replays := x.replays, submits := x.submits }) ∧
  ∀ (s : State) (fn : Nat) (via : Via) (cmd d : Bytes), Accepts s fn via cmd → rd cmd 0 2 = 0x0010 → rd cmd 8 8 % 64 = 0 →
    d.length = 128 →
    let u := took s fn via cmd
    let c := askCtx s fn via cmd
    let p := rd cmd 6 1
    let others := fun (it : Items) => ∃ q y, u.parts[q]? = some y ∧ q ≠ p ∧ y.st ≠ .disabled ∧
      (∃ g, g < 24 ∧ bit it.groups g = true ∧ bit y.items.groups g = true) ∧
      ¬ (it.time = true ∧ y.items.time = true ∧ (upcoming y).time = true ∧ it.groupSize = y.items.groupSize)
    (rd cmd 16 4 = 0 → createFormed cmd d false = true → itemCodesOk d = true → itemsOk (nGroups u) (readItems d) = true →
      rolesOk (rolesOf d) = true →
      let it := readItems d
      exec (.partitionCreate fn via none) s = .next (respond u c .descFault []) ∧
      (1 < it.groupSize ∧ (groupFormed u = false ∨ u.group.size < it.groupSize) →
        exec (.partitionCreate fn via (some d)) s = .next (respond u c .wrongState [])) ∧
      (it.groupSize = 1 ∨ groupFormed u = true ∧ it.groupSize ≤ u.group.size →
        ((partOf u p).st ≠ .disabled → exec (.partitionCreate fn via (some d)) s = .next (respond u c .indexInUse [])) ∧
        ((partOf u p).st = .disabled → others it → exec (.partitionCreate fn via (some d)) s = .next (respond u c .conflict [])) ∧
        ((partOf u p).st = .disabled → ¬ others it →
          (granulesOk u p it = false ∨ storeFits u p it 0 = false →
            exec (.partitionCreate fn via (some d)) s = .next (respond u c .noResource [])) ∧
          (granulesOk u p it = true → storeFits u p it 0 = true → itemsDiffer u p it = true →
            exec (.partitionCreate fn via (some d)) s = .next (respond u c .conflict [])) ∧
          (granulesOk u p it = true → storeFits u p it 0 = true → itemsDiffer u p it = false →
            exec (.partitionCreate fn via (some d)) s = .next (respond (domainsUp (updPart u p fun x =>
              createdPart x it (rolesOf d) u.boot.dtc) p) c .success []))))) ∧
    (rd cmd 16 4 = 1 → createFormed cmd d true = true → itemCodesOk d = true → (partOf u p).st = .active →
      let it := maskItems (upcoming (partOf u p)) d (rd cmd 20 4)
      itemsOk (nGroups u) it = true →
      (others it → exec (.partitionModify fn via (some d)) s = .next (respond u c .conflict [])) ∧
      (¬ others it → programsFit it (partOf u p) = false ∨ storeFits u p it (workMax it (partOf u p)) = false →
        exec (.partitionModify fn via (some d)) s = .next (respond u c .noResource [])) ∧
      (¬ others it → programsFit it (partOf u p) = true → storeFits u p it (workMax it (partOf u p)) = true → itemsDiffer u p it = true →
        exec (.partitionModify fn via (some d)) s = .next (respond u c .conflict [])) ∧
      (¬ others it → programsFit it (partOf u p) = true → storeFits u p it (workMax it (partOf u p)) = true → itemsDiffer u p it = false →
        exec (.partitionModify fn via (some d)) s = .next (respond (updPart u p fun y => { y with pendItems := some it }) c .success [])))

/-- PARTITION_DISABLE drains or aborts; a drain that runs out of time aborts. R297 to R299, R379: at the leader of its
partition, DRAIN puts an ACTIVE partition into DRAINING, stamped with the acceptance DTC and due DRAIN_TICKS later, answers
nothing yet and changes nothing else but the relay to the members. ABORT of an ACTIVE or DRAINING partition takes effect at
its acceptance DTC with the contexts of the drain it takes over, and leaves no request, tenant or adapter of the partition.
A DRAINING partition that still has a live request at its limit is aborted with the limit as its stamp. A DISABLED partition
answers WRONG_STATE; DRAIN of one that is draining or aborting, and ABORT of one that is aborting, answer BUSY. These complete:
PARTITION_DISABLE_DRAIN, PARTITION_DISABLE_ABORT, DRAIN_TIMEOUT. -/
def Obligations.PartitionsDrainAndAbort : Prop :=
  (∀ (s : State) (fn : Nat) (via : Via) (cmd : Bytes), Accepts s fn via cmd → rd cmd 0 2 = 0x0011 →
    goesToLeader (took s fn via cmd) (ask s fn via cmd) = false →
    let u := took s fn via cmd
    let c := askCtx s fn via cmd
    let p := rd cmd 6 1
    let v := relay u (ask s fn via cmd) 0 []
    (rd cmd 8 1 = 1 → bodyZero cmd [(8, 1), (16, 8)] = true → rd cmd 16 8 < 2 ^ 48 →
      ((partOf u p).st = .disabled → exec (.partitionDisableDrain fn via) s = .next (respond u c .wrongState [])) ∧
      ((partOf u p).st = .draining ∨ (partOf u p).st = .aborting →
        exec (.partitionDisableDrain fn via) s = .next (respond u c .busy [])) ∧
      ((partOf u p).st = .active → exec (.partitionDisableDrain fn via) s = .next (updPart v p fun x =>
        { x with st := .draining, disable := some { stamp := c.accept, deadline := some (c.accept + rd cmd 16 8), done := false, ctxs := [c] } }))) ∧
    (rd cmd 8 1 = 2 → bodyZero cmd [(8, 1)] = true →
      ((partOf u p).st = .disabled → exec (.partitionDisableAbort fn via) s = .next (respond u c .wrongState [])) ∧
      ((partOf u p).st = .aborting → exec (.partitionDisableAbort fn via) s = .next (respond u c .busy [])) ∧
      ((partOf u p).st = .active ∨ (partOf u p).st = .draining →
        ∃ t, exec (.partitionDisableAbort fn via) s = .next t ∧
          t = abortPart (updPart v p fun x => { x with disable := some { stamp := c.accept, deadline := none, done := false, ctxs := (match (partOf v p).disable with | some d => d.ctxs | none => []) ++ [c] } }) p c.accept ∧
          (∀ q ∈ t.reqs, q.part ≠ p) ∧ (∀ x ∈ t.tenants, x.part ≠ p) ∧ ∀ a ∈ t.adapters, a.part ≠ p))) ∧
  ∀ (s : State) (p : Nat) (d : Disable) (lim : Nat), p < 8 → Live s → (partOf s p).disable = some d → d.deadline = some lim →
    (partOf s p).st = .draining → lim ≤ s.boot.dtc → (∃ q ∈ s.reqs, q.part = p ∧ living q = true) →
    ∃ t, exec (.drainTimeout p) s = .next t ∧
      t = abortPart (updPart s p fun x => { x with disable := some { d with deadline := none, stamp := lim } }) p lim ∧
      (∀ q ∈ t.reqs, q.part ≠ p) ∧ (∀ x ∈ t.tenants, x.part ≠ p) ∧ ∀ a ∈ t.adapters, a.part ≠ p

/-- A model load reads both images, checks them, and fills its frames; an unload waits for the last reference. R274, R376, R381:
an ACTIVE partition takes one MODEL_LOAD at a time; it goes into the slot it names, or for a slot that holds a model into
the lowest empty SPARE slot, both windows count an access, and every stack's Sinter run asks for its permit (R245); a LEVEL or
digests that differ from what the leader told of that slot are CONFLICT (R381, log 24). Its completion, once every stack holds
its permit, checks both images. A check that fails
completes with its code, and leaves the slot as it was; one that passes takes the frames the residency split needs, and the
model stands in its slot, complete for the slot that the message names, or ready for the exchange of R274. R276, R379:
MODEL_UNLOAD marks the model, reports its references, and the model leaves at once if it has none; an empty slot answers
WRONG_STATE, and one that a load uses BUSY. These complete: MODEL_LOAD, MODEL_LOAD_DONE, MODEL_UNLOAD. -/
def Obligations.ModelsLoadAndUnload : Prop :=
  (∀ (s : State) (fn : Nat) (via : Via) (cmd d : Bytes), Accepts s fn via cmd → rd cmd 0 2 = 0x0012 → rd cmd 8 8 % 64 = 0 →
    d.length = 128 → loadFormed cmd d = true → (partOf s (rd cmd 6 1)).st = .active →
    let u := took s fn via cmd
    let c := askCtx s fn via cmd
    let p := rd cmd 6 1
    let slot := rd cmd 16 1
    ((partOf s p).load ≠ none → exec (.modelLoad fn via (some d)) s = .next (respond u c .busy [])) ∧
    ((partOf s p).load = none → ∀ i : Nat,
      (modelAt (partOf s p) slot = none ∧ i = slot ∨ modelAt (partOf s p) slot ≠ none ∧ i < 4 ∧ i ≠ slot ∧
        modelAt (partOf s p) i = none ∧ (partOf s p).roles.getD i .spare = .spare ∧
        ∀ j, j < i → j ≠ slot → modelAt (partOf s p) j ≠ none ∨ (partOf s p).roles.getD j .spare ≠ .spare) →
      let l := loadOf (ask s fn via cmd) d i
      (loadDiffers u p l = true → exec (.modelLoad fn via (some d)) s = .next (respond u c .conflict [])) ∧
      (loadDiffers u p l = false → exec (.modelLoad fn via (some d)) s =
        .next (askStacks (winUse (winUse (updPart u p fun y => { y with load := some l }) l.wHome.1 1) l.pHome.1 1))))) ∧
  (∀ (s : State) (p : Nat) (l : Load) (w g : Bytes), p < 8 → s.flt.pkg = .serving → s.host.linkUp = true → (partOf s p).load = some l →
    l.ready = false → mayStart (partOf s p) 3 = true → mayStart (partOf s p) 1 = true → stacksHeld s = true →
    let u := charge (winUse (winUse s l.wHome.1 (-1)) l.pHome.1 (-1)) p 3 (l.wHome.2.2 + l.pHome.2.2)
    (∀ code short, checkLoad u p l (some w) (some g) = .fails code short → exec (.modelLoadDone p (some w) (some g)) s =
      .next (allRunsEnd (respond (updPart u p fun x => { x with load := none }) l.ctx code (if code = .noResource then loadBody 0 0 short 0 else [])))) ∧
    (∀ prog ts stream n k ns v, checkLoad u p l (some w) (some g) = .loads prog ts stream n k →
      let m := loadedModel l w prog ts stream n
      openFrames u p .transit (.model l.into) (loadBytes m g).length = some (ns, v) →
      let filled := charge ((ns.zip (loadBytes m g)).foldl (fun t e => sealFrame t e.1 .model e.2) v) p 1 (65536 * (loadBytes m g).length)
      let res := (if stream = true then 2 else 1, n, (loadBytes m g).length)
      (l.into = l.slot → exec (.modelLoadDone p (some w) (some g)) s = .next (allRunsEnd (respond (updPart filled p fun x =>
        { x with slots := x.slots.set l.into (some m), load := none }) l.ctx .success (loadBody res.1 n 0 res.2.2)))) ∧
      (l.into ≠ l.slot → exec (.modelLoadDone p (some w) (some g)) s = .next (allRunsEnd (updPart filled p fun x =>
        { x with slots := x.slots.set l.into (some m), load := some { l with ready := true, result := res } }))))) ∧
  ∀ (s : State) (fn : Nat) (via : Via) (cmd : Bytes), Accepts s fn via cmd → rd cmd 0 2 = 0x0013 → bodyZero cmd [(8, 1)] = true →
    rd cmd 8 1 < 4 → (partOf s (rd cmd 6 1)).st = .active ∨ (partOf s (rd cmd 6 1)).st = .draining →
    let u := took s fn via cmd
    let c := askCtx s fn via cmd
    let p := rd cmd 6 1
    let slot := rd cmd 8 1
    (modelAt (partOf s p) slot = none → exec (.modelUnload fn via) s = .next (respond u c .wrongState [])) ∧
    (∀ l y, modelAt (partOf s p) slot = some y → (partOf s p).load = some l → (l.slot = slot ∨ l.into = slot) →
      exec (.modelUnload fn via) s = .next (respond u c .busy [])) ∧
    (∀ y, modelAt (partOf s p) slot = some y → (∀ l, (partOf s p).load = some l → l.slot ≠ slot ∧ l.into ≠ slot) →
      exec (.modelUnload fn via) s = .next (respond (reapModels (updModel u p slot fun z => { z with unloading := true }) p) c .success
        (leBytes 4 (modelRefs u p y.key))))

/-- TENANT_SET makes, changes and removes tenants; KEY_INSTALL adds a generation of a tenant's key. R382, R341, R103: CREATE of
a new id by the partition's administrator adds exactly that tenant, with a full bucket where this member leads the partition
(only the leader keeps buckets, R102), no keys and zero counters; an existing id is CONFLICT and a 1,025th tenant NO_RESOURCE.
MODIFY changes only the masked fields of the tenant, RATE and BURST waiting for the next freeze instant, once the idle actions
of its requests that were due before are taken; a change of IDLE_ACTION then acts on those due now (R137). DELETE of a tenant with no live request, no adapter and no busy VF removes it and its keys (R454).
An unknown tenant answers TENANT_UNKNOWN. R383, R452: a KEY_INSTALL whose generation is above those held, under the
function's session, whose wrapped key opens, that evicts no generation a parking record names, and whose KCV is the leader's,
puts the key in front and keeps at most four; another KCV is CONFLICT (R453). R462, R463: after DEBUG was entered since the last cold boot, and in RETIRED, it completes WRONG_STATE.
These complete: TENANT_SET_CREATE, TENANT_SET_MODIFY, TENANT_SET_DELETE, KEY_INSTALL. -/
def Obligations.TenantsAreSetAndKeyed : Prop :=
  (∀ (s : State) (fn : Nat) (via : Via) (cmd : Bytes), Accepts s fn via cmd → rd cmd 0 2 = 0x0030 → tenantFormed cmd = true →
    (partOf s (rd cmd 6 1)).st = .active → tenantRanges s (readTenantBody cmd) = true →
    let u := took s fn via cmd
    let c := askCtx s fn via cmd
    let b := readTenantBody cmd
    let p := rd cmd 6 1
    let done := fun (v : State) => respond v c .success (leBytes 2 v.tenants.length)
    (rd cmd 10 1 = 1 →
      (tenantOf s b.tenant ≠ none → exec (.tenantSetCreate fn via) s = .next (respond u c .conflict [])) ∧
      (tenantOf s b.tenant = none → 1024 ≤ s.tenants.length → exec (.tenantSetCreate fn via) s = .next (respond u c .noResource [])) ∧
      (tenantOf s b.tenant = none → s.tenants.length < 1024 → vfCode s b.tenant 0 b.vf = none →
        let n := newTenant p (leads u p) b
        exec (.tenantSetCreate fn via) s = .next (done { u with tenants := u.tenants ++ [n] }) ∧
        n.bal = (if leads u p = true then b.burst * tokenUnits else 0) ∧ n.res = 0 ∧ n.keys = [] ∧ n.part = p ∧ n.vf = b.vf)) ∧
    (rd cmd 10 1 = 2 →
      (tenantOf s b.tenant = none → exec (.tenantSetModify fn via) s = .next (respond u c .tenantUnknown [])) ∧
      (∀ t, tenantOf s b.tenant = some t → t.part = p → vfCode s t.id t.vf (if bit b.mask 0 = true then b.vf else t.vf) = none →
        let v := updTenant (u.reqs.foldl (fun w q => if q.tenant == t.id && leads w q.part then idleBy w c.accept q.h else w) u) t.id
          fun x => maskTenant x b
        exec (.tenantSetModify fn via) s = .next (done (if bit b.mask 5 = true then idleTenant v t.id c.accept else v)) ∧
        ((∀ q ∈ s.reqs, q.tenant ≠ t.id) →
          exec (.tenantSetModify fn via) s = .next (done (updTenant u t.id fun x => maskTenant x b))) ∧
        (maskTenant t b).rate = t.rate ∧ (maskTenant t b).burst = t.burst ∧ (maskTenant t b).bal = t.bal ∧
        (bit b.mask 3 = true → (maskTenant t b).weight = b.weight) ∧ (bit b.mask 3 = false → (maskTenant t b).weight = t.weight))) ∧
    (rd cmd 10 1 = 3 →
      (tenantOf s b.tenant = none → exec (.tenantSetDelete fn via) s = .next (respond u c .tenantUnknown [])) ∧
      (∀ t, tenantOf s b.tenant = some t → t.part = p → (t.vf = 0 ∨ vfBusy s t.vf = false) →
        (∀ q ∈ s.reqs, q.tenant = t.id → living q = false) → (∀ a ∈ s.adapters, a.part = t.part → a.owner ≠ t.id) →
        exec (.tenantSetDelete fn via) s = .next (done { u with tenants := u.tenants.filter fun x => x.id != t.id })))) ∧
  ∀ (s : State) (fn : Nat) (via : Via) (cmd d : Bytes) (t : Tenant), Accepts s fn via cmd → rd cmd 0 2 = 0x0031 →
    rd cmd 16 8 % 64 = 0 → d.length = 64 → bodyZero cmd [(8, 4), (16, 8)] = true →
    (partOf s (rd cmd 6 1)).st = .active ∨ (partOf s (rd cmd 6 1)).st = .draining →
    let u := took s fn via cmd
    let c := askCtx s fn via cmd
    (s.boot.keyBar = true ∨ s.boot.lock = .retired → exec (.keyInstall fn via (some d)) s = .next (respond u c .wrongState [])) ∧
    (s.boot.keyBar = false → s.boot.lock ≠ .retired → tenantOf s (rd cmd 4 2) = some t → t.part = rd cmd 6 1 →
      ((∃ k ∈ t.keys, rd cmd 8 4 ≤ k.gen) → exec (.keyInstall fn via (some d)) s = .next (respond u c .invalidField [])) ∧
      ((∀ k ∈ t.keys, k.gen < rd cmd 8 4) →
        ((fnOf s fn).session = none → exec (.keyInstall fn via (some d)) s = .next (respond u c .wrongState [])) ∧
        (∀ k, (fnOf s fn).session = some k → unwrapKey k t.id t.part (rd cmd 8 4) d = none →
          exec (.keyInstall fn via (some d)) s = .next (respond u c .keyInvalid [])) ∧
        (∀ k key, (fnOf s fn).session = some k → unwrapKey k t.id t.part (rd cmd 8 4) d = some key → evictsNamed s t = false →
          (∃ b, leaderTold u t.part (partOf u t.part).items.groupSize .key (keyKey t.id (rd cmd 8 4)) = some b ∧ b ≠ kcv key) →
          exec (.keyInstall fn via (some d)) s = .next (respond u c .conflict [])) ∧
        (∀ k key, (fnOf s fn).session = some k → unwrapKey k t.id t.part (rd cmd 8 4) d = some key → evictsNamed s t = false →
          (∀ b, leaderTold u t.part (partOf u t.part).items.groupSize .key (keyKey t.id (rd cmd 8 4)) = some b → b = kcv key) →
          exec (.keyInstall fn via (some d)) s = .next (respond (updTenant u t.id fun x =>
            { x with keys := ({ gen := rd cmd 8 4, key := key, uses := 0 } :: x.keys).take 4 }) c .success []))))

/-- A port trains from DETECT to ACTIVE, and a state that fails returns it to DETECT or sends it DOWN. R307 to R310, R402:
LINK_SET ENABLE starts a named port that is DISABLED or DOWN in DETECT, or, while it still sends HOLD of a warm reset, at the end
of that (the several ports of one mask 1,000 ticks apart, log 83), and RETRAIN sends ACTIVE ones to RECOVERY and DOWN ones to
DETECT; both complete SUCCESS. Within the state's limit of Table LNK-2, DETECT with at least four good lanes and power goes to EQ,
EQ to ALIGN, ALIGN to LINK_INIT with SEQ and counters at 0, framing found, every VC's credits at its buffer, and IDENT sent. An IDENT of the same group and
another member sets the credits the peer advertises; any other sends the port DOWN with GROUP_MISMATCH. LINK_INIT with an
IDENT goes to RTT with a first PING; a PING is answered by an ECHO that carries the DTC; an ECHO measures a round trip and
asks for the next until 16 are done. A port that measured more than 120 ticks goes DOWN with RTT_EXCEEDED, otherwise ACTIVE,
limited above 60; to a peer that no other ACTIVE port reaches, this member's notices are told anew (log 24). RECOVERY with four
good lanes replays and is in the state again that it came from (log 77), with fewer it goes DOWN. A state completes only within
its limit; beyond it the port returns to DETECT, DETECT is tried again 10 ms after it began, RECOVERY goes DOWN. A port in HOLD
whose peer leaves HOLD returns to DETECT. These complete: LINK_SET_PORT_ENABLE, LINK_SET_PORT_RETRAIN, PORT_STATE_DONE,
PORT_STATE_TIMEOUT, IDENT, PING, ECHO, PEER_LEAVES_HOLD. -/
def Obligations.PortsTrainToActive : Prop :=
  (∀ (s : State) (fn : Nat) (via : Via) (cmd : Bytes), Accepts s fn via cmd → rd cmd 0 2 = 0x0014 → rd cmd 8 1 = 2 →
    linkSetOk cmd = true →
    let u := took s fn via cmd
    let c := askCtx s fn via cmd
    (rd cmd 9 1 = 1 → exec (.linkSetPortEnable fn via) s = .next (respond (enablePorts u (rd cmd 10 2)) c .success []) ∧
      ∀ n, n < 12 → rd cmd 10 2 = 2 ^ n → enablePorts u (rd cmd 10 2) =
        if (portOf u n).st = .disabled ∨ (portOf u n).st = .down then
          (if (portOf u n).holdUntil ≤ s.boot.dtc then detectPort u n
           else updPort u n fun p => { p with startAt := some (portOf u n).holdUntil })
        else u) ∧
    (rd cmd 9 1 = 3 → ∀ n, n < 12 → rd cmd 10 2 = 2 ^ n → exec (.linkSetPortRetrain fn via) s = .next (respond (
      match (portOf u n).st with | .active => enterRecovery u n | .down => detectPort u n | _ => u) c .success []))) ∧
  ([PortState.detect, .eq, .align, .linkInit, .rtt, .recovery].map stateLimit = [100000, 4000000, 200000, 100000, 10000, 200000]) ∧
  ∀ (s : State) (n : Nat), n < 12 → Live s →
    let p := portOf s n
    let within := s.boot.dtc ≤ p.since + stateLimit p.st
    let first := ∃ i, peerIndex s n = some i ∧ bondPorts s i = []
    let askAct := fun (t : State) => { t with gov := govAsk t.gov (400 + n) .standing 1 t.boot.dtc }
    (within → ∀ info : TrainInfo,
      (p.st = .detect → 4 ≤ info.goodLanes → 208 + n ∈ s.gov.on →
        exec (.portStateDone n info) s = .next (updPort s n fun q => { q with st := .eq, since := s.boot.dtc })) ∧
      (p.st = .eq → exec (.portStateDone n info) s = .next (updPort s n fun q => { q with st := .align, since := s.boot.dtc })) ∧
      (p.st = .align → 4 ≤ info.goodLanes → ∃ f : Port → Port,
        (∀ q, (f q).st = .linkInit ∧ (f q).since = s.boot.dtc ∧ (f q).rxCount = 0 ∧ (f q).txStart = q.wire.length ∧ (f q).txSeq = 0 ∧ (f q).rxSeq = 0 ∧ (f q).replay = [] ∧ (f q).peer = none ∧
          (f q).vcs.map (·.credits) = [32, 256, 256, 32] ∧ (f q).vcs.map (·.txFlits) = [0, 0, 0, 0] ∧
          ((f q).spare = true → 5 ≤ info.goodLanes ∧ info.spare = true)) ∧
        exec (.portStateDone n info) s = .next (portSend (updPort s n f) n 3 (identMsg (updPort s n f) n))) ∧
      (p.st = .linkInit → p.peer ≠ none → exec (.portStateDone n info) s = .next (portSend (updPort s n fun q =>
        { q with st := .rtt, since := s.boot.dtc, pings := q.pings ++ [s.boot.dtc] }) n 3 (linkHeader 0x05 0x03 0 0xFF 0 0 0 0))) ∧
      (p.st = .rtt → 16 ≤ p.echoes → 120 < p.rtt → exec (.portStateDone n info) s = .next (portDown s n .rttExceeded)) ∧
      (p.st = .rtt → 16 ≤ p.echoes → p.rtt ≤ 120 →
        let u := updPort s n fun q => { q with st := .active, since := s.boot.dtc, limited := decide (60 < p.rtt) }
        (¬ first → exec (.portStateDone n info) s = .next (pumpState (askAct u) n)) ∧
        (first → exec (.portStateDone n info) s = .next (pumpState (askAct (retell u)) n))) ∧
      (p.st = .recovery → info.goodLanes < 4 → exec (.portStateDone n info) s = .next (portDown s n .recoveryFailed)) ∧
      (p.st = .recovery → 4 ≤ info.goodLanes → ∃ f : Port → Port,
        (∀ q, (f q).st = q.back ∧ (f q).replay = q.replay ∧ (f q).txSeq = q.txSeq ∧ (f q).vcs = q.vcs ∧ (f q).rxCount = 0 ∧
          (f q).wire = q.wire ++ q.replay.map (·.bytes)) ∧
        exec (.portStateDone n info) s = .next (pumpState (if p.back = .active then askAct (updPort s n f) else updPort s n f) n))) ∧
    (¬ within → ∀ info, exec (.portStateDone n info) s = .next s) ∧
    (∀ info : IdentInfo, p.st = .linkInit →
      let u := takeLink s n 5 fun m => m.kind == 2
      (info.groupId = s.group.id ∧ info.groupSize = s.group.size ∧ info.groupIndex ≠ s.group.index ∧ info.groupIndex < s.group.size →
        exec (.ident n info) s = .next (updPort u n fun q => { q with peer := some info, vcs := (q.vcs.zipIdx).map fun e =>
          { e.1 with credits := info.buffers.getD e.2 0 - (e.1.txFlits - e.1.rxCredits) } })) ∧
      (¬ (info.groupId = s.group.id ∧ info.groupSize = s.group.size ∧ info.groupIndex ≠ s.group.index ∧ info.groupIndex < s.group.size) →
        exec (.ident n info) s = .next (portDown u n .groupMismatch))) ∧
    (p.st = .linkInit ∨ p.st = .rtt ∨ p.st = .active → exec (.ping n) s = .next (portSend (takeLink s n 5 fun m => m.kind == 3) n 3
      (linkHeader 0x05 0x04 8 0xFF 0 0 0 0 ++ leBytes 8 s.boot.dtc))) ∧
    (∀ t ts dtc, p.st = .rtt → p.pings = t :: ts →
      let u := coarseSet (updPort (takeLink s n 5 fun m => m.kind == 4) n fun q =>
        { q with pings := ts, echoes := q.echoes + 1, rtt := max q.rtt (s.boot.dtc - t) }) n dtc (s.boot.dtc - t)
      exec (.echo n dtc) s = .next (if p.echoes + 1 < 16 then sendPing u n else u)) ∧
    (within → exec (.portStateTimeout n) s = .next s) ∧
    (¬ within → p.st = .eq ∨ p.st = .align ∨ p.st = .linkInit ∨ p.st = .rtt → exec (.portStateTimeout n) s = .next (detectPort s n)) ∧
    (p.st = .detect → p.since + 1000000 ≤ s.boot.dtc →
      exec (.portStateTimeout n) s = .next (updPort s n fun q => { q with st := .detect, since := s.boot.dtc })) ∧
    (¬ within → p.st = .recovery → exec (.portStateTimeout n) s = .next (portDown s n .recoveryFailed)) ∧
    (p.st = .hold → p.holding = false → exec (.peerLeavesHold n) s = .next (detectPort s n))

/-- A port leaves its bond in steps, and a port that goes DOWN ends or re-runs what used it. R326, R379: LINK_SET GROUP sets
identity, size and index while every port is DISABLED or DOWN and no partition spans, and otherwise completes BUSY. R332:
LINK_SET DISABLE of a port without a link disables it at once; the last ACTIVE port to a member that a partition spans
answers CONFLICT; any other ACTIVE port becomes LEAVING. DISABLE_REQ at an end that does not use the port is acknowledged
and the port DISABLED; DISABLE_ACK completes the message. A LEAVING port not drained 10,000 ticks after its last use is
doubt 0x0F. R330, R331: a port that goes DOWN is recorded with its reason and counted; where the bond keeps a port its
attempts are killed for a re-run and the peer is told; the last port to a member that a partition spans is doubt 0x10. A
port already DISABLED or DOWN stays as it is; one that was not ACTIVE, nor in RECOVERY from ACTIVE, was no part of a bond.
These complete: LINK_SET_GROUP, LINK_SET_PORT_DISABLE, DISABLE_REQ, DISABLE_ACK, PORT_DISABLE_TIMEOUT, PORT_DOWN. -/
def Obligations.PortsLeaveAndGoDown : Prop :=
  (∀ (s : State) (fn : Nat) (via : Via) (cmd : Bytes), Accepts s fn via cmd → rd cmd 0 2 = 0x0014 → linkSetOk cmd = true →
    let u := took s fn via cmd
    let c := askCtx s fn via cmd
    (rd cmd 8 1 = 1 →
      ((∀ p ∈ s.ports, p.st = .disabled ∨ p.st = .down) → (∀ x ∈ s.parts, x.st ≠ .disabled → x.items.groupSize ≤ 1) →
        exec (.linkSetGroup fn via) s = .next (respond { u with
          group := { u.group with id := rd cmd 16 8, size := rd cmd 12 1, index := rd cmd 13 1 }, notices := []
          pins := { u.pins with coarseSet := false } } c .success [])) ∧
      ((∃ p ∈ s.ports, p.st ≠ .disabled ∧ p.st ≠ .down) ∨ (∃ x ∈ s.parts, x.st ≠ .disabled ∧ 1 < x.items.groupSize) →
        exec (.linkSetGroup fn via) s = .next (respond u c .busy []))) ∧
    (∀ n, n < 12 → rd cmd 8 1 = 2 → rd cmd 9 1 = 2 → rd cmd 10 2 = 2 ^ n →
      ((portOf s n).leaving ≠ none → exec (.linkSetPortDisable fn via) s = .next (respond u c .busy [])) ∧
      ((portOf s n).leaving = none → (portOf s n).st = .down → exec (.linkSetPortDisable fn via) s = .next (respond
        (updPort u n fun p => { p with startAt := none }) c .success [])) ∧
      ((portOf s n).leaving = none → (portOf s n).st ≠ .active → (portOf s n).st ≠ .down → exec (.linkSetPortDisable fn via) s = .next (respond
        (updPort (portPowerOff u n) n fun p => { clearLink p with st := .disabled }) c .success [])) ∧
      ((portOf s n).leaving = none → (portOf s n).st = .active →
        (∀ i p, p < 8 → peerIndex s n = some i → bondPorts s i = [n] → activeSpans s p i = true →
          exec (.linkSetPortDisable fn via) s = .next (respond u c .conflict [])) ∧
        ((∀ i p, p < 8 → peerIndex s n = some i → bondPorts s i = [n] → activeSpans s p i = false) →
          exec (.linkSetPortDisable fn via) s = .next (leaveStep (updPort u n fun p => { p with leaving := some (c, 0) }) n))))) ∧
  ∀ (s : State) (n : Nat), n < 12 → Live s →
    let p := portOf s n
    (p.st = .active → portInUse s n = false →
      let u := portSend (takeLink s n 5 fun m => m.kind == 9) n 3 (linkHeader 0x05 0x0A 0 0xFF 0 0 0 0)
      exec (.disableReq n) s = .next (if (portOf u n).leaving.isSome = true then finishLeaving u n
        else updPort (portPowerOff u n) n fun q => { clearLink q with st := .disabled })) ∧
    (∀ c t, p.disableSent = true → p.leaving = some (c, t) → exec (.disableAck n) s = .next (respond
      (updPort (portPowerOff s n) n fun q => { clearLink q with st := .disabled, leaving := none }) c .success [])) ∧
    (∀ c t, 0 < t → t + 10000 ≤ s.boot.dtc → p.leaving = some (c, t) →
      ((portOf (markIdlePorts s) n).st = .active → drained (portOf (markIdlePorts s) n) = false →
        exec (.portDisableTimeout n) s = .next (doubt (markIdlePorts s) 0x0F 0xFF n 0)) ∧
      ((portOf (markIdlePorts s) n).st = .down → exec (.portDisableTimeout n) s = .next (finishLeaving (markIdlePorts s) n))) ∧
    (∀ r, p.st = .disabled ∨ p.st = .down → exec (.portDown n r) s = .next s) ∧
    (∀ r, p.st ≠ .disabled → p.st ≠ .down →
      let u := updPort (portPowerOff s n) n fun q => { clearLink q with
        st := .down, reason := downOf r, downs := satAdd 32 q.downs 1, replay := q.replay, txq := q.txq, rxSeq := q.rxSeq }
      let was := p.st = .active ∨ (p.st = .recovery ∧ p.back = .active)
      (¬ was ∨ peerIndex u n = none → exec (.portDown n r) s = .next (finishLeaving u n)) ∧
      (∀ i, was → peerIndex u n = some i →
        (∀ via rest, bondPorts u i = via :: rest →
          exec (.portDown n r) s = .next (finishLeaving (sendPortLost (killBond (forgetPort u n) n) n via) n)) ∧
        (bondPorts u i = [] →
          let v := forgetMember (finishLeaving u n) i
          (∀ q, q < 8 → activeSpans v q i = true → exec (.portDown n r) s = .next (doubt v 0x10 0xFF n 0)) ∧
          ((∀ q, q < 8 → activeSpans v q i = false) → exec (.portDown n r) s = .next v))))

/-- A failed lane goes onto the spare; without one the port recovers; recalibration uses the spare, each position in its turn.
R305, R306: a lane fails when it loses lock or its error ratio over 2^30 symbols exceeds 2 × 10^-4, and otherwise nothing happens.
A failed position on a port with a free healthy spare is steered onto S: the peer is asked for the steer, and it takes effect at the
first superframe received after the peer's agreement; without a free spare the port enters RECOVERY. S failing while it carries
nothing costs the port its spare, a position being recalibrated going back at once. A STEER of the peer is agreed to and made by this
transmitter at its next superframe. A position is recalibrated on S only in its turn, S itself once every position has had one;
while S replaces a failed lane the pause is counted; a good position is steered back, a bad one stays on S for good. Only the port
changes, and the messages named. These complete: STEER, LANE_FAILURE, LANE_RECAL_START, LANE_RECAL_DONE. (The bodies of STEER: log 19.) -/
def Obligations.LanesAreSteeredAndRecalibrated : Prop :=
  (∀ (q : Port) (l : Nat), (steerOn q l).steered = some l ∧ (steerOn q l).spare = false ∧ (steerOn q l).recal = none ∧
    (steerOn q l).lanes = modAt q.lanes l (fun x => { x with failed := true, steers := satAdd 32 x.steers 1 }) ∧
    steerOn q l = { q with steered := some l, spare := false, recal := none, lanes := (steerOn q l).lanes }) ∧
  (∀ (q : Port) (fec : FecInfo) (l : Nat) (act : SteerAct), q.due = some (l, act) →
    (q.rxCount % 1285 = 0 → (framed q fec).due = none ∧ (framed q fec).steered = (if act = .replace then some l else q.steered) ∧
      (framed q fec).recal = if act = .recal then some l else none) ∧
    (q.rxCount % 1285 ≠ 0 → (framed q fec).due = q.due ∧ (framed q fec).steered = q.steered ∧ (framed q fec).recal = q.recal)) ∧
  (∀ (x : Lane) (cw : Nat), ratioBad x cw =
    decide (2 ^ 30 < 5000 * sumNat ((x.errs.filter fun e => decide (cw < e.1 + 7895160)).map (·.2)))) ∧
  ∀ (s : State) (n l : Nat), n < 12 → Live s →
    let p := portOf s n
    let free := p.spare = true ∧ p.steered = none ∧ (∀ e, p.asked = some e → e.2 ≠ .replace) ∧ (∀ e, p.due = some e → e.2 ≠ .replace)
    let failed := fun (q : Port) => { q with lanes := modAt q.lanes l fun x => { x with failed := true } }
    let bad := fun (lock : Bool) => lock = true ∨ ratioBad (p.lanes.getD l .reset) (2048 * p.rxCount / 5140) = true
    (l < 4 → linkUp p = true → ∀ act,
      let u := takeLink s n 5 fun m => m.kind == 5
      exec (.steer n ⟨l, act, false⟩) s = .next (portSend (updPort u n fun q => { q with txSteers := q.txSteers ++
        [(q.txStart + ((q.wire.length - q.txStart) / 1285 + 1) * 1285, if act = .back then none else some l)] }) n 3 (steerMsg l act true)) ∧
      exec (.steer n ⟨l, act, true⟩) s = .next (updPort u n fun q =>
        if q.asked = some (l, act) then { q with asked := none, due := some (l, act) } else q)) ∧
    (l < 5 → linkUp p = true → ∀ lock,
      (¬ bad lock → exec (.laneFailure n ⟨l, lock⟩) s = .next s) ∧
      (bad lock → l < 4 → free → exec (.laneFailure n ⟨l, lock⟩) s = .next (askSteer (updPort s n failed) n l .replace)) ∧
      (bad lock → l < 4 → ¬ free → exec (.laneFailure n ⟨l, lock⟩) s = .next (enterRecovery (updPort s n failed) n)) ∧
      (bad lock → l = 4 → p.steered = none → ∀ k, p.recal = some k → k < 4 → exec (.laneFailure n ⟨l, lock⟩) s =
        .next (askSteer (updPort s n fun q => { failed q with spare := false }) n k .back)) ∧
      (bad lock → l = 4 → p.steered = none → p.recal = none →
        exec (.laneFailure n ⟨l, lock⟩) s = .next (updPort s n fun q => { failed q with spare := false })) ∧
      (bad lock → l = 4 → p.steered ≠ none → exec (.laneFailure n ⟨l, lock⟩) s = .next (enterRecovery (updPort s n failed) n))) ∧
    (l < 5 → p.st = .active → p.recal = none → p.asked = none → p.due = none →
      (p.steered ≠ none → exec (.laneRecalStart n l) s = .next (updPort s n fun q =>
        { q with lanes := modAt q.lanes l fun x => { x with paused := satAdd 32 x.paused 1 } })) ∧
      (p.steered = none → p.spare = true →
        (l < 4 → l ∉ p.turned → exec (.laneRecalStart n l) s = .next (askSteer s n l .recal)) ∧
        (l < 4 → l ∈ p.turned → exec (.laneRecalStart n l) s = .next s) ∧
        (l = 4 → (∀ k, k < 4 → k ∈ p.turned) → exec (.laneRecalStart n l) s = .next (updPort s n fun q => { q with recal := some 4 })) ∧
        (l = 4 → (∃ k, k < 4 ∧ k ∉ p.turned) → exec (.laneRecalStart n l) s = .next s))) ∧
    (l < 5 → p.recal = some l → p.asked = none → p.due = none →
      let done := fun (q : Port) => { q with lanes := modAt q.lanes l (fun x => { x with recals := satAdd 32 x.recals 1 })
                                             turned := if l = 4 then [] else q.turned ++ [l] }
      (l < 4 → exec (.laneRecalDone n l true) s = .next (askSteer (updPort s n done) n l .back) ∧
        exec (.laneRecalDone n l false) s = .next (updPort s n fun q => steerOn (done q) l)) ∧
      (l = 4 → exec (.laneRecalDone n l true) s = .next (updPort s n fun q => { done q with recal := none }) ∧
        exec (.laneRecalDone n l false) s = .next (updPort s n fun q => { failed (done q) with spare := false, recal := none })))

/-- A flit that is intact and expected is accepted, any other is dropped or NAKed; the link ledger must balance. R303, R304: every
flit received counts towards the codewords and superframes, corrected symbols are counted on the lane that carried them, an
uncorrectable codeword once on each, and a flit with a bit in one is treated as failing its CRC. R313 to R315: on a port that
transmits, a flit that fails its CRC or codeword is discarded and counted, and a DATA one asks once for its SEQ again. An intact IDLE flit applies its ACK and credits; an intact NAK applies them, then goes back in the replay buffer;
an intact DATA flit with another SEQ than the expected one changes nothing but the NAK; the expected one is accepted: the
SEQ expected and the counts of its VC advance, or it is doubt 0x0E where no buffer is left. A NAK still unanswered is sent
again; freed credits and accepted flits go out in IDLE flits. R335: a LEDGER that equals this end's RX counts changes
nothing, any other is doubt 0x0F, and an ACTIVE port sends its TX counts. These complete:
LINK_FLIT_RECEIVED, NAK_RESEND_TIMEOUT, ACK_CREDIT_TIMER, LEDGER, LEDGER_SEND. -/
def Obligations.FlitsAreCheckedAndAcknowledged : Prop :=
  (∀ (p : Port) (h : Nat), (applyHeader p h).vcs = modAt p.vcs (bits h 34 33) (fun c =>
      { c with credits := c.credits + bits h 32 24, outBy := c.outBy.drop (bits h 32 24), rxCredits := (c.rxCredits + bits h 32 24) % 2 ^ 48 }) ∧
    (bit h 35 = true → (applyHeader p h).replay = p.replay.filter fun f => decide (2048 ≤ (bits h 51 40 + 4096 - f.seq) % 4096)) ∧
    (bit h 35 = false → (applyHeader p h).replay = p.replay)) ∧
  (∀ k, flitCws k = if 2048 * k / 5140 = (2048 * k + 2047) / 5140 then [2048 * k / 5140] else [2048 * k / 5140, (2048 * k + 2047) / 5140]) ∧
  (∀ (p : Port) (fec : FecInfo) (l : Nat), p.lanes.length = 5 → l < 4 → p.due = none → p.steered = none → p.recal = none →
    let x := (framed p fec).lanes.getD l .reset
    let y := p.lanes.getD l .reset
    (framed p fec).rxCount = p.rxCount + 1 ∧ x.corr = (if fec.corr.getD l 0 = 0 then y.corr else satAdd 32 y.corr (fec.corr.getD l 0)) ∧
    x.uncorr = satAdd 32 y.uncorr ((lostCws p fec).filter fun c => decide (p.lostCw ≠ some c)).length) ∧
  ∀ (s : State) (n : Nat), n < 12 → Live s →
    let p := portOf s n
    let after := fun (t : State) => leaveStep (pumpState t n) n
    (∀ (flit : Bytes) (fec : FecInfo), txOn p = true →
      let h := rd flit 0 8
      let r := updPort s n fun q => framed q fec
      let good := lostCws p fec = [] ∧ flit.length = 256 ∧ slice flit 248 8 = leBytes 8 (crc64 (slice flit 0 248)).toNat
      (¬ good → exec (.linkFlitReceived n flit fec) s =
        .next (after (updPort r n fun q => badFlit q (bits h 37 36 == 1 || bits h 37 36 == 2)))) ∧
      (good → bits h 37 36 = 1 → exec (.linkFlitReceived n flit fec) s = .next (after (updPort r n fun q => applyHeader q h))) ∧
      (good → bits h 37 36 = 2 → exec (.linkFlitReceived n flit fec) s = .next (after (nakIn (updPort r n fun q => applyHeader q h) n))) ∧
      (good → bits h 37 36 = 0 → bits h 63 52 ≠ p.rxSeq → exec (.linkFlitReceived n flit fec) s = .next (after (updPort r n nakOnce))) ∧
      (good → bits h 37 36 = 0 → bits h 63 52 = p.rxSeq →
        let u := updPort r n fun q => applyHeader q h
        let v := bits h 39 38
        (bufferOf v ≤ (vcOf (portOf u n) v).rxUsed → exec (.linkFlitReceived n flit fec) s = .next (after (doubt u 0x0E 0xFF n 0))) ∧
        ((vcOf (portOf u n) v).rxUsed < bufferOf v → exec (.linkFlitReceived n flit fec) s = .next (after (
          updPort (takePayload (updPort u n fun q => updVc { q with rxSeq := (q.rxSeq + 1) % 4096, naking := false, unacked := q.unacked + 1 } v
            fun c => { c with rxUsed := c.rxUsed + 1, rxFlits := (c.rxFlits + 1) % 2 ^ 48 }) n v (slice flit 8 240)) n
          fun q => if 16 ≤ q.unacked ∧ txOn q = true then putIdle q else q))))) ∧
    exec (.nakResendTimeout n) s = .next (updPort s n fun q => if txOn q = true ∧ q.naking = true then putNak q else q) ∧
    exec (.ackCreditTimer n) s = .next (leaveStep (updPort s n fun q => if txOn q = true then idleFlits 5 q else q) n) ∧
    (p.st = .active → ∀ tf tc : List Nat,
      let u := takeLink s n 5 fun m => m.kind == 6
      (tf = (portOf u n).vcs.map (·.rxFlits) → tc = (portOf u n).vcs.map (·.rxCredits) → exec (.ledger n tf tc) s = .next u) ∧
      (tf ≠ (portOf u n).vcs.map (·.rxFlits) ∨ tc ≠ (portOf u n).vcs.map (·.rxCredits) →
        exec (.ledger n tf tc) s = .next (doubt u 0x0F 0xFF n 0))) ∧
    (p.st = .active → p.holding = false →
      let u := updPort s n (idleFlits 5)
      let q := portOf u n
      let ahead := sumNat ((q.txq.filter fun m => m.vc == 3).map fun m => ceilDiv m.bytes.length 240)
      exec (.ledgerSend n) s = .next (leaveStep (portSend u n 3 (linkHeader 0x05 0x06 64 0xFF 0 0 0 0 ++
        ((q.vcs.zipIdx).map fun e => (e.1.txFlits + if e.2 = 3 then ahead + 1 else 0) % 2 ^ 48).flatMap (leBytes 8) ++
        q.vcs.flatMap fun v => leBytes 8 v.txCredits)) n))

/-- A peer's message acts on the attempt its TAG names, waits for it, or is discarded with a killed one. R318 to R321, R324: a
tensor message of known form whose TAG names an attempt that executes here is put into the channel of its rank's cluster in
order, one message for each 64 bytes of TENSOR_WRITE, one for an XP_REDUCE, which a waiting binding takes at once; one for
an attempt frozen and not granted waits and changes nothing; one of a killed attempt under reclaim is discarded; one of
unknown form or of no attempt is doubt 0x0E. PLACE_RETURN gives its rank back the places of the channel's oldest messages. A semaphore message
runs at its home or answers here. A CREDIT_RECLAIM REQ opens the reclaim; when every flit has arrived, it is acknowledged
and closed; its ACK removes the port from those a killed attempt waits for. A peer's HOLD puts the port into HOLD, counts
it, what the peer had told is forgotten (log 24), and in SERVING the partitions that span the peer end. PORT_LOST re-sends what the
peer has not received on the surviving port. These complete: TENSOR_WRITE, XP_REDUCE, PLACE_RETURN, SEM_RELAY, CREDIT_RECLAIM_REQ,
CREDIT_RECLAIM_ACK, HOLD_RECEIVED, PORT_LOST. -/
def Obligations.PeerMessagesReachTheirAttempt : Prop :=
  ∀ (s : State) (n : Nat) (m : LinkMsg), n < 12 → Live s →
    (s.flt.pkg = .serving →
      (msgKnown 1 1 m.kind m.body.length = false → exec (.tensorWrite n m) s = .next (doubt s 0x0E 0xFF n 0)) ∧
      (msgKnown 2 2 m.kind m.body.length = false → exec (.xpReduce n m) s = .next (doubt s 0x0E 0xFF n 0)) ∧
      (msgKnown 1 1 m.kind m.body.length = true →
        (tagKind s n m = .early → exec (.tensorWrite n m) s = .next s) ∧
        (tagKind s n m = .killed → exec (.tensorWrite n m) s = .next (takeLink s n 1 (· == m))) ∧
        (tagKind s n m = .nothing → exec (.tensorWrite n m) s = .next (doubt s 0x0E 0xFF n 0)) ∧
        (∀ a c x, tagKind s n m = .executing a → a.clusters[m.destRank]? = some c → cxOf s c = some x →
          exec (.tensorWrite n m) s = .next (putBodies (takeLink s n 1 (· == m)) c x m))) ∧
      (msgKnown 2 2 m.kind m.body.length = true →
        (tagKind s n m = .early → exec (.xpReduce n m) s = .next s) ∧
        (∀ a c x, tagKind s n m = .executing a → a.clusters[m.destRank]? = some c → cxOf s c = some x →
          let t := takeLink s n 2 (· == m)
          exec (.xpReduce n m) s = .next (deliverHead (chanPut t c m.destChannel { port := 4, base := m.arg, body := m.body, xp := m.kind
                                                                                   esc := 0, layer := 0, src := (tagMember m.tag, tagRank m.tag, sourceChannel t x m) })
            c m.destChannel))) ∧
      (∀ a c, m.kind = 0x10 → m.body = [] → (partOf s m.part).attempt = some a → attemptTag (partOf s m.part) a = m.tag / 65536 →
        a.clusters[m.destRank]? = some c → exec (.placeReturn n m) s = .next (updCluster (takeLink s n 1 (· == m)) c fun cl =>
          { cl with unret := takePlaces m.destChannel m.arg cl.unret })) ∧
      (1 ≤ m.kind → m.kind ≤ 7 → m.body = [] → m.part < 8 → exec (.semRelay n m) s = .next (semRelayIn (takeLink s n 3 (· == m)) m))) ∧
    (linkUp (portOf s n) = true → m.body.length = 16 →
      let u := openReclaim s m.part (m.tag / 65536) n
      ((vcOf (portOf u n) 1).rxFlits ≠ rd m.body 0 8 ∨ (vcOf (portOf u n) 2).rxFlits ≠ rd m.body 8 8 →
        exec (.creditReclaimReq n m) s = .next u) ∧
      ((vcOf (portOf u n) 1).rxFlits = rd m.body 0 8 → (vcOf (portOf u n) 2).rxFlits = rd m.body 8 8 →
        exec (.creditReclaimReq n m) s = .next (updPort (portSend (updPort (takeLink u n 6 (· == m)) n (idleFlits 5)) n 3
          (linkHeader 0x06 0x02 0 m.part 0 0 m.tag 0)) n fun p => { p with reclaimRx := p.reclaimRx.filter (· != (m.part, m.tag / 65536)) }))) ∧
    (∀ a, m.kind = 2 → (partOf s m.part).attempt = some a → a.phase = .killing → attemptTag (partOf s m.part) a = m.tag / 65536 →
      exec (.creditReclaimAck n m) s = .next (updPart (takeLink s n 6 fun x => x.kind == 2 && x == m) m.part fun x =>
        { x with attempt := some { a with reclaims := a.reclaims.filter (· != n) } })) ∧
    ((portOf s n).st ≠ .disabled → (portOf s n).st ≠ .down →
      let u := updPort (portPermits (forgetPort s n) n) n fun p =>
        { clearLink p with st := .hold, holding := (portOf s n).holding, holds := satAdd 32 p.holds 1 }
      (peerIndex s n = none → exec (.holdReceived n) s = .next u) ∧
      (∀ i, peerIndex s n = some i → s.flt.pkg ≠ .serving → exec (.holdReceived n) s = .next (forgetMember u i)) ∧
      (∀ i, peerIndex s n = some i → s.flt.pkg = .serving →
        exec (.holdReceived n) s = .next (forgetPort (endSpanning (forgetMember u i) i) n))) ∧
    (∀ lost seq, lost < 12 → (portOf s lost).st = .down → (portOf s n).st = .active →
      let u := updPort (takeLink s n 5 fun x => x.kind == 8) lost fun p => { p with replay := [], txq := [] }
      let ms := lostMsgs (portOf s lost) seq 3 ++ lostMsgs (portOf s lost) seq 0
      exec (.portLost n lost seq) s = .next (pumpState (updPort u n fun p =>
        { p with txq := p.txq.filter (·.begun) ++ ms ++ p.txq.filter fun x => !x.begun }) n))

/-- A class F message of another member is decided by the leader, relayed by it, and answered at the member. R323, R368, R369: a
class F message of this host for a partition that another member leads leaves this state only a FORWARD to the leader and
its context, which waits. At the leader a forwarded message takes the DTC of its arrival as its acceptance DTC and is
decided with a response that returns by the port it came by. At a member the leader's relay takes effect with the leader's
stamp. The leader's response completes, at the member, the message its host sent, with the leader's acceptance DTC, code and
body. A notice of another member is kept and, where the partition spans, acted on (the model's carrier of what R271, R291 and R364
say members learn of each other: log 24). A malformed one is doubt 0x0E. These complete: MGMT_FORWARD. -/
def Obligations.ForwardedMessagesReachTheLeader : Prop :=
  (∀ (s : State) (fn : Nat) (via : Via) (cmd : Bytes), Accepts s fn via cmd →
    goesToLeader (took s fn via cmd) (ask s fn via cmd) = true →
    let u := took s fn via cmd
    let p := rd cmd 6 1
    let v : State := { u with host := { u.host with forwarded := u.host.forwarded ++ [askCtx s fn via cmd] } }
    let sent := sendMember v (partOf s p).items.groupSize 0 0 (linkHeader 0x05 0x01 72 p 0 0 0 0 ++ leBytes 2 fn ++ zeroBytes 6 ++ cmd)
    (rd cmd 0 2 = 0x0011 → rd cmd 8 1 ≠ 2 → exec (.partitionDisableDrain fn via) s = .next sent) ∧
    (rd cmd 0 2 = 0x0041 → exec (.requestCancel fn via) s = .next sent) ∧
    (rd cmd 0 2 = 0x0050 → exec (.convPark fn via) s = .next sent)) ∧
  ∀ (s : State) (n : Nat) (m : LinkMsg) (d : ReadResult), n < 12 → s.flt.pkg = .serving →
    (m.kind ≠ 1 ∨ m.body.length < 72 → exec (.mgmtForward n m d) s = .next (doubt s 0x0E 0xFF n 0)) ∧
    (m.kind = 1 → 72 ≤ m.body.length →
      let u := takeForward s n m
      let cmd := slice m.body 8 64
      let fn := rd m.body 0 2
      (m.part = 0xFF → ∀ c, (u.host.forwarded.find? fun c => c.opcode == rd cmd 0 2 && c.cid == rd cmd 2 2 && ctxFn c == fn) = some c →
        exec (.mgmtForward n m d) s = .next (respondNum { u with host := { u.host with forwarded := u.host.forwarded.erase c } }
          { c with accept := rd cmd 8 8 } (rd cmd 4 2) (slice cmd 24 40))) ∧
      (m.part ≠ 0xFF → fn = 0xFFFE → ∀ i, peerIndex u n = some i →
        let b := slice m.body 16 (min 56 (rd m.body 2 1))
        let v := hear u { member := i, part := m.part, kind := rd m.body 7 1, key := rd m.body 8 8, body := b }
        (spans v m.part = false → exec (.mgmtForward n m d) s = .next v) ∧
        (spans v m.part = true → exec (.mgmtForward n m d) s = .next (noticeActs v m.part (rd m.body 7 1) (rd m.body 8 8) b))) ∧
      (m.part ≠ 0xFF → fn ≠ 0xFFFF → fn ≠ 0xFFFE → spans u (rd cmd 6 1) = true → leads u (rd cmd 6 1) = true →
        let a := max u.boot.dtc (u.host.lastAccept + 1)
        exec (.mgmtForward n m d) s = .next (coreF d { u with host := { u.host with lastAccept := a } }
          { cmd := cmd, ctx := ctxOf (.link n fn) cmd a, fn := fn })) ∧
      (m.part ≠ 0xFF → fn = 0xFFFF → spans u (rd cmd 6 1) = true → leads u (rd cmd 6 1) = false →
        (partOf u (rd cmd 6 1)).st ≠ .disabled →
        let own := sentBefore u cmd
        exec (.mgmtForward n m d) s = .next (memberTakes u
          { cmd := cmd, ctx := ctxOf .board cmd (rd m.body 72 8), fn := (match own with | some c => ctxFn c | none => 0) }
          own.isSome (rd m.body 80 8) (d.getD []))))

/-- An adapter is registered in two steps, fetched and evicted on demand, and retired at once or when its users have gone. R77
to R79, R384: a registration that passes the checks of its index and owner is pending, its window counts an access, and
frames are taken where the pool has them; when its home has been read and checked, and no member's registration differs (R82), one
adapter more is known, RESIDENT with its frames or ABSENT without, else none, and the pending entry is gone. R96: a demand at the head of the fetch queue starts
where the pool has frames. R84, R90: a fetch whose home reads and verifies makes the adapter RESIDENT with its image; one
whose digest differs makes it BAD; one that cannot be read makes it ABSENT again, its frames freed and its demand first in the
queue, and BAD at the third failure. R87, R100: an evicted adapter gives its
frames back and is ABSENT, or gone if it is RETIRING. R99, R385: ADAPTER_RETIRE marks the adapter, reports its pins and ends
the requests that it must; one whose companion entry names it answers COMPANION_IN_USE, an unknown one ADAPTER_UNKNOWN. These
complete: ADAPTER_REGISTER, ADAPTER_REGISTER_DONE, ADAPTER_FETCH_START, ADAPTER_FETCH_DONE, ADAPTER_EVICTION_DONE,
ADAPTER_RETIRE_DEFER, ADAPTER_RETIRE_FORCE. -/
def Obligations.AdaptersAreRegisteredFetchedAndRetired : Prop :=
  (∀ (s : State) (fn : Nat) (via : Via) (cmd : Bytes), Accepts s fn via cmd → rd cmd 0 2 = 0x0020 → rd cmd 15 1 < 2 →
    (partOf s (rd cmd 6 1)).st = .active →
    let u := took s fn via cmd
    let c := askCtx s fn via cmd
    let r := regOf (ask s fn via cmd)
    (∀ k, ownerCode u (ask s fn via cmd) r = some k → exec (.adapterRegister fn via) s = .next (respond u c k [])) ∧
    (ownerCode u (ask s fn via cmd) r = none →
      (∀ k, indexCode u r = some k → exec (.adapterRegister fn via) s = .next (respond u c k [])) ∧
      (indexCode u r = none →
        let v := winUse { u with regs := u.regs ++ [r] } r.window 1
        (poolFree v r.part < adapterFrames r.length → exec (.adapterRegister fn via) s = .next v) ∧
        (adapterFrames r.length ≤ poolFree v r.part → ∀ ns t, openPool v r.part r.idx (adapterFrames r.length) = some (ns, t) →
          exec (.adapterRegister fn via) s = .next t)))) ∧
  (∀ (s : State) (p i : Nat) (r : PendReg) (home : ReadResult), p < 8 → s.flt.pkg = .serving → s.host.linkUp = true →
    (s.regs.find? fun r => r.part == p && r.idx == i) = some r → mayStart (partOf s p) 3 = true → mayStart (partOf s p) 1 = true →
    runsHeld s (regFrames s r) = true →
    let ns := regFrames s r
    let u := charge (winUse { s with regs := s.regs.filter fun g => !(g.part == p && g.idx == i) } r.window (-1)) p 3
      (homeSpan r.length r.homeSealed)
    (∀ k im md, checkReg u r home = (k, im, md) → k ≠ .success →
      exec (.adapterRegisterDone p i home) s = .next (respond (freeFrames u ns) r.ctx k [])) ∧
    (∀ im md, checkReg u r home = (.success, im, md) → adapterDiffers u p i r.owner r.companion r.digest = true →
      exec (.adapterRegisterDone p i home) s = .next (respond (freeFrames u ns) r.ctx .conflict [])) ∧
    (∀ im md, checkReg u r home = (.success, im, md) → adapterDiffers u p i r.owner r.companion r.digest = false → ∃ t a, exec (.adapterRegisterDone p i home) s =
        .next (respond t r.ctx .success (leBytes 1 (if ns = [] then 1 else 3) ++ zeroBytes 3 ++ leBytes 4 ns.length)) ∧
      t.adapters = s.adapters ++ [a] ∧ a.part = p ∧ a.idx = i ∧ a.owner = r.owner ∧ a.digest = r.digest ∧ a.model = md ∧ a.pins = 0 ∧
      a.retiring = false ∧ a.bad = false ∧ a.frames = ns ∧ t.reqs = s.reqs ∧
      (ns = [] → a.st = .absent ∧ a.image = []) ∧ (ns ≠ [] → a.st = .resident ∧ a.image = im))) ∧
  (∀ (s : State) (p i : Nat) (a : Adapter), p < 8 → s.flt.pkg = .serving →
    (∀ plan q, s.host.linkUp = true → (partOf s p).st = .active ∨ (partOf s p).st = .draining → (partOf s p).fetchQ = (i, plan) :: q →
      demandStep s p i plan = .starts a →
      exec (.adapterFetchStart p) s = .next (beginFetch (updPart s p fun x => { x with fetchQ := q }) p a plan)) ∧
    (∀ home, s.host.linkUp = true → adapterOf s p i = some a → a.st = .fetching → mayStart (partOf s p) 3 = true →
      mayStart (partOf s p) 1 = true → runsHeld s a.frames = true →
      let n := homeSpan a.length a.homeSealed
      let u := charge s a.part 3 n
      let read := ∃ bs, home = some bs ∧ winOk u 0 a.window 0 a.offset n = true ∧ bs.length = n
      let once := updAdapter u a.part a.idx fun b => { b with tries := a.tries + 1 }
      (¬ read → a.tries < 2 → exec (.adapterFetchDone p i home) s = .next (settleRetiring (updPart (dropFetch once a) a.part fun x =>
        { x with fetchQ := (a.idx, a.byPlan) :: x.fetchQ }) a.part)) ∧
      (¬ read → 2 ≤ a.tries → exec (.adapterFetchDone p i home) s = .next (failFetch once a)) ∧
      (∀ bs, read → home = some bs → homeImage u a.owner a.length a.homeSealed a.digest bs = none →
        exec (.adapterFetchDone p i home) s = .next (failFetch u a)) ∧
      (∀ bs im, read → home = some bs → homeImage u a.owner a.length a.homeSealed a.digest bs = some im →
        let v := charge (sealPool (winUse u a.window (-1)) a.frames im) a.part 1 (65536 * a.frames.length)
        exec (.adapterFetchDone p i home) s = .next (settleRetiring (updAdapter v a.part a.idx fun b =>
          { b with st := .resident, image := im, tries := 0, lastUse := s.boot.dtc }) a.part))) ∧
    (adapterOf s p i = some a → a.st = .evicting → exec (.adapterEvictionDone p i) s = .next (settleRetiring
      (updAdapter (freeFrames s a.frames) p i fun b => { b with st := .absent, frames := [], image := [] }) p))) ∧
  ∀ (s : State) (fn : Nat) (via : Via) (cmd : Bytes) (force : Bool), Accepts s fn via cmd → rd cmd 0 2 = 0x0021 →
    rd cmd 10 1 = (if force = true then 2 else 1) → bodyZero cmd [(8, 3)] = true →
    (partOf s (rd cmd 6 1)).st = .active ∨ (partOf s (rd cmd 6 1)).st = .draining →
    let u := took s fn via cmd
    let c := askCtx s fn via cmd
    let p := rd cmd 6 1
    let i := rd cmd 8 2
    let run := exec (if force = true then .adapterRetireForce fn via else .adapterRetireDefer fn via) s
    (adapterOf s p i = none → run = .next (respond u c .adapterUnknown [])) ∧
    (∀ a, adapterOf s p i = some a → (fn = 0 ∨ a.owner = rd cmd 4 2) →
      ((∃ b ∈ s.adapters, b.part = p ∧ b.companion = some i) ∨ (∃ r ∈ s.regs, r.part = p ∧ r.companion = some i) → run = .next (respond u c .companionInUse [])) ∧
      ((∀ b ∈ s.adapters, b.part = p → b.companion ≠ some i) → (∀ r ∈ s.regs, r.part = p → r.companion ≠ some i) →
        (a.retiring = true ∧ (force = false ∨ a.forced = true) → run = .next (respond u c .success (leBytes 4 a.pins))) ∧
        (¬ (a.retiring = true ∧ (force = false ∨ a.forced = true)) → run = .next (respond (settleRetiring (retireUsers (updAdapter u p i fun b =>
          { b with retiring := true, forced := force }) p i c.accept force) p) c .success (leBytes 4 a.pins)))))

/-- REQUEST_SUBMIT checks in its order and makes one request; REQUEST_CANCEL stamps it once. R387, Table MSG-11: at the leader,
a well-formed submit of a tenant of the partition answers WRONG_STATE unless the partition is ACTIVE, MODEL_NOT_RESIDENT
where no base model is offered, INVALID_FIELD for a prompt out of range, the code of its adapters, and NO_RESOURCE where its
quota or tail slot cannot be reserved, in that order. Otherwise it makes the request of its descriptor with the next handle
and submit number of the partition, and completes SUCCESS with both (R372). R177, R373, R388: a cancel of a live request is
stamped with its acceptance DTC, and completes SUCCESS with the stamp of the first REQUEST_CANCEL; an ended one answers
ALREADY_ENDED with what is retained, an unknown one UNKNOWN_HANDLE. What came due for the request before the message was accepted
(an idle freeze, an idle action, an expiry) happens first (log 80). These complete: REQUEST_SUBMIT, REQUEST_CANCEL. -/
def Obligations.RequestsAreSubmittedAndCancelled : Prop :=
  (∀ (s : State) (fn : Nat) (via : Via) (cmd d : Bytes) (t : Tenant), Accepts s fn via cmd → rd cmd 0 2 = 0x0040 →
    144 ≤ rd cmd 16 4 → d.length = rd cmd 16 4 → rd cmd 8 8 % 64 = 0 →
    goesToLeader (took s fn via cmd) (ask s fn via cmd) = false → reqReserved cmd d = true →
    tenantOf s (rd cmd 4 2) = some t → t.part = rd cmd 6 1 → reqFormed (rd cmd 16 4) d (readReqDesc d) = true →
    let u := took s fn via cmd
    let m := ask s fn via cmd
    let c := askCtx s fn via cmd
    let p := rd cmd 6 1
    let r := readReqDesc d
    let x := partOf u p
    let run := exec (.requestSubmit fn via (some d)) s
    (x.st ≠ .active → run = .next (respond u c .wrongState [])) ∧
    (x.st = .active → offered u p .base = none → run = .next (respond u c .modelNotResident [])) ∧
    (∀ b, x.st = .active → offered u p .base = some b →
      (promptOk b r = false → run = .next (respond u c .invalidField [])) ∧
      (promptOk b r = true →
        let ads := adapterCode u p t.id b.key.weights ([r.ad0, r.ad1].filterMap id)
        (∀ k, ads = some k → run = .next (respond u c k [])) ∧
        (ads = none →
          let q := bornReq u (birthOf u m (p * 2 ^ 56 + (x.handles + 1)) (fromHost m)) r b t
          (x.handles + 1 < 2 ^ 48 → canReserve u p (reqQuota x q) = true →
            run = .next (respond (acceptReq (relay u m q.h d) q) c .success (leBytes 8 q.h ++ leBytes 8 q.seq)) ∧
            q.h = p * 2 ^ 56 + (x.handles + 1) ∧ q.seq = x.submits + 1 ∧ q.part = p ∧ q.tenant = rd cmd 4 2 ∧ q.accept = c.accept ∧
            q.base = b.key ∧ q.conv = .live ∧ q.next = 0 ∧ q.input = r.samp.prompt ∧ q.outcome = none) ∧
          (2 ^ 48 ≤ x.handles + 1 ∨ canReserve u p (reqQuota x q) = false → run = .next (respond u c .noResource [])))))) ∧
  (∀ (t : State) (b : Bool) (i p h : Nat), (partOf t p).freezeAt = none → (∀ q, reqOf t h = some q → q.conv = .live) → lapse b t i p h = t) ∧
  ∀ (s : State) (fn : Nat) (via : Via) (cmd : Bytes), Accepts s fn via cmd → rd cmd 0 2 = 0x0041 →
    goesToLeader (took s fn via cmd) (ask s fn via cmd) = false → bodyZero cmd [(8, 8)] = true →
    (partOf s (rd cmd 6 1)).st ≠ .disabled →
    let m := ask s fn via cmd
    let c := askCtx s fn via cmd
    let u := lapse true (took s fn via cmd) c.accept (rd cmd 6 1) (rd cmd 8 8)
    (findHandle u m (rd cmd 8 8) = .unknown → exec (.requestCancel fn via) s = .next (respond u c .unknownHandle [])) ∧
    (findHandle u m (rd cmd 8 8) = .ended none →
      exec (.requestCancel fn via) s = .next (respond u c .alreadyEnded (endedBody c.accept 0 0 0))) ∧
    (∀ e, findHandle u m (rd cmd 8 8) = .ended (some e) → exec (.requestCancel fn via) s = .next (respond
      (updPart u (rd cmd 6 1) fun x => { x with outcomes := x.outcomes.map fun o =>
        if o.h = e.h then { o with cancelAt := some (o.cancelAt.getD c.accept) } else o })
      c .alreadyEnded (endedBody (e.cancelAt.getD c.accept) e.term e.detail e.next))) ∧
    (∀ q, findHandle u m (rd cmd 8 8) = .live q →
      exec (.requestCancel fn via) s = .next (respond
        (cancelReq (updReq (relay u m q.h []) q.h fun x => { x with cancelAt := some (x.cancelAt.getD c.accept) }) q.h c.accept 1)
        c .success (endedBody (q.cancelAt.getD c.accept) 0 0 q.next)))

/-- CONV_PARK, CONV_CONDENSE, CONV_DROP and CONV_RESUME act on the conversation their handle names. R139 to R141, R389, R390: at
the leader, a park or condense that passes its checks becomes what the request waits for, with its message unanswered: at
once where no frozen plan names the request, otherwise at that plan's end. A drop of a paused conversation cancels it with
DETAIL 2 and completes SUCCESS. A resume of a HELD conversation appends its tokens, is journaled as a RESUME event and
completes SUCCESS with the conversation LIVE; from CONDENSED it takes a slot and quota and its condensed vectors first; from
PARKED it becomes RESUMING with a slot and quota and the message waits; a resume that must load a BAD adapter again ends at
once (log 26). Whatever check fails first answers its code and changes nothing else; what came due before the message was accepted
happens first (log 80). These complete: CONV_PARK, CONV_CONDENSE, CONV_DROP, CONV_RESUME. -/
def Obligations.ConversationsPauseAndResume : Prop :=
  ∀ (s : State) (fn : Nat) (via : Via) (cmd : Bytes) (q : Req), Accepts s fn via cmd →
    goesToLeader (took s fn via cmd) (ask s fn via cmd) = false →
    (partOf s (rd cmd 6 1)).st = .active ∨ (partOf s (rd cmd 6 1)).st = .draining →
    let m := ask s fn via cmd
    let c := askCtx s fn via cmd
    let u := lapse true (took s fn via cmd) c.accept (rd cmd 6 1) (rd cmd 8 8)
    let r := lapse false (took s fn via cmd) c.accept (rd cmd 6 1) (rd cmd 8 8)
    let v := relay u m q.h []
    let waits := fun (w : ConvMsg) => match reqOf v q.h with
      | none => v
      | some x =>
        let t := updReq v q.h fun y => { y with want := some w, wantCtx := some c }
        if planned v x = true then t else applyWant t q.h
    (findHandle u m (rd cmd 8 8) = .live q → (rd cmd 0 2 = 0x0050 → bodyZero cmd [(8, 32)] = true →
      (∀ k, parkCode u m q = some k → exec (.convPark fn via) s = .next (respond u c k [])) ∧
      (parkCode u m q = none → exec (.convPark fn via) s = .next (waits (.park (rd cmd 16 8) (rd cmd 24 8) (rd cmd 32 8)
        (match currentKey u q.tenant with | some k => k.gen | none => 0))))) ∧
    (rd cmd 0 2 = 0x0052 → bodyZero cmd [(8, 8)] = true →
      (∀ k, condenseCode u q = some k → exec (.convCondense fn via) s = .next (respond u c k [])) ∧
      (condenseCode u q = none → exec (.convCondense fn via) s = .next (waits .condense))) ∧
    (rd cmd 0 2 = 0x0053 → bodyZero cmd [(8, 8)] = true →
      (resumable q = false → exec (.convDrop fn via) s = .next (respond u c .wrongState [])) ∧
      (resumable q = true → exec (.convDrop fn via) s = .next (respond (cancelReq v q.h c.accept 2) c .success [])))) ∧
    (findHandle r m (rd cmd 8 8) = .live q → rd cmd 0 2 = 0x0051 → bodyZero cmd [(8, 36)] = true → ∀ d : Bytes, d.length = 4 * rd cmd 40 4 → rd cmd 40 4 ≤ 4096 →
      (rd cmd 40 4 ≠ 0 → rd cmd 16 8 % 64 = 0) →
      let app := tokensAt d 0 (rd cmd 40 4)
      let w := relay r m q.h d
      (∀ k, resumeCode r q app c.accept = some k → k ≠ .parkExpired →
        exec (.convResume fn via (some d)) s = .next (respond r c k [])) ∧
      (resumeCode r q app c.accept = some .parkExpired →
        exec (.convResume fn via (some d)) s = .next (respond r c .parkExpired (endedBody c.accept (termVal .expired) 2 q.next))) ∧
      (resumeCode r q app c.accept = none → ∀ x, reqOf w q.h = some x →
        let t := jrnOut w q.h (resumeEntries (resumeState x) x.next c.accept app)
        (x.conv = .held → exec (.convResume fn via (some d)) s =
          .next (respond (goLive t q.h app (rd cmd 24 8) (rd cmd 32 8) c.accept) c .success [])) ∧
        (x.conv = .parked → exec (.convResume fn via (some d)) s = .next (endIfBad (askStacks (updReq (clearWork t q.h) q.h fun y =>
          { y with conv := .resuming, slot := true, quota := reqQuota (partOf w x.part) x
                   want := some (.resume app (rd cmd 24 8) (rd cmd 32 8) c.accept), wantCtx := some c })) q.h)) ∧
        (∀ k, x.conv = .condensed → x.cond = some k → exec (.convResume fn via (some d)) s = .next (endIfBad (respond (goLive (updReq t q.h fun y =>
          { y with slot := true, quota := reqQuota (partOf w x.part) x, condIn := k.s }) q.h app (rd cmd 24 8) (rd cmd 32 8) c.accept) c .success []) q.h))))

/-- Idle actions, parking and its expiry, and the end of a resume. R137, R138: at the leader a HELD conversation idle for its
tenant's IDLE_TICKS parks, condenses or is dropped as the tenant's action says, on every member as if the host had sent the message.
R144: a park whose parts are all written and whose barrier has completed drops its streams and pins, is PARKED with the record its
header gives, is journaled and answers its message; the DTC in the header is the one at which it completes (log 33). One whose write
fails, of a part a page of which lacks PRESENT or because the window refuses it, is written again, and after two retries goes back to
the state before, its frames kept, and answers PARK_FAULT. R148: at its expiry the record goes and the request ends EXPIRED with
DETAIL 2. R149: a resume whose entry verifies restores the streams, drops the record and is LIVE; an entry of another layout stays
PARKED and answers LAYOUT_MISMATCH; one that fails verification, or cannot be read after two retries, ends the request WITHHELD. In a
partition that spans, each member reports its part, and the leader's decision is everyone's (R151, log 24). These complete:
IDLE_ACTION, PARK_COMPLETE, PARK_ABANDON, PARK_EXPIRY, RESUME_COMPLETE, RESUME_FAIL. -/
def Obligations.PausedConversationsMoveOn : Prop :=
  ∀ (s : State) (h : Nat) (q : Req), s.flt.pkg = .serving → reqOf s h = some q → living q = true →
    (∀ t a, tenantOf s q.tenant = some t → q.conv = .held → convBusy q = false → q.replay = none → t.idleTicks ≠ 0 → q.idleAt = some a →
      a + t.idleTicks ≤ s.boot.dtc →
      let i := a + t.idleTicks
      let tells := fun (op : Nat) (rest : Bytes) => relay s (ownMsg q op i rest) q.h []
      (leads s q.part = false → exec (.idleAction h) s = .next s) ∧
      (leads s q.part = true → exec (.idleAction h) s = .next (match t.idleAction with
        | .park => beginPark (tells 0x0050 (leBytes 8 t.parkOffset ++ leBytes 8 t.parkStride ++ leBytes 8 t.parkTtl ++ leBytes 1 1)) q.h
            t.parkOffset t.parkStride t.parkTtl (match currentKey s t.id with | some k => k.gen | none => 0)
        | .condense => let v := tells 0x0052 (leBytes 1 1); if posBase q = 0 then pauseFails v q.h else beginCondense v q.h
        | .drop => cancelTold s q i 2))) ∧
    (∀ r, q.conv = .parked → q.record = some r → r.expiresAt ≤ s.boot.dtc →
      (leads s q.part = true → exec (.parkExpiry h) s = .next (endTold s h .expired 2)) ∧
      (leads s q.part = false → exec (.parkExpiry h) s = .next s)) ∧
    (∀ k ecc, q.parking = some k → k.written < k.parts.length →
      exec (.parkComplete ⟨h, ecc⟩) s = .next (parkWrites (noteEcc s q.part ecc) h)) ∧
    (∀ k ecc, q.parking = some k → k.parts.length ≤ k.written → k.barrier = true → k.stamp ≤ s.boot.dtc →
      let u := updReq (dropPins (dropKv s h) h) h fun x =>
        { x with conv := .parked, parking := none, want := none, wantCtx := none, record := some k.record }
      let v := jrnOut (reapModels u q.part) h [{ kind := .park, ty := 7, len := 32, body := eventEntry 4 0 0 q.next k.stamp k.ttl }]
      (spans s q.part = true → exec (.parkComplete ⟨h, ecc⟩) s = .next (settlePark (report s q.part h .parked) h)) ∧
      (spans s q.part = false → q.wantCtx = none → exec (.parkComplete ⟨h, ecc⟩) s = .next v) ∧
      (∀ c, spans s q.part = false → q.wantCtx = some c → exec (.parkComplete ⟨h, ecc⟩) s =
        .next (respond v c .success (leBytes 8 k.record.entryLen ++ leBytes 8 k.record.expiresAt)))) ∧
    (∀ k part, q.parking = some k →
      let u := match part with
        | some n => if n < k.written ∧ k.tries < 3 then rewritePart s h n else s
        | none => s
      let v := retryPark u h
      (parkFailed v h = false → exec (.parkAbandon ⟨h, part⟩) s = .next v) ∧
      (∀ x y, parkFailed v h = true → reqOf v h = some x → x.parking = some y →
        (spans v x.part = true → exec (.parkAbandon ⟨h, part⟩) s = .next (settlePark (report v x.part h .parkFails) h)) ∧
        (spans v x.part = false → exec (.parkAbandon ⟨h, part⟩) s = .next (pauseRefused (updReq (unsealStreams v x) h fun z =>
          { z with parking := none, conv := y.from_, idleAt := if y.from_ = .held then some v.boot.dtc else none }) h .parkFault)))) ∧
    (∀ entry : ReadResult,
      let u := chargeEntry s q
      (∀ b f app fdl tdl acc, resumeCheck s q entry = some (.good b f) → q.want = some (.resume app fdl tdl acc) →
        let r := restoreStream (restoreStream u h false b) h true f
        let v := allRunsEnd (goLive (updReq r h fun x => { x with record := none }) h app fdl tdl acc)
        (spans s q.part = true → exec (.resumeComplete h entry) s = .next (settleResume (report r q.part q.h .resumed) q.h)) ∧
        (spans s q.part = false → exec (.resumeComplete h entry) s =
          .next (match q.wantCtx with | some c => respond v c .success [] | none => v))) ∧
      (spans s q.part = false →
        let fails := fun (k : Code) =>
          let v := updReq (dropKv u q.h) q.h fun x => { x with record := none, want := none, wantCtx := none }
          let w := allRunsEnd (endTold v q.h .withheld 3)
          match q.wantCtx with | some c => respond w c k [] | none => w
        (resumeCheck s q entry = some .layout → exec (.resumeFail h entry) s = .next
          (match q.wantCtx with | some c => respond (allRunsEnd (backToParked u q.h)) c .layoutMismatch [] | none => allRunsEnd (backToParked u q.h))) ∧
        (resumeCheck s q entry = some .bad → exec (.resumeFail h entry) s = .next (fails .digestMismatch)) ∧
        (resumeCheck s q entry = some .readFails → 2 ≤ q.resumeTries → exec (.resumeFail h entry) s = .next (fails .parkFault))) ∧
      (resumeCheck s q entry = some .readFails → q.resumeTries < 2 → exec (.resumeFail h entry) s =
        .next (updReq u q.h fun x => { x with resumeTries := q.resumeTries + 1 })))

/-- CAPSULE_EXPORT seals a live journal; REPLAY_START checks a capsule and runs it; REPLAY_STATUS reports it. R195, R392: an
export of a request whose ring this package owns is appended to those that wait; a SEAL is written out of step unless the
request's plan is frozen or a SEAL already waits. An export of an ended request completes ALREADY_ENDED with its final SEAL.
R198, R393: at the leader a REPLAY_START charges the DMA regulator with the capsule's length, answers the code of the first
check of Table CAP-9 that fails, and otherwise queues the replay and completes SUCCESS with its id. R201, R391:
REPLAY_STATUS answers UNKNOWN_REPLAY for an id not kept for its caller, and else the status, with the divergence record
written to the address given, if one is. A member that did not own the ring knows no such handle (R368). These complete:
CAPSULE_EXPORT, REPLAY_START, REPLAY_STATUS. -/
def Obligations.CapsulesAreExportedAndReplayed : Prop :=
  (∀ (s : State) (fn : Nat) (via : Via) (cmd : Bytes), Accepts s fn via cmd → rd cmd 0 2 = 0x0060 → bodyZero cmd [(8, 8)] = true →
    (partOf s (rd cmd 6 1)).st ≠ .disabled →
    let c := askCtx s fn via cmd
    let u := lapse true (took s fn via cmd) c.accept (rd cmd 6 1) (rd cmd 8 8)
    let found := findHandle u (ask s fn via cmd) (rd cmd 8 8)
    (∀ q, found = .live q → q.ownsRing = true →
      let t := updReq u q.h fun x => { x with exports := x.exports ++ [c] }
      (planned u q = true ∨ (∃ w ∈ q.jrn.waiting, w.ty = 9) → exec (.capsuleExport fn via) s = .next t) ∧
      (planned u q = false → (∀ w ∈ q.jrn.waiting, w.ty ≠ 9) → exec (.capsuleExport fn via) s =
        .next (jrnOut t q.h [{ kind := .interim, ty := 9, len := 56, body := [] }]))) ∧
    (∀ e, found = .ended (some e) → e.own = false → exec (.capsuleExport fn via) s = .next (respond u c .unknownHandle [])) ∧
    (∀ e, found = .ended (some e) → e.own = true → exec (.capsuleExport fn via) s =
      .next (respond u c .alreadyEnded (leBytes 4 e.entries ++ leBytes 4 e.tokens ++ slice e.digest 0 32))) ∧
    (found = .unknown → exec (.capsuleExport fn via) s = .next (respond u c .unknownHandle []))) ∧
  (∀ (s : State) (fn : Nat) (via : Via) (cmd : Bytes) (t : Tenant) (capsule : ReadResult), Accepts s fn via cmd →
    rd cmd 0 2 = 0x0061 → goesToLeader (took s fn via cmd) (ask s fn via cmd) = false → mayStart (partOf s (rd cmd 6 1)) 3 = true →
    bodyZero cmd [(8, 2), (16, 16)] = true → rd cmd 9 1 < 2 → rd cmd 24 8 % 64 = 0 → (partOf s (rd cmd 6 1)).st = .active →
    tenantOf s (rd cmd 4 2) = some t → t.part = rd cmd 6 1 →
    let p := rd cmd 6 1
    let m := ask s fn via cmd
    let u := charge (took s fn via cmd) p 3 (rd cmd 24 8)
    let got := if winOk u fn (winNo p (rd cmd 8 1)) 0 (rd cmd 16 8) (rd cmd 24 8) = true then descBytes (rd cmd 24 8) capsule else none
    (∀ k, checkReplay u m got t = (k, none) → exec (.replayStart fn via capsule) s = .next (respond u (askCtx s fn via cmd) k [])) ∧
    (∀ k o q n, checkReplay u m got t = (k, some (o, q, n)) → exec (.replayStart fn via capsule) s =
      .next (respond (acceptReplay (relay u m q.h (got.getD [])) q o n) (askCtx s fn via cmd) .success (leBytes 4 q.replayId)))) ∧
  ∀ (s : State) (fn : Nat) (via : Via) (cmd : Bytes), Accepts s fn via cmd → rd cmd 0 2 = 0x0062 →
    goesToLeader (took s fn via cmd) (ask s fn via cmd) = false → bodyZero cmd [(8, 4), (16, 8)] = true → rd cmd 16 8 % 64 = 0 →
    (partOf s (rd cmd 6 1)).st ≠ .disabled →
    let u := took s fn via cmd
    let c := askCtx s fn via cmd
    let seen := (partOf s (rd cmd 6 1)).replayStats.find? fun r => r.id == rd cmd 8 4 && (fn == 0 || r.tenant == rd cmd 4 2)
    (seen = none → exec (.replayStatus fn via) s = .next (respond u c .unknownReplay [])) ∧
    (∀ r, seen = some r →
      (rd cmd 16 8 = 0 → exec (.replayStatus fn via) s = .next (respond u c .success (statusBody r))) ∧
      (rd cmd 16 8 ≠ 0 → exec (.replayStatus fn via) s = .next (respond (issueBarrier (issue u
        { fn := fn, kind := .output, addr := rd cmd 16 8, data := divergence r }) fn .none) c .success (statusBody r))))

/-- TELEMETRY_READ, ACCOUNTING_READ and SPDM_TRANSPORT write their output and complete behind a barrier. R370, R394, R361: a
telemetry or accounting page is written to the output buffer as far as OUT_LEN holds it, and the message completes SUCCESS
with the page's length, the bytes written and the DTC when the barrier behind the write completes; at once where nothing is
written. The counters read are not changed. R395: a page that is the PF's only is empty for a VF. R396, R449, R451, R463: an
SPDM request is answered with the blocks that its function may see, cut at the response area, the session becoming what the
request makes of it, and the message completes behind a barrier; one that is pending already makes the function's next BUSY;
a failed read is DESC_FAULT. The bytes of the answer are free values of the model (log 4). These complete: TELEMETRY_READ,
ACCOUNTING_READ, SPDM_TRANSPORT. -/
def Obligations.OutputsAreWrittenBehindABarrier : Prop :=
  (∀ (s : State) (fn : Nat) (via : Via) (cmd : Bytes), Accepts s fn via cmd →
    let u := took s fn via cmd
    let c := askCtx s fn via cmd
    let written := fun (data : Bytes) (addr len : Nat) =>
      let n := min data.length len
      let body := leBytes 4 data.length ++ leBytes 4 n ++ leBytes 8 s.boot.dtc
      if n = 0 then respond u c .success body
      else issueBarrier (issue u { fn := fn, kind := .output, addr := addr, data := data.take n }) fn (.output c n body)
    (rd cmd 0 2 = 0x0070 → bodyZero cmd [(8, 2), (12, 20)] = true → rd cmd 16 8 % 64 = 0 → rd cmd 12 4 % 16 = 0 → 1 ≤ rd cmd 8 2 →
      rd cmd 8 2 ≤ 6 → (rd cmd 8 2 = 3 ∨ rd cmd 24 8 = 0) →
      exec (.telemetryRead fn via) s = .next (written (match pageFor u (readerOf u (ask s fn via cmd)) (rd cmd 8 2) (rd cmd 24 8) with
        | some rs => pageBytes u (rd cmd 8 2) rs | none => []) (rd cmd 16 8) (rd cmd 12 4))) ∧
    (rd cmd 0 2 = 0x0071 → bodyZero cmd [(8, 2), (12, 12)] = true → rd cmd 16 8 % 64 = 0 → rd cmd 12 4 % 16 = 0 →
      (partOf s (rd cmd 6 1)).st ≠ .disabled →
      (rd cmd 8 2 = 0xFFFF ∨ (∃ x, readerOf u (ask s fn via cmd) = some x ∧ rd cmd 8 2 = x.1) ∨ readerOf u (ask s fn via cmd) = none ∧ ∃ t, tenantOf s (rd cmd 8 2) = some t ∧ t.part = rd cmd 6 1) →
      exec (.accountingRead fn via) s = .next (written (pageBytes u 0x10
        (page10 u (readerOf u (ask s fn via cmd)) (rd cmd 6 1) (rd cmd 8 2))) (rd cmd 16 8) (rd cmd 12 4)))) ∧
  ∀ (s : State) (fn : Nat) (via : Via) (cmd req : Bytes), Accepts s fn via cmd → rd cmd 0 2 = 0x0090 → bodyZero cmd [(8, 24)] = true →
    1 ≤ rd cmd 16 4 → rd cmd 16 4 ≤ 4096 → 64 ≤ rd cmd 20 4 → rd cmd 20 4 ≤ 4096 → req.length = rd cmd 16 4 →
    let u := took s fn via cmd
    let c := askCtx s fn via cmd
    ((fnOf u fn).spdmPending = true → exec (.spdmTransport fn via (some req)) s = .next (respond u c .busy [])) ∧
    ((fnOf u fn).spdmPending = false →
      exec (.spdmTransport fn via none) s = .next (respond u c .descFault []) ∧
      let out := (spdmOut u fn req).take (rd cmd 20 4)
      exec (.spdmTransport fn via (some req)) s = .next (issueBarrier (issue (updFn { u with freeCtr := u.freeCtr + 1 } fn fun f =>
        { f with session := if spdmAnswered u req = true then spdmSession f.session req u.freeCtr else f.session, spdmPending := true })
        { fn := fn, kind := .output, addr := rd cmd 24 8, data := out }) fn (.output c out.length (leBytes 4 out.length))))

/-- A plan is frozen, placed, made ready and committed, alone and across a group. R108, R111: an idle partition that may freeze
does so at its freeze instant. R277, R280: a claim whose turn it is gets the clusters of its set, bound to its ranks in
ascending order; while one of them is held, or another claim comes first, nothing happens. R282: in a group's TIME set the
leader announces the grant. R91, R322: a member joins PLAN messages piece by piece, a kill whose reclaims are all back
completing first. R169, R322: READY is noted once for each member, with the CIDX values it carries. R120, R122, R220: a step
ready everywhere commits at the DTC, or later than the last acceptance (log 72), with the cut of cancels stamped before it, the members
being sent RELEASE, and the next plan is frozen; a message left in a channel is doubt 0x09; until every member is ready nothing
happens. A member commits with the stamp and the cut of RELEASE. These complete: IDLE_FREEZE, STEP_PLACE, STEP_SYNC_PLAN,
STEP_SYNC_READY, STEP_COMMIT, STEP_SYNC_RELEASE. -/
def Obligations.StepsFreezeAndCommit : Prop :=
  ∀ (s : State) (p : Nat), p < 8 → Live s →
    let x := partOf s p
    (∀ f, x.freezeAt = some f → x.attempt = none → canFreeze s p = true →
      (f ≤ s.boot.dtc → exec (.idleFreeze p) s = .next (freeze s p f 0)) ∧
      (s.boot.dtc < f → exec (.idleFreeze p) s = .next s)) ∧
    (∀ a, x.attempt = some a → a.phase = .claim → a.plan.rows ≠ [] → (groupTurns s p = true → leads s p = true) →
      (mayGrant s p = true → exec (.stepPlace p) s = .next (grantFresh (if groupTurns s p = true then sendTurn s p 0 0 else s) p a)) ∧
      ((∃ c ∈ clusterSet x.items, (clusterOf s c).holder ≠ none) → exec (.stepPlace p) s = .next s) ∧
      ((∃ q, q ∈ (turnOrder s (timeSet s p)).takeWhile (· != p) ∧ isClaim s q = true ∧ clustersFree s q = true) → x.items.time = true →
        exec (.stepPlace p) s = .next s)) ∧
    (∀ pieces, leads s p = false → spans s p = true → x.st ≠ .disabled → s.flt.pkg = .serving →
      (∀ a, x.attempt = some a → a.phase = .killing → a.reclaims = [] →
        exec (.stepSyncPlan p pieces) s = .next ((planMsgs pieces.length pieces).foldl (fun t m => planPiece t p m) (completeKill s p))) ∧
      ((∀ a, x.attempt = some a → a.phase = .killing → a.reclaims ≠ []) →
        exec (.stepSyncPlan p pieces) s = .next ((planMsgs pieces.length pieces).foldl (fun t m => planPiece t p m) s))) ∧
    (∀ a port member entries, x.attempt = some a → port < 12 → leads s p = true → (a.phase = .run ∨ a.phase = .ready) → s.flt.pkg = .serving →
      exec (.stepSyncReady port p member entries) s = .next (updAtt (takeCidx s (chunks 16 entries)) p fun b =>
        { b with readyFrom := (b.readyFrom ++ [member]).eraseDups })) ∧
    (∀ a, x.attempt = some a → a.phase = .ready → s.flt.pkg = .serving →
      (leads s p = true → s.host.linkUp = true →
        (allReady s p a = false → exec (.stepCommit p) s = .next s) ∧
        (allReady s p a = true →
          (∀ c, residue s a = some c → exec (.stepCommit p) s = .next (doubt s 0x09 p c 0)) ∧
          (residue s a = none →
            let c := max s.boot.dtc (s.host.lastAccept + 1)
            let cut := cutHandles s a c
            let body := leBytes 8 c ++ cut.flatMap (leBytes 8)
            (spans s p = false → exec (.stepCommit p) s = .next (nextPlan (commitItems s p c cut) p c)) ∧
            (spans s p = true → exec (.stepCommit p) s = .next (nextPlan (commitItems (sendOthers s x.items.groupSize 0
              (linkHeader 0x04 0x03 body.length p 0 0 (hubTag s p a) cut.length ++ body)) p c cut) p c))))) ∧
      (leads s p = false → ∀ body, exec (.stepSyncRelease p body) s =
        .next (endCancelled (commitItems s p (rd body 0 8) ((chunks 8 (body.drop 8)).map leNat)) p)))

/-- A kill discards an attempt; its completion frees what it held and the cause's re-run follows. R292, Table LNK-8: a kill for
one of the causes 1 to 6 discards the attempt with the re-run that the cause calls for (1 in escape mode, 2, 3 and 5 the
same plan, 4 a new plan, 6 none) and tells every other member; no attempt, no effect. R322: an ABORT of the attempt's tag
kills it here, with no message back; one of another tag is nothing. R228, R324: while a port has not acknowledged its
reclaim the kill goes on; with every one back the partition's semaphores are FREE, its clusters free, and the attempt is
gone or starts over. These complete: STEP_KILL, STEP_SYNC_ABORT, KILL_COMPLETE. -/
def Obligations.AttemptsAreKilledAndRerun : Prop :=
  ∀ (s : State) (p : Nat), p < 8 → Live s →
    (∀ cause, 1 ≤ cause → cause ≤ 6 →
      let after : Rerun := if cause = 1 then .escape else if cause = 4 then .fresh else if cause = 6 then .none else .same
      exec (.stepKill p cause) s = .next (killStart s p cause after true) ∧
      ((partOf s p).attempt = none → exec (.stepKill p cause) s = .next s)) ∧
    (∀ cause, (cause = 0 ∨ 6 < cause) → exec (.stepKill p cause) s = .next s) ∧
    (∀ a, (partOf s p).attempt = some a →
      (∀ reason tag, attemptTag (partOf s p) a = tagAttempt tag →
        exec (.stepSyncAbort p reason tag) s = .next (killStart s p reason (rerunFor reason) false)) ∧
      (∀ reason tag, attemptTag (partOf s p) a ≠ tagAttempt tag → exec (.stepSyncAbort p reason tag) s = .next s) ∧
      (a.phase ≠ .killing → ∃ b, (partOf (killStart s p 3 .same false) p).attempt = some b ∧ b.phase = .killing ∧ b.reclaims = a.used ∧
        b.rerun = .same ∧ b.plan = a.plan ∧ b.no = a.no) ∧
      (a.phase = .killing → a.reclaims ≠ [] → exec (.killComplete p) s = .next s) ∧
      (a.phase = .killing → a.reclaims = [] → exec (.killComplete p) s = .next (completeKill s p) ∧
        (a.rerun = .same → ∃ b, (partOf (completeKill s p) p).attempt = some b ∧ b.no = a.no + 1 ∧ b.plan = a.plan ∧ b.phase = .claim ∧
          b.escape = false ∧ (partOf (completeKill s p) p).sems = []) ∧
        (a.rerun = .escape → ∃ b, (partOf (completeKill s p) p).attempt = some b ∧ b.no = a.no + 1 ∧ b.plan = a.plan ∧ b.phase = .claim ∧
          b.escape = true ∧ (partOf (completeKill s p) p).sems = []))) 

/-- Pre-emption by turn, by KILL and by SHELVE, and what a shelved attempt does next. R281, R291: a running TIME attempt that
has held its clusters for its QUANTUM and is wanted is pre-empted by its partition's PREEMPT item: killed with its next
attempt protected, or, where a cheap point remains, set on its way to it; a guarded one is not. R293: at a clean cheap point
the draw permits go back and the live ranges go to shelf frames; without frames for them the SHELVE becomes a KILL (log 17).
R294: so it does when its time has passed. R293: with every shelf frame sealed the clusters are freed and the attempt is a
claim again. In a partition that spans, every member must have arrived (R293, log 24). R295: granted again it is restored unless a
frame's digest differs, which is doubt 0x07. R282: a member applies the leader's grant as soon as it can, its kill, and its shelve at
the cheap point named. These complete: TURN_PREEMPT, SHELVE_CHEAP_POINT_CLEAN, SHELVE_TIMEOUT, SHELVE_DONE, SHELVE_RESUME,
STEP_SYNC_TURN. -/
def Obligations.AttemptsAreShelvedAndTurned : Prop :=
  ∀ (s : State) (p : Nat) (a : Attempt), p < 8 → Live s → (partOf s p).attempt = some a →
    let x := partOf s p
    (x.items.time = true → (∃ q, q < 8 ∧ q ≠ p ∧ overlap s p q = true ∧ isClaim s q = true) → a.phase = .run →
      a.grantedAt + x.items.quantum ≤ s.boot.dtc → (groupTurns s p = true → leads s p = true) →
      (a.guarded = true → exec (.turnPreempt p) s = .next s) ∧
      (a.guarded = false → x.items.preempt = .kill → spans s p = false → exec (.turnPreempt p) s =
        .next (killStart (updPart s p fun y => { y with protectNext := true }) p 4 .fresh true)) ∧
      (∀ slot m l c, a.guarded = false → x.items.preempt = .shelve → spans s p = false → runningLayout s p a = some (slot, l) →
        modelAt x slot = some m → nextCheap l (layersDone s a) = some c → exec (.turnPreempt p) s = .next (updAtt s p fun b =>
          { b with phase := .shelving, cheap := some c.id
                   shelveBy := s.boot.dtc + 2 * tReach a m.prog.layers c.layer (layersDone s a) + 10000 }))) ∧
    (spans s p = true → a.phase = .shelving → atPoint s a = true → cleanPoint s p a = true → cheapEverywhere (tellCheap s p a) p a = false →
      exec (.shelveCheapPointClean p) s = .next (tellCheap s p a)) ∧
    (∀ slot l c, spans s p = false → a.phase = .shelving → atPoint s a = true → cleanPoint s p a = true → runningLayout s p a = some (slot, l) →
      (l.cheap.find? fun y => some y.id == a.cheap) = some c →
      let t := a.clusters.foldl dropClusterPermits (clearCheap s p)
      let k := ceilDiv c.live 65536
      (usableFree t p < k → exec (.shelveCheapPointClean p) s = .next (downgrade t p)) ∧
      (∀ fs u, k ≤ usableFree t p → openFrames t p .transit .shelf k = some (fs, u) → exec (.shelveCheapPointClean p) s =
        .next (updAtt (handRuns u p (wholeRuns fs)) p fun b =>
          { b with phase := .sintering, shelf := liveRanges s a c, shelfFrames := fs
                   shelfInvs := match a.clusters.head? with | some n => (clusterOf s n).invs | none => [] }))) ∧
    (a.phase = .shelving →
      (a.shelveBy ≤ s.boot.dtc → exec (.shelveTimeout p) s = .next (downgrade s p)) ∧
      (s.boot.dtc < a.shelveBy → exec (.shelveTimeout p) s = .next s)) ∧
    (a.phase = .sintering →
      ((∀ n ∈ a.shelfFrames, ∃ f, frameOf s n = some f ∧ f.sealed = true) →
        exec (.shelveDone p) s = .next (updAtt (closeInterval (freeClusters (countPreempt s p a false) a.clusters) p a) p fun b =>
          { b with phase := .shelved, clusters := [], claimAt := s.boot.dtc })) ∧
      ((∃ n ∈ a.shelfFrames, ∃ f, frameOf s n = some f ∧ f.sealed = false) → exec (.shelveDone p) s = .next s)) ∧
    (a.phase = .shelved → mayGrant s p = true → groupTurns s p = false →
      exec (.shelveResume p) s = .next (grantShelved s p) ∧
      (∀ n f, a.shelfFrames = [n] → frameOf s n = some f → f.digest ≠ sha256 (shelfChunk a 0) →
        exec (.shelveResume p) s = .next (doubt s 0x07 p n 0))) ∧
    (∀ arg, leads s p = false → s.flt.pkg = .serving →
      (arg / 256 % 256 = 0 →
        let u := updPart s p fun y => { y with turn := true }
        (placed u p = true → exec (.stepSyncTurn p arg) s = .next (if a.phase = .shelved then grantShelved u p else grantClaim u p)) ∧
        (placed u p = false → exec (.stepSyncTurn p arg) s = .next u)) ∧
      (arg / 256 % 256 = 1 → a.phase = .run → exec (.stepSyncTurn p arg) s =
        .next (killStart (updPart s p fun y => { y with protectNext := true }) p 4 .fresh false)) ∧
      (arg / 256 % 256 = 2 → a.phase = .run → exec (.stepSyncTurn p arg) s = .next (beginShelve s p (some (arg / 65536)))))

/-- The millisecond close balances or raises doubt; doubt is contained or not by its source. R438, R439: a package that serves
closes its ledger; the first quantity that does not balance is doubt 0x0D with that quantity's number; a balanced close is
counted, with its DTC and a result code of 0, and completes the disables and resets that have done their work. In quarantine
only those completions happen (R481; log 18). R424, R427, R428, R441: a contained source, 0x01 to 0x11, writes a log entry,
counts DOUBT_COUNT, and in SERVING makes FAULT_N and QUIET_N asserted and leaves SERVING; another source is not this
command's. R436: an uncontained source, 0x12 to 0x16, leaves the package in UNCONTAINED with DMA stopped and nothing held
for the link; the silent watchdog of one of the hub's two pairs is source 0x16 with the pair as unit, and there is no other pair. These
complete: LEDGER_CLOSE, DOUBT_CONTAINED, DOUBT_UNCONTAINED, HUB_WATCHDOG. -/
def Obligations.LedgerClosesAndDoubtSpreads : Prop :=
  (∀ s : State, (s.flt.pkg = .serving → exec .ledgerClose s = .next (rearm (packageClose s))) ∧
    (s.flt.pkg = .quarantined → exec .ledgerClose s =
      .next ((List.range 8).foldl (fun t p => finishReset (finishDisable t p) p) s)) ∧
    (s.flt.pkg ≠ .serving → s.flt.pkg ≠ .quarantined → exec .ledgerClose s = .next s) ∧
    (∀ ps, (∀ c p, imbalance (ps.foldl releaseEnded s) ps = some (c, p) →
        let u := settleBalances (snapshot (ps.foldl releaseEnded s) ps (some (c, p))) ps
        closeLedger s ps = doubt { u with parts := u.parts.zipIdx.map fun e =>
          if e.2 ∈ ps then { e.1 with fetchWait := false } else e.1 } 0x0D p c 0) ∧
      (imbalance (ps.foldl releaseEnded s) ps = none → (closeLedger s ps).ledger.result % 256 = 0 ∧
        (closeLedger s ps).ledger.balanced = s.boot.dtc ∧ (closeLedger s ps).ledger.closes = (s.ledger.closes + 1) % 2 ^ 64 ∧
        (closeLedger s ps).ledger.seq = (s.ledger.seq + 2) % 2 ^ 32))) ∧
  ∀ (s : State) (source unit detail part : Nat), Live s →
    let p := if part < 8 then part else 0xFF
    let d := if source = 0x01 ∨ source = 0x04 ∨ source = 0x0D then detail % 2 ^ 32 else 0
    (1 ≤ source → source ≤ 0x11 →
      exec (.doubtContained source unit detail part) s = .next (doubt s source p (unit % 2 ^ 32) d) ∧
      (doubt s source p (unit % 2 ^ 32) d).flt.doubtCount = (s.flt.doubtCount + 1) % 2 ^ 32 ∧
      (s.flt.pkg = .serving → (doubt s source p (unit % 2 ^ 32) d).flt.faultN = true ∧ (doubt s source p (unit % 2 ^ 32) d).flt.quietN = true ∧
        (doubt s source p (unit % 2 ^ 32) d).flt.pkg ≠ .serving ∧ (doubt s source p (unit % 2 ^ 32) d).flt.firstSource = source ∧
        (doubt s source p (unit % 2 ^ 32) d).flt.firstDtc = s.boot.dtc)) ∧
    (source = 0 ∨ 0x11 < source → exec (.doubtContained source unit detail part) s = .next s) ∧
    (0x12 ≤ source → source ≤ 0x16 →
      exec (.doubtUncontained source unit detail part) s = .next (doubtUncontained s source p (unit % 2 ^ 32) d) ∧
      (doubtUncontained s source p (unit % 2 ^ 32) d).flt.pkg = .uncontained ∧
      (doubtUncontained s source p (unit % 2 ^ 32) d).flt.dma = false) ∧
    (source < 0x12 ∨ 0x16 < source → exec (.doubtUncontained source unit detail part) s = .next s) ∧
    (∀ pair, pair < 2 → exec (.hubWatchdog pair) s = .next (doubtUncontained { s with tele := { s.tele with watchdogs := s.tele.watchdogs ++ [pair] } }
      0x16 0xFF pair 0)) ∧
    ∀ pair, 2 ≤ pair → exec (.hubWatchdog pair) s = .fault .noSuchUnit

/-- MA_MAC, AM_MAC and VU_OP run under their permit; a shadow is compared with its primary. R206, R207: a command runs once it
is at the head of its queue and its wait tag is above zero. R412: an MA_MAC runs when its cluster holds the array class its
layer needs, its products going into the EAR set at D under the tensor's anchor and, with FINAL, rounded; until then it asks
for the difference. R42, R320: with FINAL it waits for the scales of every other member where they are exchanged. R236, R241: reads or
writes beyond the store are doubt 0x08. R45, R98, R287, R411: an AM_MAC of either side runs under the AMVU permit once the HBM read
regulator lets it start. R57, R213: a VU_OP runs its sequence over every row of A with that of B, writes the result at D in its last
record's format, and marks the rows that saturated (where a sequence ends: log 55; attention and norms: log 56). R233, R234: a TWIN
shadow computes the same output, and an equal digest completes its pair; a shadow cluster that is not sound gives another, which is
doubt 0x01. Corrected words that a command meets are counted (R208, R254). These complete: MA_MAC, AM_MAC, VU_OP, TWIN_SHADOW. -/
def Obligations.ArithmeticCommandsWriteTheirResults : Prop :=
  (∀ (s : State) (c : Nat) (x : Cx) (k : QCmd) (rows : List Nat) (ecc : Ecc) (a : Anchor) (fa fb : Fmt), Issues s c 1 x k →
    anchorFor x.model k.cmd.aux = some a → fmtOfCode (k.cmd.fmt % 256) = some fa → fmtOfCode (k.cmd.fmt / 256) = some fb →
    let need := match layerClass x.lay x.rank x.cl.layers with | some n => maxClass n (macClass k.cmd) | none => macClass k.cmd
    let na := runBytes fa k.cmd.len
    let nb := runBytes fb (bGranules fa fb k.cmd.len)
    let ra := operandBytes x.cl 0 k.cmd.a na
    let rb := operandBytes ra.2 1 k.cmd.b nb
    let reads := operandRange x.cl 0 k.cmd.a na ++ operandRange ra.2 1 k.cmd.b nb
    let ear := openEar rb.2 k.cmd.d a.tensor (tileRows fa) (tileRows fb)
    let sums := macInto a ear (runRows fa ra.1 k.cmd.len) (runRows fb rb.1 (bGranules fa fb k.cmd.len))
    let set : Ear := { sums with planRows := (sums.planRows ++ rows).eraseDups }
    let size := x.part.items.groupSize
    let done := earBytes a (ownIndex s size) set
    let v := noteEcc s x.p ecc
    let run := exec (.maMac ⟨c, ecc⟩ rows) s
    (arrayHeld s.gov c < classDu need → run = .next (askArray s c need)) ∧
    (classDu need ≤ arrayHeld s.gov c →
      (bit k.cmd.flags 1 = false → InStore reads → run = .next (completeOut v c x k (putEar rb.2 set) (earPartials set) reads)) ∧
      (bit k.cmd.flags 1 = false → ¬ InStore reads → run = .next (doubt v 0x08 x.p c 0)) ∧
      (bit k.cmd.flags 1 = true → scalesHeard size (ownIndex s size) set = false → run = .next v) ∧
      (bit k.cmd.flags 1 = true → scalesHeard size (ownIndex s size) set = true →
        InStore (reads ++ [(512 * set.d, earLen a set)]) → NotAwaited x [(512 * set.d, earLen a set)] →
        run = .next (completeOut (if done.2 = [] then v else markSat v x.p (done.2.filterMap fun i => rows[i]?)) c x k
          (csPut (dropEar rb.2 set.d) set.d done.1) done.1 reads)))) ∧
  (∀ (s : State) (c : Nat) (x : Cx) (k : QCmd) (side : AmSide) (base : Nat) (rows : List Nat) (ecc : Ecc) (pt : AdaptPoint) (fa fb : Fmt)
      (pa oa : Anchor), Issues s c 2 x k →
    x.model.prog.points[k.cmd.aux]? = some pt → fmtOfCode (k.cmd.fmt % 256) = some fa → fmtOfCode (k.cmd.fmt / 256) = some fb →
    (anchorsLow x.model.prog.anchors pt.uAnchor).head? = some pa → (anchorsLow x.model.prog.anchors pt.outAnchor).head? = some oa →
    (mayStart x.part 0 = false → exec (.amMac ⟨c, ecc⟩ side base rows) s = .next s) ∧
    (mayStart x.part 0 = true →
      (holds s.gov (192 + c) .amvu = false → exec (.amMac ⟨c, ecc⟩ side base rows) s = .next (askPermit s (192 + c) .amvu)) ∧
      (holds s.gov (192 + c) .amvu = true → exec (.amMac ⟨c, ecc⟩ side base rows) s = .next (match side with
        | .aSide => amA (noteEcc s x.p ecc) c x k pt pa fa base rows
        | .bSide => amB (noteEcc s x.p ecc) c x k pt pa ((anchorFor x.model oa.tensor).getD oa) fa fb base rows)))) ∧
  (∀ (s : State) (c : Nat) (x : Cx) (k : QCmd) (work : VuWork) (rows : List Nat) (ecc : Ecc) (fa fb : Fmt), Issues s c 3 x k →
    fmtOfCode (k.cmd.fmt % 256) = some fa → fmtOfCode (k.cmd.fmt / 256) = some fb →
    let v := noteEcc s x.p ecc
    (holds s.gov (192 + c) .amvu = false → exec (.vuOp ⟨c, ecc⟩ work rows) s = .next (askPermit s (192 + c) .amvu)) ∧
    (holds s.gov (192 + c) .amvu = true → exec (.vuOp ⟨c, ecc⟩ work rows) s = .next (vuGo v c x k fa fb work rows) ∧
      ∀ records, work = .seq records →
        let n := k.cmd.len
        let cols := n * tileCols fa
        let ops := (x.model.prog.ops.drop k.cmd.aux).take records
        let ra := operandBytes x.cl 3 k.cmd.a (runBytes fa n)
        let reads := operandRange x.cl 3 k.cmd.a (runBytes fa n) ++ [(512 * k.cmd.b, runBytes fb (tensorGranules fb (tileRows fa) cols))]
        let os := ((f32Rows fa ra.1 n).zip (f32Tensor ra.2 fb k.cmd.b (tileRows fa) cols)).map fun e => vuRun cols ops e.1 e.2
        let out := packRows (vuFmt ops) cols os
        let sat := ((os.zipIdx).filter fun e => e.1.sat).filterMap fun e => rows[e.2]?
        InStore (reads ++ [(512 * k.cmd.d, out.length)]) → NotAwaited x [(512 * k.cmd.d, out.length)] →
        vuGo v c x k fa fb work rows =
          completeOut (if sat = [] then v else markSat v x.p sat) c x k (csPut ra.2 k.cmd.d out) out reads)) ∧
  ∀ (s : State) (c p : Nat) (a : Attempt) (e : Nat × Nat × Nat) (rest : List (Nat × Nat × Nat)) (t : TwinPair) (k : Cmd) (faulty : Option Bytes),
    c < 192 → Live s → holderOf s c = some (p, a) → (clusterOf s c).twinQ = e :: rest → shadowCmd s p e = some k →
    (a.twins.find? fun y => y.inv == e.1 && y.rank == e.2.1 && y.cmd == e.2.2 && y.shadow == c && y.shadowDigest.isNone) = some t →
    let out := faulty.getD t.output
    let u := updCluster s c fun cl =>
      { cl with twinQ := cl.twinQ.drop 1, twinTurns := cl.twinTurns.set (queueOf k.op) 0, twinArea := out, lastRetire := s.boot.dtc }
    (k.op = 1 → arrayHeld s.gov c < classDu (macClass k) → exec (.twinShadow c faulty) s = .next (askArray s c (macClass k))) ∧
    (k.op ≠ 1 → holds s.gov (192 + c) .amvu = false → exec (.twinShadow c faulty) s = .next (askPermit s (192 + c) .amvu)) ∧
    ((k.op = 1 → classDu (macClass k) ≤ arrayHeld s.gov c) → (k.op ≠ 1 → holds s.gov (192 + c) .amvu = true) →
      exec (.twinShadow c faulty) s = .next (memberReady (twinCompare u p t a out) p)) ∧
    (t.primaryDigest ≠ some (tileDigest out) → twinCompare u p t a out = doubt u 0x01 p (a.clusters.getD t.rank 0) t.cmd) ∧
    (t.primaryDigest = some (tileDigest out) → ∃ b, (partOf (twinCompare u p t a out) p).attempt = some b ∧
      { t with shadowDigest := some (tileDigest out), inputs := [], output := [] } ∈ b.twins)

/-- LOAD, SEND, BIND, delivery, ROUTE_LOAD, CHEAP_POINT, KV_STAGE, SAMPLE, STEP_END, probes and NO_RETIRE. R208, R270: bytes
written to a Cluster Store read back, and no other byte changes; a command that retires changes no other cluster's store.
R236, R241: a range beyond the store, or a granule beyond the tensor (log 61), is doubt 0x08. R262, R263, R285, R287, R411: a LOAD
waits for a streamed layer, the read regulator, its partition's turn and its HBM_TRAIN permit, then puts the tensor's granules at D.
R48, R217, R219, R320: a SEND places messages while places are free and retires when every one is accepted; a partial beyond the XP64
bound kills the step. R220: a BIND opens a binding, and a delivered message lands where the first binding says, the last one raising
the BIND's signal. R218, R319: ROUTE_LOAD loads the phase's entries, and the account of a channel starts anew. R293, R294: CHEAP_POINT
stops the rank at the point a SHELVE aims at, else only retires. R127, R129, R153: KV_STAGE stages rows, unless an unwritten page of
the layer is in its way. R58, R61: SAMPLE samples the rows at A under the AMVU permit. R112, R120: STEP_END ends the rank's
invocation once all before it retired. R222, R223, R225: probes confirm a cycle, which re-runs the step in escape mode or is doubt
0x0A, and a cluster that retires nothing for 10,000,000 ticks is doubt 0x0B. These complete: LOAD, SEND, BIND, ROUTE_LOAD,
CHANNEL_DELIVERY, CHEAP_POINT, KV_STAGE, SAMPLE, STEP_END, PROBE_LAUNCH, PROBE, NO_RETIRE. -/
def Obligations.MoveCommandsMoveData : Prop :=
  (∀ (m : List Host.Cell) (a b : Nat) (bs : Bytes), cellsOk m = true → a + bs.length ≤ 4194304 →
    csRead (csWrite m a bs) a bs.length = bs ∧ (b < a ∨ a + bs.length ≤ b → csGet (csWrite m a bs) b = csGet m b)) ∧
  (∀ (s : State) (c d : Nat) (x : Cx) (k : QCmd) (cl : Cluster) (out : Bytes) (ins : List (Nat × Nat)), cl.no = c →
    (clusterOf (completeOut s c x k cl out ins) c).cs = cl.cs ∧
    (d ≠ c → (clusterOf (completeOut s c x k cl out ins) d).cs = (clusterOf s d).cs)) ∧
  (∀ (s : State) (c : Nat) (x : Cx) (k : QCmd) (ecc : Ecc), Issues s c 4 x k →
    let dst := [(512 * k.cmd.d, 512 * k.cmd.len)]
    ((x.model.tensors.find? fun t => t.id == k.cmd.aux) = none → exec (.load ⟨c, ecc⟩) s = .next (doubt s 0x08 x.p c 0)) ∧
    (∀ t, (x.model.tensors.find? fun t => t.id == k.cmd.aux) = some t →
      let h := stackOf s (tensorFrame s x.p x.slot t k.cmd.a)
      (128 * t.frames < k.cmd.a + k.cmd.len → exec (.load ⟨c, ecc⟩) s = .next (doubt s 0x08 x.p c 0)) ∧
      (k.cmd.a + k.cmd.len ≤ 128 * t.frames →
        (weightStall x.model t = true ∨ mayStart x.part 0 = false ∨ hbmTurn s x.p = false → exec (.load ⟨c, ecc⟩) s = .next s) ∧
        (weightStall x.model t = false → mayStart x.part 0 = true → hbmTurn s x.p = true →
          (holds s.gov (384 + h) .hbmTrain = false → exec (.load ⟨c, ecc⟩) s = .next (askPermit s (384 + h) .hbmTrain)) ∧
          (holds s.gov (384 + h) .hbmTrain = true → ¬ InStore dst → exec (.load ⟨c, ecc⟩) s = .next (doubt s 0x08 x.p c 0)) ∧
          (holds s.gov (384 + h) .hbmTrain = true → InStore dst → NotAwaited x dst →
            let u := noteEcc (charge { s with gov := govDrop s.gov (384 + h) .hbmTrain, served := { s.served with hbm := some x.p } }
              x.p 0 (512 * k.cmd.len)) x.p ecc
            exec (.load ⟨c, ecc⟩) s = .next (releaseHalf (complete u c x k (csPut x.cl k.cmd.d
              (slice x.model.image (65536 * t.frame + 512 * k.cmd.a) (512 * k.cmd.len)))) x t)))))) ∧
  (∀ (s : State) (c : Nat) (x : Cx) (k : QCmd) (r : Route), Issues s c 5 x k → routeReg x k = some r →
    let src := [(512 * k.cmd.a, 64 * k.cmd.len)]
    let blocked := putCluster s (issueOnly 3 x.cl k fun j => j)
    (r.port ≠ 4 → ¬ InStore src → exec (.send c) s = .next (doubt s 0x08 x.p c 0)) ∧
    (r.port = 4 ∨ InStore src →
      (k.cmd.len ≤ k.sent → exec (.send c) s = .next (complete (sendDone s x k r).1 c x k (sendDone s x k r).2)) ∧
      (k.sent < k.cmd.len → exec (.send c) s = .next (sendLoop c (k.cmd.len + 1) s) ∧
        (sendWaits s x k r = true → exec (.send c) s = .next blocked) ∧
        (sendWaits s x k r = false → ∀ t, sendBreaks s x k r k.sent = some t → exec (.send c) s = .next (xpKill s x t)) ∧
        (sendWaits s x k r = false → sendBreaks s x k r k.sent = none →
          placeFree s x k r = false ∨ x.att.escape = true ∧ lowerConsumed s x k r = false → exec (.send c) s = .next blocked)))) ∧
  (∀ (s : State) (c : Nat) (x : Cx) (k : QCmd), Issues s c 6 x k →
    let quiet := { k with cmd := { k.cmd with signal := 0xFFFF } }
    let b : Binding := { port := k.cmd.aux / 16 % 16, d := k.cmd.d, left := k.cmd.len, signal := k.cmd.signal, done := 0 }
    (k.cmd.len = 0 → exec (.bind c) s = .next (complete s c x quiet (raiseTag x.cl k.cmd.signal 1))) ∧
    (k.cmd.len ≠ 0 → exec (.bind c) s = .next (complete s c x quiet
      (updChan x.cl (k.cmd.aux % 16) fun v => { v with binds := v.binds ++ [b] })))) ∧
  (∀ (s : State) (c : Nat) (x : Cx) (k : QCmd), Issues s c 11 x k →
    let cl := { x.cl with routes := routesFor x.lay x.att.escape k.cmd.aux x.rank, phase := k.cmd.aux
                          unret := x.cl.unret.map fun u => { u with old := true } }
    exec (.routeLoad c) s = .next (complete s c x k cl)) ∧
  (∀ (s : State) (c ch : Nat) (x : Cx) (g : ChanMsg) (gs : List ChanMsg) (b : Binding) (bs : List Binding), c < 192 → Live s → cxOf s c = some x →
    (chanOf x.cl ch).msgs = g :: gs → (chanOf x.cl ch).binds = b :: bs →
    let n := bindCount x.model g
    let dst := [(512 * b.d + 64 * b.done, g.body.length)]
    let more := fun (left : List Binding) => deliverInto (updChan x.cl ch fun _ => { msgs := gs, binds := left }) b g
    (b.port = 5 → ¬ InStore dst → exec (.channelDelivery c ch) s = .next (doubt s 0x08 x.p c 0)) ∧
    (b.port ≠ 5 ∨ InStore dst ∧ NotAwaited x dst →
      (b.left ≤ n → exec (.channelDelivery c ch) s = .next (returnPlaces (putCluster s { raiseTag (more bs) b.signal 1 with
        lastRetire := s.boot.dtc }) x g)) ∧
      (n < b.left → exec (.channelDelivery c ch) s = .next (returnPlaces (putCluster s
        (more ({ b with left := b.left - n, done := b.done + n } :: bs))) x g)))) ∧
  (∀ (s : State) (c ch : Nat), c < 192 → (∀ x, cxOf s c = some x → (chanOf x.cl ch).msgs = [] ∨ (chanOf x.cl ch).binds = []) →
    exec (.channelDelivery c ch) s = .next s) ∧
  (∀ (s : State) (c : Nat) (x : Cx) (k : QCmd), Issues s c 12 x k →
    (x.att.phase ≠ .shelving ∨ x.att.cheap ≠ some k.cmd.aux → exec (.cheapPoint c) s = .next (complete s c x k x.cl)) ∧
    (x.att.phase = .shelving → x.att.cheap = some k.cmd.aux →
      let t := putCluster s { x.cl with atCheap := some k.cmd.aux, lastRetire := s.boot.dtc }
      (allBefore x.cl k.idx = false → exec (.cheapPoint c) s = .next s) ∧
      (allBefore x.cl k.idx = true → exec (.cheapPoint c) s =
        .next (if atPoint t x.att = true ∧ cleanPoint t x.p x.att = false then downgrade t x.p else t)))) ∧
  (∀ (s : State) (c : Nat) (x : Cx) (k : QCmd), Issues s c 13 x k →
    (kvWaits x k = true → exec (.kvStage c) s = .next s) ∧
    (kvWaits x k = false → x.model.prog.kind = 2 → exec (.kvStage c) s = .next (stageVec s c x k)) ∧
    (kvWaits x k = false → x.model.prog.kind ≠ 2 → exec (.kvStage c) s = .next (stageKv s c x k))) ∧
  (∀ (s : State) (c first : Nat) (x : Cx) (k : QCmd), Issues s c 14 x k →
    let v := x.model.prog.vocab
    let bs := csRead x.cl.cs (512 * k.cmd.a) (512 * k.cmd.len)
    let new := ((emitRows x.att x.slot).drop first |>.take (rowsIn .fp32 v k.cmd.len)).zipIdx.filterMap fun e =>
      (reqOf s e.1.1).map fun q => sampleOne q ((tileRow .fp32 bs v e.2).map (BitVec.ofNat 32))
    (holds s.gov (192 + c) .amvu = false → exec (.sample c first) s = .next (askPermit s (192 + c) .amvu)) ∧
    (holds s.gov (192 + c) .amvu = true → ¬ InStore [(512 * k.cmd.a, 512 * k.cmd.len)] →
      exec (.sample c first) s = .next (doubt s 0x08 x.p c 0)) ∧
    (holds s.gov (192 + c) .amvu = true → InStore [(512 * k.cmd.a, 512 * k.cmd.len)] →
      exec (.sample c first) s = .next (complete (updAtt s x.p fun a =>
        { a with sampled := (a.sampled.filter fun z => !new.any fun y => y.h == z.h) ++ new }) c x k x.cl))) ∧
  (∀ (s : State) (c : Nat) (x : Cx) (k : QCmd), Issues s c 15 x k →
    let t := dropClusterPermits (complete s c x k { x.cl with finished := true }) c
    (allBefore x.cl k.idx = false → exec (.stepEnd c) s = .next s) ∧
    (allBefore x.cl k.idx = true →
      ((∃ d ∈ x.att.clusters, (clusterOf t d).finished = false) → exec (.stepEnd c) s = .next t) ∧
      ((∀ d ∈ x.att.clusters, (clusterOf t d).finished = true) → exec (.stepEnd c) s = .next (match x.cl.invs.drop 1 with
        | [] => memberReady t x.p
        | left => startInvocation t x.p left)))) ∧
  (∀ (s : State) (c ch : Nat) (x : Cx), c < 192 → Live s → cxOf s c = some x →
    (blockedSend s x = none → exec (.probeLaunch c ch) s = .next s) ∧
    (∀ k r, blockedSend s x = some (k, ch, r) → exec (.probeLaunch c ch) s =
      .next (updCluster (sendProbe s x r (originName s x c) ch 1) c fun cl => issueOnly 3 cl k fun j => { j with probed := true })) ∧
    (∀ o oc n,
      let b : Probe := { rank := x.rank, ch := ch, origin := o, originCh := oc, hops := n }
      let limit := 16 * x.lay.clusters * x.part.items.groupSize
      (takeProbe s x.p b = none → exec (.probe c ch o oc n) s = .next s) ∧
      (∀ u, takeProbe s x.p b = some u →
        (limit < n ∨ blockedSend u x = none → exec (.probe c ch o oc n) s = .next u) ∧
        (∀ k y r, n ≤ limit → blockedSend u x = some (k, y, r) →
          (o = originName u x c → y = oc → k.probed = true →
            (x.att.escape = true → exec (.probe c ch o oc n) s = .next (doubt u 0x0A x.p c 0)) ∧
            (x.att.escape = false → exec (.probe c ch o oc n) s =
              .next (killStart (updPart u x.p fun z => { z with deadlocks := satAdd 64 z.deadlocks 1 }) x.p 1 .escape true))) ∧
          (o = originName u x c → y ≠ oc ∨ k.probed = false → exec (.probe c ch o oc n) s = .next u) ∧
          (o ≠ originName u x c → (chanOf x.cl ch).msgs ≠ [] → (chanOf x.cl ch).binds = [] →
            exec (.probe c ch o oc n) s = .next (sendProbe u x r o oc (n + 1)))))) ∧
    (x.cl.finished = false → x.cl.atCheap = none → excused s c x = false →
      (x.cl.lastRetire + 10000000 ≤ s.boot.dtc → exec (.noRetire c) s = .next (doubt s 0x0B x.p c 0)) ∧
      (s.boot.dtc < x.cl.lastRetire + 10000000 → exec (.noRetire c) s = .next s)) ∧
    (x.cl.finished = true ∨ excused s c x = true → exec (.noRetire c) s = .next s))

/-- Counters, locks and BROKEN semaphores. R227: the owner's SEM_SIGNAL adds n to its COUNTER, doubt 0x0C where VALUE passes
65,535; one by another rank adds nothing. SEM_WAIT retires once VALUE is at least v and waits else, its wait tag taken (R207).
SEM_ACQUIRE of a FREE lock at its home makes it HELD by the caller; on a HELD lock, its own included, the caller waits, once, until the
lock is granted to it. SEM_RELEASE by the holder passes the lock to the lowest (MEMBER, RANK) that waits, or frees it. R228: any of them
on a BROKEN semaphore kills its attempt for a re-run. R321: from another member than a lock's home an acquire or release is relayed to
member 0. These complete: SEM_SIGNAL, SEM_WAIT, SEM_ACQUIRE, SEM_RELEASE. -/
def Obligations.SemaphoresCountAndLock : Prop :=
  ∀ (s : State) (c : Nat) (x : Cx) (k : QCmd),
    let id := k.cmd.aux % 256
    let n := k.cmd.aux / 65536
    let own := ownIndex s x.part.items.groupSize
    let tag := rankTag s x
    let waits := putCluster s (issueOnly (queueOf k.cmd.op) x.cl k fun j => j)
    let me : SemWaiter := { member := own, rank := x.rank, tag := tag, value := none }
    let me' : SemWaiter := { member := own, rank := x.rank, tag := tag, value := some n }
    (∀ m, semOf x.part id = some m → m.st = .broken →
      (Issues s c 7 x k → exec (.semSignal c) s = .next (killStart s x.p 3 .same true)) ∧
      (Issues s c 8 x k → exec (.semWait c) s = .next (killStart s x.p 3 .same true)) ∧
      (Issues s c 9 x k → exec (.semAcquire c) s = .next (killStart s x.p 3 .same true)) ∧
      (Issues s c 10 x k → exec (.semRelease c) s = .next (killStart s x.p 3 .same true))) ∧
    (∀ m, semOf x.part id = some m → m.st = .armed →
      (Issues s c 7 x k → (m.owner ≠ tag → exec (.semSignal c) s = .next (complete s c x k x.cl)) ∧
        (m.owner = tag → exec (.semSignal c) s = .next (semAdd (complete s c x k x.cl) x.p m n))) ∧
      (Issues s c 8 x k → (n ≤ m.value → exec (.semWait c) s = .next (complete (putSem s x.p { m with
          waiters := m.waiters.filter fun w => !(w.member == own && w.rank == x.rank) }) c x k x.cl)) ∧
        (m.value < n → me' ∉ m.waiters → exec (.semWait c) s = .next (putSem waits x.p { m with waiters := m.waiters ++ [me'] })) ∧
        (m.value < n → me' ∈ m.waiters → exec (.semWait c) s = .next waits))) ∧
    (∀ m, semOf x.part id = some m → m.st = .held →
      (Issues s c 9 x k →
        (k.issued = true → m.owner = tag → me ∉ m.waiters → exec (.semAcquire c) s = .next (complete s c x k x.cl)) ∧
        (k.issued = true → m.owner ≠ tag ∨ me ∈ m.waiters → exec (.semAcquire c) s = .next s) ∧
        (k.issued = false →
          let t := if me ∈ m.waiters then waits else putSem waits x.p { m with waiters := m.waiters ++ [me] }
          (own = 0 → exec (.semAcquire c) s = .next t) ∧
          (own ≠ 0 → exec (.semAcquire c) s = .next (relaySem t x.p 0 0x04 id x.rank tag 0)))) ∧
      (Issues s c 10 x k →
        (m.owner ≠ tag → exec (.semRelease c) s = .next (complete s c x k x.cl)) ∧
        (m.owner = tag → own = 0 → exec (.semRelease c) s = .next (semPass (complete s c x k x.cl) x.p m)) ∧
        (m.owner = tag → own ≠ 0 → exec (.semRelease c) s =
          .next (relaySem (freeSem (complete s c x k x.cl) x.p id) x.p 0 0x06 id x.rank tag 0)))) ∧
    (semOf x.part id = none →
      (Issues s c 7 x k → exec (.semSignal c) s = .next (complete s c x k x.cl)) ∧
      (Issues s c 8 x k → exec (.semWait c) s = .next waits) ∧
      (Issues s c 9 x k →
        (own = 0 → exec (.semAcquire c) s = .next (complete (putSem s x.p { id := id, st := .held, value := 0, owner := tag, waiters := [] }) c x k x.cl)) ∧
        (own ≠ 0 → k.issued = false → exec (.semAcquire c) s = .next (relaySem waits x.p 0 0x04 id x.rank tag 0)) ∧
        (own ≠ 0 → k.issued = true → exec (.semAcquire c) s = .next s)) ∧
      (Issues s c 10 x k → exec (.semRelease c) s = .next (complete s c x k x.cl))) ∧
    (∀ (t : State) (p : Nat) (m : Sem), m.waiters = [] →
      semPass t p m = freeSem t p m.id ∧
      (m.value + n ≤ 65535 → semAdd t p m n = putSem t p { m with value := m.value + n }) ∧
      (65535 < m.value + n → semAdd t p m n = doubt (putSem t p { m with value := 65535 }) 0x0C p m.id 0)) ∧
    (∀ (t : State) (p : Nat) (m : Sem) (w : SemWaiter), nextWaiter m.waiters = some w →
      let u := putSem t p { m with st := .held, owner := w.tag, waiters := m.waiters.filter (· != w) }
      w ∈ m.waiters ∧ (∀ v ∈ m.waiters, w.member * 256 + w.rank ≤ v.member * 256 + v.rank) ∧
      (w.member = ownIndex t (partOf t p).items.groupSize → semPass t p m = u) ∧
      (w.member ≠ ownIndex t (partOf t p).items.groupSize → semPass t p m = relaySem u p w.member 0x05 m.id w.rank w.tag 0))

/-- HBM frames are sealed, streamed layers arrive or stall, and scrub checks every frame. R244, R245: a full frame whose stack's
Sinter run has its permit is sealed with its digest when the two lanes agree, and a park that waits for it goes on; it is doubt 0x05
when they do not. R262, R265: a streamed layer is read under the permits of its Sinter runs; when every frame has its recorded digest
it fills the free half of the ring; a frame that fails is counted against its three reads; after three the model is stalled and the
attempt that needs it is killed. R254, R255, R256: scrub takes the frames in its order, each under an HBM_TRAIN permit; an
uncorrectable word makes a free frame unusable and is doubt 0x04 in any other; corrected words are counted and move the frame to the
front; a digest that differs on a sealed frame is doubt 0x06; a frame out of its turn is left. These complete: SINTER_FRAME_SEALED,
STREAM_LAYER_SEALED, STREAM_STALLED, SCRUB_READ. -/
def Obligations.FramesAreSealedStreamedAndScrubbed : Prop :=
  (∀ (s : State) (n p : Nat) (f : Frame), n < nFrames s → Live s → frameOf s n = some f → partOfFrame s n = some p →
    f.sealed = false → holds s.gov (392 + stackOf s n) .sinter = true →
    (f.written = 128 ∨ imageFrame f.owner = true → exec (.sinterFrameSealed n false) s = .next (doubt s 0x05 p (stackOf s n) 0)) ∧
    (f.written = 128 → imageFrame f.owner = false → exec (.sinterFrameSealed n true) s =
      .next (afterSeal (runEnds (sealFrame s n (sealedAs s p f).2 (sealedAs s p f).1) (stackOf s n)) f.owner)) ∧
    (imageFrame f.owner = true → exec (.sinterFrameSealed n true) s = .next s)) ∧
  (∀ (s : State) (n : Nat) (lanes : Bool) (f : Frame), n < nFrames s → frameOf s n = some f →
    (f.sealed = true ∨ f.written ≠ 128 ∧ imageFrame f.owner = false ∨ holds s.gov (392 + stackOf s n) .sinter = false) →
    exec (.sinterFrameSealed n lanes) s = .next s) ∧
  (∀ (s : State) (p slot : Nat) (m : Model) (data : ReadResult), p < 8 → s.flt.pkg = .serving → s.host.linkUp = true →
    mayStart (partOf s p) 3 = true → mayStart (partOf s p) 1 = true → modelAt (partOf s p) slot = some m → m.stream = true →
    (0xFFFF ∈ m.ring) → streamFailed m = false →
    let half := m.ring.idxOf 0xFFFF
    let fs := halfFrames s p slot m half
    let runs := fs.take (layerFrames m.tensors m.nextLayer)
    let left := framesLeft m
    let u := charge (charge s p 3 (65536 * left.length)) p 1 (65536 * left.length)
    (runsHeld s runs = false → exec (.streamLayerSealed p slot data) s = .next (runs.foldl askSinter s)) ∧
    (runsHeld s runs = true → left ≠ [] → data = none → exec (.streamLayerSealed p slot data) s = .next (updModel u p slot fun y =>
      { y with tries := (List.range (layerFrames m.tensors m.nextLayer)).map fun i =>
                 if i ∈ left then min 3 (m.tries.getD i 0 + 1) else m.tries.getD i 0
               got := m.got })) ∧
    (runsHeld s runs = true → (∀ i ∈ left, frameGood u m data i = true) →
      let v := left.foldl (fun t i => updFrame t (fs.getD i 0) fun f =>
        { f with sealed := true, written := 128, digest := (m.layerDigests.getD (m.nextLayer - m.resident) []).getD i [] }) u
      exec (.streamLayerSealed p slot data) s = .next (endRuns (updModel v p slot fun y =>
        { y with ring := y.ring.set half m.nextLayer, nextLayer := nextStream m m.nextLayer, tries := [], got := [], stalled := false }) fs))) ∧
  (∀ (s : State) (p slot : Nat) (m : Model), p < 8 → Live s → modelAt (partOf s p) slot = some m →
    (m.stalled = true ∨ streamFailed m = false → exec (.streamStalled p slot) s = .next s) ∧
    (m.stalled = false → streamFailed m = true →
      let t := updModel s p slot fun y => { y with stalled := true }
      ((partOf s p).attempt = none → exec (.streamStalled p slot) s = .next t) ∧
      (∀ a, (partOf s p).attempt = some a → slot ∈ invsOf a.plan.rows →
        exec (.streamStalled p slot) s = .next (killStart t p 4 .fresh true)))) ∧
  (∀ (s : State) (n : Nat), n < nFrames s → Live s →
    let h := stackOf s n
    let r := { s with gov := govDrop s.gov (384 + h) .hbmTrain, tele := { s.tele with scrubFront := s.tele.scrubFront.filter (· != n) } }
    let f := frameEntry r n
    let p := (partOfFrame r n).getD 0xFF
    (scrubNext s n = false → ∀ e d, exec (.scrubRead n e d) s = .next s) ∧
    (scrubNext s n = true → holds s.gov (384 + h) .hbmTrain = false → ∀ e d,
      exec (.scrubRead n e d) s = .next (askPermit s (384 + h) .hbmTrain)) ∧
    (scrubNext s n = true → holds s.gov (384 + h) .hbmTrain = true →
      (∀ w d, f.cls = .free →
        exec (.scrubRead n (.uncorrectable w) d) s = .next (scrubNote (putFrame r { f with unusable := true }) n)) ∧
      (∀ w d, f.cls ≠ .free → exec (.scrubRead n (.uncorrectable w) d) s = .next (scrubNote (doubt r 0x04 p n w) n)) ∧
      exec (.scrubRead n .clean true) s = .next (scrubNote r n) ∧
      (f.sealed = true → exec (.scrubRead n .clean false) s = .next (scrubNote (doubt r 0x06 p n 0) n)) ∧
      (∀ k, exec (.scrubRead n (.corrected k) true) s = .next (scrubNote (putFrame { r with tele := { r.tele with
        hbmCorrected := satAdd 64 r.tele.hbmCorrected k, scrubFront := n :: r.tele.scrubFront } }
        { f with corrected := f.corrected + k }) n))))

/-- What the state right after cold reset holds, where the spec gives the value. Right after cold reset: BOOT_STAGE is ROM,
IF_MAJOR, IF_MINOR, RAN_SLOT and FALLBACK_SLOT are 0, and the DTC, which runs from the lock of the PLL, has not left 0
(R489, R479, R401). The package is SERVING with FIRST_* and DOUBT_COUNT 0 and FAULT_N deasserted. In each of the 16
functions the mailbox is IDLE with nothing taken, no queue exists, every vector is masked with its pending bit 0 and HOLDOFF
0, and the cause bits and SQ_FAULTED are 0 (R492). No window is valid. The 8 partitions are DISABLED with handle and replay
serials at their start, and no tenant, adapter, request or HBM frame is in use (R479, R297). The 12 ports are DISABLED with
their counters 0 (R336), the 16 MF pins are GPIO_IN, no draw permit is held, the ledger has made no close, every Cluster
Store byte reads 0 and the stores are in canonical form. Values the spec does not give (log 9) are not part of this
statement, and the queue of commands, which is the model's own, is empty. -/
def Obligations.ResetHoldsTheSpecsValues : Prop :=
  let s := State.reset
  s.boot.stage = .rom ∧ s.boot.ifMajor = 0 ∧ s.boot.ifMinor = 0 ∧ s.boot.ranSlot = 0 ∧ s.boot.fallbackSlot = false ∧ s.boot.dtc = 0 ∧
  s.boot.pllLocked = false ∧
  s.flt.pkg = .serving ∧ s.flt.firstDtc = 0 ∧ s.flt.firstSource = 0 ∧ s.flt.firstLevel = 0 ∧ s.flt.firstPart = 0 ∧ s.flt.firstUnit = 0 ∧
  s.flt.doubtCount = 0 ∧ s.flt.faultN = false ∧
  s.host.fns.length = 16 ∧ (∀ f ∈ s.host.fns, f.mbox.st = .idle ∧ f.mbox.taken = false ∧ f.sqs = [] ∧ f.cqs = [] ∧ f.vecs.length = 128 ∧
    (∀ v ∈ f.vecs, v.masked = true ∧ v.pending = false ∧ v.holdoff = 0) ∧ f.causeMbox = false ∧ f.causeState = false ∧ f.causeSq = false ∧
    f.sqFaulted = 0) ∧
  s.host.wins = [] ∧ s.host.bus = [] ∧
  s.parts.length = 8 ∧ (∀ p ∈ s.parts, p.st = .disabled ∧ p.handles = 0 ∧ p.replays = 0 ∧ p.attempt = none ∧ p.sems = []) ∧
  s.tenants = [] ∧ s.adapters = [] ∧ s.reqs = [] ∧ s.frames = [] ∧
  s.ports.length = 12 ∧ (∀ p ∈ s.ports, p.st = .disabled ∧ p.crcData = 0 ∧ p.crcCtrl = 0 ∧ p.nakSent = 0 ∧ p.nakRecv = 0 ∧ p.replayed = 0 ∧
    p.recCount = 0 ∧ p.downs = 0 ∧ p.holds = 0) ∧
  s.pins.mf.length = 16 ∧ (∀ m ∈ s.pins.mf, m.fn = .gpioIn) ∧ s.pins.misalign = 0 ∧ s.pins.lost = 0 ∧
  s.gov.permits = [] ∧ s.gov.g = 0 ∧ s.ledger.closes = 0 ∧ s.ledger.result = 0 ∧
  (∀ c a, csGet (clusterOf s c).cs a = 0) ∧ Memory.wf s = true ∧ s.pending = []

/-- Every step keeps every Cluster Store in canonical form. For every state whose Cluster Stores each list their non-zero bytes
once, in ascending address (R208, R270), a step that answers a next state leaves them so: whatever command is at the front
of the queue, the list that stands for a store never holds an address twice, out of order, or with the value that an
unlisted byte reads. The form is the model's; that each store's bytes are what its writes made them rests on it. -/
def Obligations.EveryStepKeepsStoresCanonical : Prop :=
  ∀ s t : State, Memory.wf s = true → step s = .next t → Memory.wf t = true
end

