-- ==== Sys2Proof/Decode.lean ====
section
/-! DEFINITION. The commands are events and messages, not words: spec/opcode_table.json gives no row any bits. -/

namespace Sys2Proof

/-- No word spells a command. -/
def decodeTableWord (_nbits _w : Nat) : Option Instr := none

end Sys2Proof
end

