-- ==== Sys2Proof/Laws/State.lean ====
section
/-! SUPPORT. Which fields of State each update of one unit leaves alone: one lemma per field per update. -/

namespace Sys2Proof.Machine

variable (s : State)

/-! ### updFn -/

@[simp] theorem updFn_boot (n : Nat) (f : Fn → Fn) : (updFn s n f).boot = s.boot := rfl
@[simp] theorem updFn_flt (n : Nat) (f : Fn → Fn) : (updFn s n f).flt = s.flt := rfl
@[simp] theorem updFn_pins (n : Nat) (f : Fn → Fn) : (updFn s n f).pins = s.pins := rfl
@[simp] theorem updFn_gov (n : Nat) (f : Fn → Fn) : (updFn s n f).gov = s.gov := rfl
@[simp] theorem updFn_parts (n : Nat) (f : Fn → Fn) : (updFn s n f).parts = s.parts := rfl
@[simp] theorem updFn_tenants (n : Nat) (f : Fn → Fn) : (updFn s n f).tenants = s.tenants := rfl
@[simp] theorem updFn_adapters (n : Nat) (f : Fn → Fn) : (updFn s n f).adapters = s.adapters := rfl
@[simp] theorem updFn_regs (n : Nat) (f : Fn → Fn) : (updFn s n f).regs = s.regs := rfl
@[simp] theorem updFn_reqs (n : Nat) (f : Fn → Fn) : (updFn s n f).reqs = s.reqs := rfl
@[simp] theorem updFn_frames (n : Nat) (f : Fn → Fn) : (updFn s n f).frames = s.frames := rfl
@[simp] theorem updFn_clusters (n : Nat) (f : Fn → Fn) : (updFn s n f).clusters = s.clusters := rfl
@[simp] theorem updFn_ports (n : Nat) (f : Fn → Fn) : (updFn s n f).ports = s.ports := rfl
@[simp] theorem updFn_group (n : Nat) (f : Fn → Fn) : (updFn s n f).group = s.group := rfl
@[simp] theorem updFn_ledger (n : Nat) (f : Fn → Fn) : (updFn s n f).ledger = s.ledger := rfl
@[simp] theorem updFn_tele (n : Nat) (f : Fn → Fn) : (updFn s n f).tele = s.tele := rfl
@[simp] theorem updFn_freeCtr (n : Nat) (f : Fn → Fn) : (updFn s n f).freeCtr = s.freeCtr := rfl
@[simp] theorem updFn_pending (n : Nat) (f : Fn → Fn) : (updFn s n f).pending = s.pending := rfl
@[simp] theorem updFn_served (n : Nat) (f : Fn → Fn) : (updFn s n f).served = s.served := rfl
@[simp] theorem updFn_notices (n : Nat) (f : Fn → Fn) : (updFn s n f).notices = s.notices := rfl

/-! ### updVec -/

@[simp] theorem updVec_boot (n v : Nat) (f : Vec → Vec) : (updVec s n v f).boot = s.boot := rfl
@[simp] theorem updVec_flt (n v : Nat) (f : Vec → Vec) : (updVec s n v f).flt = s.flt := rfl
@[simp] theorem updVec_pins (n v : Nat) (f : Vec → Vec) : (updVec s n v f).pins = s.pins := rfl
@[simp] theorem updVec_gov (n v : Nat) (f : Vec → Vec) : (updVec s n v f).gov = s.gov := rfl
@[simp] theorem updVec_parts (n v : Nat) (f : Vec → Vec) : (updVec s n v f).parts = s.parts := rfl
@[simp] theorem updVec_tenants (n v : Nat) (f : Vec → Vec) : (updVec s n v f).tenants = s.tenants := rfl
@[simp] theorem updVec_adapters (n v : Nat) (f : Vec → Vec) : (updVec s n v f).adapters = s.adapters := rfl
@[simp] theorem updVec_regs (n v : Nat) (f : Vec → Vec) : (updVec s n v f).regs = s.regs := rfl
@[simp] theorem updVec_reqs (n v : Nat) (f : Vec → Vec) : (updVec s n v f).reqs = s.reqs := rfl
@[simp] theorem updVec_frames (n v : Nat) (f : Vec → Vec) : (updVec s n v f).frames = s.frames := rfl
@[simp] theorem updVec_clusters (n v : Nat) (f : Vec → Vec) : (updVec s n v f).clusters = s.clusters := rfl
@[simp] theorem updVec_ports (n v : Nat) (f : Vec → Vec) : (updVec s n v f).ports = s.ports := rfl
@[simp] theorem updVec_group (n v : Nat) (f : Vec → Vec) : (updVec s n v f).group = s.group := rfl
@[simp] theorem updVec_ledger (n v : Nat) (f : Vec → Vec) : (updVec s n v f).ledger = s.ledger := rfl
@[simp] theorem updVec_tele (n v : Nat) (f : Vec → Vec) : (updVec s n v f).tele = s.tele := rfl
@[simp] theorem updVec_freeCtr (n v : Nat) (f : Vec → Vec) : (updVec s n v f).freeCtr = s.freeCtr := rfl
@[simp] theorem updVec_pending (n v : Nat) (f : Vec → Vec) : (updVec s n v f).pending = s.pending := rfl
@[simp] theorem updVec_served (n v : Nat) (f : Vec → Vec) : (updVec s n v f).served = s.served := rfl
@[simp] theorem updVec_notices (n v : Nat) (f : Vec → Vec) : (updVec s n v f).notices = s.notices := rfl

/-! ### updSq -/

@[simp] theorem updSq_boot (n q : Nat) (f : Sq → Sq) : (updSq s n q f).boot = s.boot := rfl
@[simp] theorem updSq_flt (n q : Nat) (f : Sq → Sq) : (updSq s n q f).flt = s.flt := rfl
@[simp] theorem updSq_pins (n q : Nat) (f : Sq → Sq) : (updSq s n q f).pins = s.pins := rfl
@[simp] theorem updSq_gov (n q : Nat) (f : Sq → Sq) : (updSq s n q f).gov = s.gov := rfl
@[simp] theorem updSq_parts (n q : Nat) (f : Sq → Sq) : (updSq s n q f).parts = s.parts := rfl
@[simp] theorem updSq_tenants (n q : Nat) (f : Sq → Sq) : (updSq s n q f).tenants = s.tenants := rfl
@[simp] theorem updSq_adapters (n q : Nat) (f : Sq → Sq) : (updSq s n q f).adapters = s.adapters := rfl
@[simp] theorem updSq_regs (n q : Nat) (f : Sq → Sq) : (updSq s n q f).regs = s.regs := rfl
@[simp] theorem updSq_reqs (n q : Nat) (f : Sq → Sq) : (updSq s n q f).reqs = s.reqs := rfl
@[simp] theorem updSq_frames (n q : Nat) (f : Sq → Sq) : (updSq s n q f).frames = s.frames := rfl
@[simp] theorem updSq_clusters (n q : Nat) (f : Sq → Sq) : (updSq s n q f).clusters = s.clusters := rfl
@[simp] theorem updSq_ports (n q : Nat) (f : Sq → Sq) : (updSq s n q f).ports = s.ports := rfl
@[simp] theorem updSq_group (n q : Nat) (f : Sq → Sq) : (updSq s n q f).group = s.group := rfl
@[simp] theorem updSq_ledger (n q : Nat) (f : Sq → Sq) : (updSq s n q f).ledger = s.ledger := rfl
@[simp] theorem updSq_tele (n q : Nat) (f : Sq → Sq) : (updSq s n q f).tele = s.tele := rfl
@[simp] theorem updSq_freeCtr (n q : Nat) (f : Sq → Sq) : (updSq s n q f).freeCtr = s.freeCtr := rfl
@[simp] theorem updSq_pending (n q : Nat) (f : Sq → Sq) : (updSq s n q f).pending = s.pending := rfl
@[simp] theorem updSq_served (n q : Nat) (f : Sq → Sq) : (updSq s n q f).served = s.served := rfl
@[simp] theorem updSq_notices (n q : Nat) (f : Sq → Sq) : (updSq s n q f).notices = s.notices := rfl

/-! ### updCq -/

@[simp] theorem updCq_boot (n q : Nat) (f : Cq → Cq) : (updCq s n q f).boot = s.boot := rfl
@[simp] theorem updCq_flt (n q : Nat) (f : Cq → Cq) : (updCq s n q f).flt = s.flt := rfl
@[simp] theorem updCq_pins (n q : Nat) (f : Cq → Cq) : (updCq s n q f).pins = s.pins := rfl
@[simp] theorem updCq_gov (n q : Nat) (f : Cq → Cq) : (updCq s n q f).gov = s.gov := rfl
@[simp] theorem updCq_parts (n q : Nat) (f : Cq → Cq) : (updCq s n q f).parts = s.parts := rfl
@[simp] theorem updCq_tenants (n q : Nat) (f : Cq → Cq) : (updCq s n q f).tenants = s.tenants := rfl
@[simp] theorem updCq_adapters (n q : Nat) (f : Cq → Cq) : (updCq s n q f).adapters = s.adapters := rfl
@[simp] theorem updCq_regs (n q : Nat) (f : Cq → Cq) : (updCq s n q f).regs = s.regs := rfl
@[simp] theorem updCq_reqs (n q : Nat) (f : Cq → Cq) : (updCq s n q f).reqs = s.reqs := rfl
@[simp] theorem updCq_frames (n q : Nat) (f : Cq → Cq) : (updCq s n q f).frames = s.frames := rfl
@[simp] theorem updCq_clusters (n q : Nat) (f : Cq → Cq) : (updCq s n q f).clusters = s.clusters := rfl
@[simp] theorem updCq_ports (n q : Nat) (f : Cq → Cq) : (updCq s n q f).ports = s.ports := rfl
@[simp] theorem updCq_group (n q : Nat) (f : Cq → Cq) : (updCq s n q f).group = s.group := rfl
@[simp] theorem updCq_ledger (n q : Nat) (f : Cq → Cq) : (updCq s n q f).ledger = s.ledger := rfl
@[simp] theorem updCq_tele (n q : Nat) (f : Cq → Cq) : (updCq s n q f).tele = s.tele := rfl
@[simp] theorem updCq_freeCtr (n q : Nat) (f : Cq → Cq) : (updCq s n q f).freeCtr = s.freeCtr := rfl
@[simp] theorem updCq_pending (n q : Nat) (f : Cq → Cq) : (updCq s n q f).pending = s.pending := rfl
@[simp] theorem updCq_served (n q : Nat) (f : Cq → Cq) : (updCq s n q f).served = s.served := rfl
@[simp] theorem updCq_notices (n q : Nat) (f : Cq → Cq) : (updCq s n q f).notices = s.notices := rfl

/-! ### updPart -/

@[simp] theorem updPart_boot (p : Nat) (f : Part → Part) : (updPart s p f).boot = s.boot := rfl
@[simp] theorem updPart_flt (p : Nat) (f : Part → Part) : (updPart s p f).flt = s.flt := rfl
@[simp] theorem updPart_pins (p : Nat) (f : Part → Part) : (updPart s p f).pins = s.pins := rfl
@[simp] theorem updPart_gov (p : Nat) (f : Part → Part) : (updPart s p f).gov = s.gov := rfl
@[simp] theorem updPart_host (p : Nat) (f : Part → Part) : (updPart s p f).host = s.host := rfl
@[simp] theorem updPart_tenants (p : Nat) (f : Part → Part) : (updPart s p f).tenants = s.tenants := rfl
@[simp] theorem updPart_adapters (p : Nat) (f : Part → Part) : (updPart s p f).adapters = s.adapters := rfl
@[simp] theorem updPart_regs (p : Nat) (f : Part → Part) : (updPart s p f).regs = s.regs := rfl
@[simp] theorem updPart_reqs (p : Nat) (f : Part → Part) : (updPart s p f).reqs = s.reqs := rfl
@[simp] theorem updPart_frames (p : Nat) (f : Part → Part) : (updPart s p f).frames = s.frames := rfl
@[simp] theorem updPart_clusters (p : Nat) (f : Part → Part) : (updPart s p f).clusters = s.clusters := rfl
@[simp] theorem updPart_ports (p : Nat) (f : Part → Part) : (updPart s p f).ports = s.ports := rfl
@[simp] theorem updPart_group (p : Nat) (f : Part → Part) : (updPart s p f).group = s.group := rfl
@[simp] theorem updPart_ledger (p : Nat) (f : Part → Part) : (updPart s p f).ledger = s.ledger := rfl
@[simp] theorem updPart_tele (p : Nat) (f : Part → Part) : (updPart s p f).tele = s.tele := rfl
@[simp] theorem updPart_freeCtr (p : Nat) (f : Part → Part) : (updPart s p f).freeCtr = s.freeCtr := rfl
@[simp] theorem updPart_pending (p : Nat) (f : Part → Part) : (updPart s p f).pending = s.pending := rfl
@[simp] theorem updPart_served (p : Nat) (f : Part → Part) : (updPart s p f).served = s.served := rfl
@[simp] theorem updPart_notices (p : Nat) (f : Part → Part) : (updPart s p f).notices = s.notices := rfl

/-! ### updModel -/

@[simp] theorem updModel_boot (p i : Nat) (f : Model → Model) : (updModel s p i f).boot = s.boot := rfl
@[simp] theorem updModel_flt (p i : Nat) (f : Model → Model) : (updModel s p i f).flt = s.flt := rfl
@[simp] theorem updModel_pins (p i : Nat) (f : Model → Model) : (updModel s p i f).pins = s.pins := rfl
@[simp] theorem updModel_gov (p i : Nat) (f : Model → Model) : (updModel s p i f).gov = s.gov := rfl
@[simp] theorem updModel_host (p i : Nat) (f : Model → Model) : (updModel s p i f).host = s.host := rfl
@[simp] theorem updModel_tenants (p i : Nat) (f : Model → Model) : (updModel s p i f).tenants = s.tenants := rfl
@[simp] theorem updModel_adapters (p i : Nat) (f : Model → Model) : (updModel s p i f).adapters = s.adapters := rfl
@[simp] theorem updModel_regs (p i : Nat) (f : Model → Model) : (updModel s p i f).regs = s.regs := rfl
@[simp] theorem updModel_reqs (p i : Nat) (f : Model → Model) : (updModel s p i f).reqs = s.reqs := rfl
@[simp] theorem updModel_frames (p i : Nat) (f : Model → Model) : (updModel s p i f).frames = s.frames := rfl
@[simp] theorem updModel_clusters (p i : Nat) (f : Model → Model) : (updModel s p i f).clusters = s.clusters := rfl
@[simp] theorem updModel_ports (p i : Nat) (f : Model → Model) : (updModel s p i f).ports = s.ports := rfl
@[simp] theorem updModel_group (p i : Nat) (f : Model → Model) : (updModel s p i f).group = s.group := rfl
@[simp] theorem updModel_ledger (p i : Nat) (f : Model → Model) : (updModel s p i f).ledger = s.ledger := rfl
@[simp] theorem updModel_tele (p i : Nat) (f : Model → Model) : (updModel s p i f).tele = s.tele := rfl
@[simp] theorem updModel_freeCtr (p i : Nat) (f : Model → Model) : (updModel s p i f).freeCtr = s.freeCtr := rfl
@[simp] theorem updModel_pending (p i : Nat) (f : Model → Model) : (updModel s p i f).pending = s.pending := rfl
@[simp] theorem updModel_served (p i : Nat) (f : Model → Model) : (updModel s p i f).served = s.served := rfl
@[simp] theorem updModel_notices (p i : Nat) (f : Model → Model) : (updModel s p i f).notices = s.notices := rfl

/-! ### updPort -/

@[simp] theorem updPort_boot (n : Nat) (f : Port → Port) : (updPort s n f).boot = s.boot := rfl
@[simp] theorem updPort_flt (n : Nat) (f : Port → Port) : (updPort s n f).flt = s.flt := rfl
@[simp] theorem updPort_pins (n : Nat) (f : Port → Port) : (updPort s n f).pins = s.pins := rfl
@[simp] theorem updPort_gov (n : Nat) (f : Port → Port) : (updPort s n f).gov = s.gov := rfl
@[simp] theorem updPort_host (n : Nat) (f : Port → Port) : (updPort s n f).host = s.host := rfl
@[simp] theorem updPort_parts (n : Nat) (f : Port → Port) : (updPort s n f).parts = s.parts := rfl
@[simp] theorem updPort_tenants (n : Nat) (f : Port → Port) : (updPort s n f).tenants = s.tenants := rfl
@[simp] theorem updPort_adapters (n : Nat) (f : Port → Port) : (updPort s n f).adapters = s.adapters := rfl
@[simp] theorem updPort_regs (n : Nat) (f : Port → Port) : (updPort s n f).regs = s.regs := rfl
@[simp] theorem updPort_reqs (n : Nat) (f : Port → Port) : (updPort s n f).reqs = s.reqs := rfl
@[simp] theorem updPort_frames (n : Nat) (f : Port → Port) : (updPort s n f).frames = s.frames := rfl
@[simp] theorem updPort_clusters (n : Nat) (f : Port → Port) : (updPort s n f).clusters = s.clusters := rfl
@[simp] theorem updPort_group (n : Nat) (f : Port → Port) : (updPort s n f).group = s.group := rfl
@[simp] theorem updPort_ledger (n : Nat) (f : Port → Port) : (updPort s n f).ledger = s.ledger := rfl
@[simp] theorem updPort_tele (n : Nat) (f : Port → Port) : (updPort s n f).tele = s.tele := rfl
@[simp] theorem updPort_freeCtr (n : Nat) (f : Port → Port) : (updPort s n f).freeCtr = s.freeCtr := rfl
@[simp] theorem updPort_pending (n : Nat) (f : Port → Port) : (updPort s n f).pending = s.pending := rfl
@[simp] theorem updPort_served (n : Nat) (f : Port → Port) : (updPort s n f).served = s.served := rfl
@[simp] theorem updPort_notices (n : Nat) (f : Port → Port) : (updPort s n f).notices = s.notices := rfl

/-! ### updReq -/

@[simp] theorem updReq_boot (h : Nat) (f : Req → Req) : (updReq s h f).boot = s.boot := rfl
@[simp] theorem updReq_flt (h : Nat) (f : Req → Req) : (updReq s h f).flt = s.flt := rfl
@[simp] theorem updReq_pins (h : Nat) (f : Req → Req) : (updReq s h f).pins = s.pins := rfl
@[simp] theorem updReq_gov (h : Nat) (f : Req → Req) : (updReq s h f).gov = s.gov := rfl
@[simp] theorem updReq_host (h : Nat) (f : Req → Req) : (updReq s h f).host = s.host := rfl
@[simp] theorem updReq_parts (h : Nat) (f : Req → Req) : (updReq s h f).parts = s.parts := rfl
@[simp] theorem updReq_tenants (h : Nat) (f : Req → Req) : (updReq s h f).tenants = s.tenants := rfl
@[simp] theorem updReq_adapters (h : Nat) (f : Req → Req) : (updReq s h f).adapters = s.adapters := rfl
@[simp] theorem updReq_regs (h : Nat) (f : Req → Req) : (updReq s h f).regs = s.regs := rfl
@[simp] theorem updReq_frames (h : Nat) (f : Req → Req) : (updReq s h f).frames = s.frames := rfl
@[simp] theorem updReq_clusters (h : Nat) (f : Req → Req) : (updReq s h f).clusters = s.clusters := rfl
@[simp] theorem updReq_ports (h : Nat) (f : Req → Req) : (updReq s h f).ports = s.ports := rfl
@[simp] theorem updReq_group (h : Nat) (f : Req → Req) : (updReq s h f).group = s.group := rfl
@[simp] theorem updReq_ledger (h : Nat) (f : Req → Req) : (updReq s h f).ledger = s.ledger := rfl
@[simp] theorem updReq_tele (h : Nat) (f : Req → Req) : (updReq s h f).tele = s.tele := rfl
@[simp] theorem updReq_freeCtr (h : Nat) (f : Req → Req) : (updReq s h f).freeCtr = s.freeCtr := rfl
@[simp] theorem updReq_pending (h : Nat) (f : Req → Req) : (updReq s h f).pending = s.pending := rfl
@[simp] theorem updReq_served (h : Nat) (f : Req → Req) : (updReq s h f).served = s.served := rfl
@[simp] theorem updReq_notices (h : Nat) (f : Req → Req) : (updReq s h f).notices = s.notices := rfl

/-! ### updTenant -/

@[simp] theorem updTenant_boot (i : Nat) (f : Tenant → Tenant) : (updTenant s i f).boot = s.boot := rfl
@[simp] theorem updTenant_flt (i : Nat) (f : Tenant → Tenant) : (updTenant s i f).flt = s.flt := rfl
@[simp] theorem updTenant_pins (i : Nat) (f : Tenant → Tenant) : (updTenant s i f).pins = s.pins := rfl
@[simp] theorem updTenant_gov (i : Nat) (f : Tenant → Tenant) : (updTenant s i f).gov = s.gov := rfl
@[simp] theorem updTenant_host (i : Nat) (f : Tenant → Tenant) : (updTenant s i f).host = s.host := rfl
@[simp] theorem updTenant_parts (i : Nat) (f : Tenant → Tenant) : (updTenant s i f).parts = s.parts := rfl
@[simp] theorem updTenant_adapters (i : Nat) (f : Tenant → Tenant) : (updTenant s i f).adapters = s.adapters := rfl
@[simp] theorem updTenant_regs (i : Nat) (f : Tenant → Tenant) : (updTenant s i f).regs = s.regs := rfl
@[simp] theorem updTenant_reqs (i : Nat) (f : Tenant → Tenant) : (updTenant s i f).reqs = s.reqs := rfl
@[simp] theorem updTenant_frames (i : Nat) (f : Tenant → Tenant) : (updTenant s i f).frames = s.frames := rfl
@[simp] theorem updTenant_clusters (i : Nat) (f : Tenant → Tenant) : (updTenant s i f).clusters = s.clusters := rfl
@[simp] theorem updTenant_ports (i : Nat) (f : Tenant → Tenant) : (updTenant s i f).ports = s.ports := rfl
@[simp] theorem updTenant_group (i : Nat) (f : Tenant → Tenant) : (updTenant s i f).group = s.group := rfl
@[simp] theorem updTenant_ledger (i : Nat) (f : Tenant → Tenant) : (updTenant s i f).ledger = s.ledger := rfl
@[simp] theorem updTenant_tele (i : Nat) (f : Tenant → Tenant) : (updTenant s i f).tele = s.tele := rfl
@[simp] theorem updTenant_freeCtr (i : Nat) (f : Tenant → Tenant) : (updTenant s i f).freeCtr = s.freeCtr := rfl
@[simp] theorem updTenant_pending (i : Nat) (f : Tenant → Tenant) : (updTenant s i f).pending = s.pending := rfl
@[simp] theorem updTenant_served (i : Nat) (f : Tenant → Tenant) : (updTenant s i f).served = s.served := rfl
@[simp] theorem updTenant_notices (i : Nat) (f : Tenant → Tenant) : (updTenant s i f).notices = s.notices := rfl

/-! ### updAdapter -/

@[simp] theorem updAdapter_boot (p i : Nat) (f : Adapter → Adapter) : (updAdapter s p i f).boot = s.boot := rfl
@[simp] theorem updAdapter_flt (p i : Nat) (f : Adapter → Adapter) : (updAdapter s p i f).flt = s.flt := rfl
@[simp] theorem updAdapter_pins (p i : Nat) (f : Adapter → Adapter) : (updAdapter s p i f).pins = s.pins := rfl
@[simp] theorem updAdapter_gov (p i : Nat) (f : Adapter → Adapter) : (updAdapter s p i f).gov = s.gov := rfl
@[simp] theorem updAdapter_host (p i : Nat) (f : Adapter → Adapter) : (updAdapter s p i f).host = s.host := rfl
@[simp] theorem updAdapter_parts (p i : Nat) (f : Adapter → Adapter) : (updAdapter s p i f).parts = s.parts := rfl
@[simp] theorem updAdapter_tenants (p i : Nat) (f : Adapter → Adapter) : (updAdapter s p i f).tenants = s.tenants := rfl
@[simp] theorem updAdapter_regs (p i : Nat) (f : Adapter → Adapter) : (updAdapter s p i f).regs = s.regs := rfl
@[simp] theorem updAdapter_reqs (p i : Nat) (f : Adapter → Adapter) : (updAdapter s p i f).reqs = s.reqs := rfl
@[simp] theorem updAdapter_frames (p i : Nat) (f : Adapter → Adapter) : (updAdapter s p i f).frames = s.frames := rfl
@[simp] theorem updAdapter_clusters (p i : Nat) (f : Adapter → Adapter) : (updAdapter s p i f).clusters = s.clusters := rfl
@[simp] theorem updAdapter_ports (p i : Nat) (f : Adapter → Adapter) : (updAdapter s p i f).ports = s.ports := rfl
@[simp] theorem updAdapter_group (p i : Nat) (f : Adapter → Adapter) : (updAdapter s p i f).group = s.group := rfl
@[simp] theorem updAdapter_ledger (p i : Nat) (f : Adapter → Adapter) : (updAdapter s p i f).ledger = s.ledger := rfl
@[simp] theorem updAdapter_tele (p i : Nat) (f : Adapter → Adapter) : (updAdapter s p i f).tele = s.tele := rfl
@[simp] theorem updAdapter_freeCtr (p i : Nat) (f : Adapter → Adapter) : (updAdapter s p i f).freeCtr = s.freeCtr := rfl
@[simp] theorem updAdapter_pending (p i : Nat) (f : Adapter → Adapter) : (updAdapter s p i f).pending = s.pending := rfl
@[simp] theorem updAdapter_served (p i : Nat) (f : Adapter → Adapter) : (updAdapter s p i f).served = s.served := rfl
@[simp] theorem updAdapter_notices (p i : Nat) (f : Adapter → Adapter) : (updAdapter s p i f).notices = s.notices := rfl

/-! ### putCluster -/

@[simp] theorem putCluster_boot (x : Cluster) : (putCluster s x).boot = s.boot := rfl
@[simp] theorem putCluster_flt (x : Cluster) : (putCluster s x).flt = s.flt := rfl
@[simp] theorem putCluster_pins (x : Cluster) : (putCluster s x).pins = s.pins := rfl
@[simp] theorem putCluster_gov (x : Cluster) : (putCluster s x).gov = s.gov := rfl
@[simp] theorem putCluster_host (x : Cluster) : (putCluster s x).host = s.host := rfl
@[simp] theorem putCluster_parts (x : Cluster) : (putCluster s x).parts = s.parts := rfl
@[simp] theorem putCluster_tenants (x : Cluster) : (putCluster s x).tenants = s.tenants := rfl
@[simp] theorem putCluster_adapters (x : Cluster) : (putCluster s x).adapters = s.adapters := rfl
@[simp] theorem putCluster_regs (x : Cluster) : (putCluster s x).regs = s.regs := rfl
@[simp] theorem putCluster_reqs (x : Cluster) : (putCluster s x).reqs = s.reqs := rfl
@[simp] theorem putCluster_frames (x : Cluster) : (putCluster s x).frames = s.frames := rfl
@[simp] theorem putCluster_ports (x : Cluster) : (putCluster s x).ports = s.ports := rfl
@[simp] theorem putCluster_group (x : Cluster) : (putCluster s x).group = s.group := rfl
@[simp] theorem putCluster_ledger (x : Cluster) : (putCluster s x).ledger = s.ledger := rfl
@[simp] theorem putCluster_tele (x : Cluster) : (putCluster s x).tele = s.tele := rfl
@[simp] theorem putCluster_freeCtr (x : Cluster) : (putCluster s x).freeCtr = s.freeCtr := rfl
@[simp] theorem putCluster_pending (x : Cluster) : (putCluster s x).pending = s.pending := rfl
@[simp] theorem putCluster_served (x : Cluster) : (putCluster s x).served = s.served := rfl
@[simp] theorem putCluster_notices (x : Cluster) : (putCluster s x).notices = s.notices := rfl

/-! ### updCluster -/

@[simp] theorem updCluster_boot (c : Nat) (f : Cluster → Cluster) : (updCluster s c f).boot = s.boot := rfl
@[simp] theorem updCluster_flt (c : Nat) (f : Cluster → Cluster) : (updCluster s c f).flt = s.flt := rfl
@[simp] theorem updCluster_pins (c : Nat) (f : Cluster → Cluster) : (updCluster s c f).pins = s.pins := rfl
@[simp] theorem updCluster_gov (c : Nat) (f : Cluster → Cluster) : (updCluster s c f).gov = s.gov := rfl
@[simp] theorem updCluster_host (c : Nat) (f : Cluster → Cluster) : (updCluster s c f).host = s.host := rfl
@[simp] theorem updCluster_parts (c : Nat) (f : Cluster → Cluster) : (updCluster s c f).parts = s.parts := rfl
@[simp] theorem updCluster_tenants (c : Nat) (f : Cluster → Cluster) : (updCluster s c f).tenants = s.tenants := rfl
@[simp] theorem updCluster_adapters (c : Nat) (f : Cluster → Cluster) : (updCluster s c f).adapters = s.adapters := rfl
@[simp] theorem updCluster_regs (c : Nat) (f : Cluster → Cluster) : (updCluster s c f).regs = s.regs := rfl
@[simp] theorem updCluster_reqs (c : Nat) (f : Cluster → Cluster) : (updCluster s c f).reqs = s.reqs := rfl
@[simp] theorem updCluster_frames (c : Nat) (f : Cluster → Cluster) : (updCluster s c f).frames = s.frames := rfl
@[simp] theorem updCluster_ports (c : Nat) (f : Cluster → Cluster) : (updCluster s c f).ports = s.ports := rfl
@[simp] theorem updCluster_group (c : Nat) (f : Cluster → Cluster) : (updCluster s c f).group = s.group := rfl
@[simp] theorem updCluster_ledger (c : Nat) (f : Cluster → Cluster) : (updCluster s c f).ledger = s.ledger := rfl
@[simp] theorem updCluster_tele (c : Nat) (f : Cluster → Cluster) : (updCluster s c f).tele = s.tele := rfl
@[simp] theorem updCluster_freeCtr (c : Nat) (f : Cluster → Cluster) : (updCluster s c f).freeCtr = s.freeCtr := rfl
@[simp] theorem updCluster_pending (c : Nat) (f : Cluster → Cluster) : (updCluster s c f).pending = s.pending := rfl
@[simp] theorem updCluster_served (c : Nat) (f : Cluster → Cluster) : (updCluster s c f).served = s.served := rfl
@[simp] theorem updCluster_notices (c : Nat) (f : Cluster → Cluster) : (updCluster s c f).notices = s.notices := rfl

/-! ### dropCluster -/

@[simp] theorem dropCluster_boot (c : Nat) : (dropCluster s c).boot = s.boot := rfl
@[simp] theorem dropCluster_flt (c : Nat) : (dropCluster s c).flt = s.flt := rfl
@[simp] theorem dropCluster_pins (c : Nat) : (dropCluster s c).pins = s.pins := rfl
@[simp] theorem dropCluster_gov (c : Nat) : (dropCluster s c).gov = s.gov := rfl
@[simp] theorem dropCluster_host (c : Nat) : (dropCluster s c).host = s.host := rfl
@[simp] theorem dropCluster_parts (c : Nat) : (dropCluster s c).parts = s.parts := rfl
@[simp] theorem dropCluster_tenants (c : Nat) : (dropCluster s c).tenants = s.tenants := rfl
@[simp] theorem dropCluster_adapters (c : Nat) : (dropCluster s c).adapters = s.adapters := rfl
@[simp] theorem dropCluster_regs (c : Nat) : (dropCluster s c).regs = s.regs := rfl
@[simp] theorem dropCluster_reqs (c : Nat) : (dropCluster s c).reqs = s.reqs := rfl
@[simp] theorem dropCluster_frames (c : Nat) : (dropCluster s c).frames = s.frames := rfl
@[simp] theorem dropCluster_ports (c : Nat) : (dropCluster s c).ports = s.ports := rfl
@[simp] theorem dropCluster_group (c : Nat) : (dropCluster s c).group = s.group := rfl
@[simp] theorem dropCluster_ledger (c : Nat) : (dropCluster s c).ledger = s.ledger := rfl
@[simp] theorem dropCluster_tele (c : Nat) : (dropCluster s c).tele = s.tele := rfl
@[simp] theorem dropCluster_freeCtr (c : Nat) : (dropCluster s c).freeCtr = s.freeCtr := rfl
@[simp] theorem dropCluster_pending (c : Nat) : (dropCluster s c).pending = s.pending := rfl
@[simp] theorem dropCluster_served (c : Nat) : (dropCluster s c).served = s.served := rfl
@[simp] theorem dropCluster_notices (c : Nat) : (dropCluster s c).notices = s.notices := rfl

/-! ### putFrame -/

@[simp] theorem putFrame_boot (f : Frame) : (putFrame s f).boot = s.boot := rfl
@[simp] theorem putFrame_flt (f : Frame) : (putFrame s f).flt = s.flt := rfl
@[simp] theorem putFrame_pins (f : Frame) : (putFrame s f).pins = s.pins := rfl
@[simp] theorem putFrame_gov (f : Frame) : (putFrame s f).gov = s.gov := rfl
@[simp] theorem putFrame_host (f : Frame) : (putFrame s f).host = s.host := rfl
@[simp] theorem putFrame_parts (f : Frame) : (putFrame s f).parts = s.parts := rfl
@[simp] theorem putFrame_tenants (f : Frame) : (putFrame s f).tenants = s.tenants := rfl
@[simp] theorem putFrame_adapters (f : Frame) : (putFrame s f).adapters = s.adapters := rfl
@[simp] theorem putFrame_regs (f : Frame) : (putFrame s f).regs = s.regs := rfl
@[simp] theorem putFrame_reqs (f : Frame) : (putFrame s f).reqs = s.reqs := rfl
@[simp] theorem putFrame_clusters (f : Frame) : (putFrame s f).clusters = s.clusters := rfl
@[simp] theorem putFrame_ports (f : Frame) : (putFrame s f).ports = s.ports := rfl
@[simp] theorem putFrame_group (f : Frame) : (putFrame s f).group = s.group := rfl
@[simp] theorem putFrame_ledger (f : Frame) : (putFrame s f).ledger = s.ledger := rfl
@[simp] theorem putFrame_tele (f : Frame) : (putFrame s f).tele = s.tele := rfl
@[simp] theorem putFrame_freeCtr (f : Frame) : (putFrame s f).freeCtr = s.freeCtr := rfl
@[simp] theorem putFrame_pending (f : Frame) : (putFrame s f).pending = s.pending := rfl
@[simp] theorem putFrame_served (f : Frame) : (putFrame s f).served = s.served := rfl
@[simp] theorem putFrame_notices (f : Frame) : (putFrame s f).notices = s.notices := rfl

/-! ### updFrame -/

@[simp] theorem updFrame_boot (n : Nat) (f : Frame → Frame) : (updFrame s n f).boot = s.boot := rfl
@[simp] theorem updFrame_flt (n : Nat) (f : Frame → Frame) : (updFrame s n f).flt = s.flt := rfl
@[simp] theorem updFrame_pins (n : Nat) (f : Frame → Frame) : (updFrame s n f).pins = s.pins := rfl
@[simp] theorem updFrame_gov (n : Nat) (f : Frame → Frame) : (updFrame s n f).gov = s.gov := rfl
@[simp] theorem updFrame_host (n : Nat) (f : Frame → Frame) : (updFrame s n f).host = s.host := rfl
@[simp] theorem updFrame_parts (n : Nat) (f : Frame → Frame) : (updFrame s n f).parts = s.parts := rfl
@[simp] theorem updFrame_tenants (n : Nat) (f : Frame → Frame) : (updFrame s n f).tenants = s.tenants := rfl
@[simp] theorem updFrame_adapters (n : Nat) (f : Frame → Frame) : (updFrame s n f).adapters = s.adapters := rfl
@[simp] theorem updFrame_regs (n : Nat) (f : Frame → Frame) : (updFrame s n f).regs = s.regs := rfl
@[simp] theorem updFrame_reqs (n : Nat) (f : Frame → Frame) : (updFrame s n f).reqs = s.reqs := rfl
@[simp] theorem updFrame_clusters (n : Nat) (f : Frame → Frame) : (updFrame s n f).clusters = s.clusters := rfl
@[simp] theorem updFrame_ports (n : Nat) (f : Frame → Frame) : (updFrame s n f).ports = s.ports := rfl
@[simp] theorem updFrame_group (n : Nat) (f : Frame → Frame) : (updFrame s n f).group = s.group := rfl
@[simp] theorem updFrame_ledger (n : Nat) (f : Frame → Frame) : (updFrame s n f).ledger = s.ledger := rfl
@[simp] theorem updFrame_tele (n : Nat) (f : Frame → Frame) : (updFrame s n f).tele = s.tele := rfl
@[simp] theorem updFrame_freeCtr (n : Nat) (f : Frame → Frame) : (updFrame s n f).freeCtr = s.freeCtr := rfl
@[simp] theorem updFrame_pending (n : Nat) (f : Frame → Frame) : (updFrame s n f).pending = s.pending := rfl
@[simp] theorem updFrame_served (n : Nat) (f : Frame → Frame) : (updFrame s n f).served = s.served := rfl
@[simp] theorem updFrame_notices (n : Nat) (f : Frame → Frame) : (updFrame s n f).notices = s.notices := rfl

/-! ### putWin -/

@[simp] theorem putWin_boot (w : Win) : (putWin s w).boot = s.boot := rfl
@[simp] theorem putWin_flt (w : Win) : (putWin s w).flt = s.flt := rfl
@[simp] theorem putWin_pins (w : Win) : (putWin s w).pins = s.pins := rfl
@[simp] theorem putWin_gov (w : Win) : (putWin s w).gov = s.gov := rfl
@[simp] theorem putWin_parts (w : Win) : (putWin s w).parts = s.parts := rfl
@[simp] theorem putWin_tenants (w : Win) : (putWin s w).tenants = s.tenants := rfl
@[simp] theorem putWin_adapters (w : Win) : (putWin s w).adapters = s.adapters := rfl
@[simp] theorem putWin_regs (w : Win) : (putWin s w).regs = s.regs := rfl
@[simp] theorem putWin_reqs (w : Win) : (putWin s w).reqs = s.reqs := rfl
@[simp] theorem putWin_frames (w : Win) : (putWin s w).frames = s.frames := rfl
@[simp] theorem putWin_clusters (w : Win) : (putWin s w).clusters = s.clusters := rfl
@[simp] theorem putWin_ports (w : Win) : (putWin s w).ports = s.ports := rfl
@[simp] theorem putWin_group (w : Win) : (putWin s w).group = s.group := rfl
@[simp] theorem putWin_ledger (w : Win) : (putWin s w).ledger = s.ledger := rfl
@[simp] theorem putWin_tele (w : Win) : (putWin s w).tele = s.tele := rfl
@[simp] theorem putWin_freeCtr (w : Win) : (putWin s w).freeCtr = s.freeCtr := rfl
@[simp] theorem putWin_pending (w : Win) : (putWin s w).pending = s.pending := rfl
@[simp] theorem putWin_served (w : Win) : (putWin s w).served = s.served := rfl
@[simp] theorem putWin_notices (w : Win) : (putWin s w).notices = s.notices := rfl

end Sys2Proof.Machine
end

