-- ==== Sys2Proof/Laws/Ops.lean ====
section
/-! SUPPORT. What the shared operations do: one lemma each for the rows' wrappers, for taking a message, for the bus, the
vectors and the responses, and for the canonical form of a byte store. -/

namespace Sys2Proof.Machine

/-! ### Rows -/

theorem inRange_next {n b : Nat} (t : State) (h : n < b) : inRange n b t = .next t := by simp [inRange, h]

theorem inRange_fault {n b : Nat} (t : State) (h : ¬ n < b) : inRange n b t = .fault .noSuchUnit := by simp [inRange, h]

theorem nStacks_le (s : State) : nStacks s ≤ 8 := by
  unfold nStacks nDies nClusters
  split <;> omega

/-- A command that names a frame of the part acts with the frame's stack (R236, R237). -/
theorem onFrame_next {s : State} {f : Nat} (t : Nat → State) (h : f < nFrames s) : onFrame s f t = .next (t (stackOf s f)) := by
  have hs := nStacks_le s
  have hf : f < 4718592 := by unfold nFrames at h; omega
  have e : (frameDpa f - 0x1000000000) / 65536 = f := by unfold frameDpa; omega
  have h1 : ¬ frameDpa f < 0x30000000 := by unfold frameDpa; omega
  have h2 : ¬ frameDpa f < 0x34000000 := by unfold frameDpa; omega
  have h3 : ¬ frameDpa f < 0x1000000000 := by unfold frameDpa; omega
  have h4 : frameDpa f < 0x5800000000 := by unfold frameDpa; omega
  simp only [onFrame, placeOf, h1, h2, h3, h4, e, h, if_true, if_false]

theorem guarded_live {s : State} (t : State) (h : Live s) : guarded s t = t := by
  have : (s.flt.pkg == PkgState.uncontained) = false := by simpa [Live] using h
  simp [guarded, this]

theorem guarded_uncontained {s : State} (t : State) (h : s.flt.pkg = .uncontained) : guarded s t = s := by
  simp [guarded, h]

/-- A cluster row in a live package answers its meaning. -/
theorem clusterRow_next {s : State} {c : Nat} (t : State) (h : c < 192) (hl : Live s) : clusterRow s c t = .next t := by
  rw [clusterRow, inRange_next _ h, guarded_live _ hl]

/-- A command that may issue runs its meaning. -/
theorem clusterRow_issues {s : State} {c op : Nat} {x : Cx} {k : QCmd} (f : Cx → QCmd → State) (h : Issues s c op x k) :
    clusterRow s c (withCmd s c op f) = .next (f x k) := by
  obtain ⟨h1, h2, h3, h4, h5, h6, h7, h8, h9, h10⟩ := h
  rw [clusterRow_next _ h1 h2]
  have h11 : (shadowed x k && decide (64 ≤ (clusterOf s (shadowOf x)).twinQ.length)) = false := by simpa using h10
  simp only [withCmd, h3, h4, h5, h6]
  simp [h7, h8, h9, h11]

theorem portRow_next {s : State} {n : Nat} (t : State) (h : n < 12) (hl : Live s) : portRow s n t = .next t := by
  rw [portRow, inRange_next _ h, guarded_live _ hl]

theorem partRow_next {s : State} {p : Nat} (t : State) (h : p < 8) (hl : Live s) : partRow s p t = .next t := by
  rw [partRow, inRange_next _ h, guarded_live _ hl]

/-- A message row whose message waits and passes the common checks runs the row's core on the state with the message taken. -/
theorem msgRow_accepts {s : State} {fn : Nat} {via : Via} {cmd : Bytes} {isRow : Bytes → Bool}
    (core : State → Taken → State) (h : Accepts s fn via cmd) (hr : isRow cmd = true) :
    msgRow s fn via isRow core = .next (core (took s fn via cmd) (ask s fn via cmd)) := by
  obtain ⟨⟨hf, hl, hm⟩, hg⟩ := h
  simp only [took, ask] at hg
  rw [msgRow, inRange_next _ hf, guarded_live _ hl]
  simp [withMsg, hm, hr, hg, took, ask]

/-- A message row whose message fails a common check answers that check's code. -/
theorem msgRow_refuses {s : State} {fn : Nat} {via : Via} {cmd : Bytes} {isRow : Bytes → Bool} {c : Code}
    (core : State → Taken → State) (h : Waits s fn via cmd) (hr : isRow cmd = true)
    (hg : gateCode (took s fn via cmd) (ask s fn via cmd) = some c) :
    msgRow s fn via isRow core = .next (refuse (took s fn via cmd) (askCtx s fn via cmd) c) := by
  obtain ⟨hf, hl, hm⟩ := h
  simp only [took, ask] at hg
  rw [msgRow, inRange_next _ hf, guarded_live _ hl]
  simp [withMsg, hm, hr, hg, took, askCtx]

/-- A message row without such a message at the front does nothing. -/
theorem msgRow_idle {s : State} {fn : Nat} {via : Via} {isRow : Bytes → Bool} (core : State → Taken → State)
    (hf : fn < 16) (hm : ∀ cmd, frontMsg s fn via = some cmd → isRow cmd = false) :
    msgRow s fn via isRow core = .next s := by
  rw [msgRow, inRange_next _ hf]
  cases h : frontMsg s fn via with
  | none => simp [withMsg, h, guarded]
  | some cmd => simp [withMsg, h, hm cmd h, guarded]

/-! ### The message as taken -/

@[simp] theorem ask_cmd (s : State) (fn : Nat) (via : Via) (cmd : Bytes) : (ask s fn via cmd).cmd = cmd := by
  cases via <;> rfl

@[simp] theorem ask_fn (s : State) (fn : Nat) (via : Via) (cmd : Bytes) : (ask s fn via cmd).fn = fn := by
  cases via <;> rfl

@[simp] theorem ask_ctx_part (s : State) (fn : Nat) (via : Via) (cmd : Bytes) : (ask s fn via cmd).ctx.part = rd cmd 6 1 := by
  cases via <;> rfl

@[simp] theorem ask_ctx_opcode (s : State) (fn : Nat) (via : Via) (cmd : Bytes) : (ask s fn via cmd).ctx.opcode = rd cmd 0 2 := by
  cases via <;> rfl

@[simp] theorem ask_ctx_tenant (s : State) (fn : Nat) (via : Via) (cmd : Bytes) : (ask s fn via cmd).ctx.tenant = rd cmd 4 2 := by
  cases via <;> rfl

@[simp] theorem ask_ctx_cid (s : State) (fn : Nat) (via : Via) (cmd : Bytes) : (ask s fn via cmd).ctx.cid = rd cmd 2 2 := by
  cases via <;> rfl

@[simp] theorem ask_ctx_accept (s : State) (fn : Nat) (via : Via) (cmd : Bytes) : (ask s fn via cmd).ctx.accept = acceptStamp s := by
  cases via <;> rfl

theorem ask_ctx (s : State) (fn : Nat) (via : Via) (cmd : Bytes) : (ask s fn via cmd).ctx = askCtx s fn via cmd := rfl

@[simp] theorem took_boot (s : State) (fn : Nat) (via : Via) (cmd : Bytes) : (took s fn via cmd).boot = s.boot := by cases via <;> rfl

@[simp] theorem took_flt (s : State) (fn : Nat) (via : Via) (cmd : Bytes) : (took s fn via cmd).flt = s.flt := by cases via <;> rfl

@[simp] theorem took_pins (s : State) (fn : Nat) (via : Via) (cmd : Bytes) : (took s fn via cmd).pins = s.pins := by cases via <;> rfl

@[simp] theorem took_gov (s : State) (fn : Nat) (via : Via) (cmd : Bytes) : (took s fn via cmd).gov = s.gov := by cases via <;> rfl

@[simp] theorem took_parts (s : State) (fn : Nat) (via : Via) (cmd : Bytes) : (took s fn via cmd).parts = s.parts := by cases via <;> rfl

@[simp] theorem took_tenants (s : State) (fn : Nat) (via : Via) (cmd : Bytes) : (took s fn via cmd).tenants = s.tenants := by cases via <;> rfl

@[simp] theorem took_adapters (s : State) (fn : Nat) (via : Via) (cmd : Bytes) : (took s fn via cmd).adapters = s.adapters := by cases via <;> rfl

@[simp] theorem took_regs (s : State) (fn : Nat) (via : Via) (cmd : Bytes) : (took s fn via cmd).regs = s.regs := by cases via <;> rfl

@[simp] theorem took_reqs (s : State) (fn : Nat) (via : Via) (cmd : Bytes) : (took s fn via cmd).reqs = s.reqs := by cases via <;> rfl

@[simp] theorem took_frames (s : State) (fn : Nat) (via : Via) (cmd : Bytes) : (took s fn via cmd).frames = s.frames := by cases via <;> rfl

@[simp] theorem took_clusters (s : State) (fn : Nat) (via : Via) (cmd : Bytes) : (took s fn via cmd).clusters = s.clusters := by cases via <;> rfl

@[simp] theorem took_ports (s : State) (fn : Nat) (via : Via) (cmd : Bytes) : (took s fn via cmd).ports = s.ports := by cases via <;> rfl

@[simp] theorem took_group (s : State) (fn : Nat) (via : Via) (cmd : Bytes) : (took s fn via cmd).group = s.group := by cases via <;> rfl

@[simp] theorem took_ledger (s : State) (fn : Nat) (via : Via) (cmd : Bytes) : (took s fn via cmd).ledger = s.ledger := by cases via <;> rfl

@[simp] theorem took_tele (s : State) (fn : Nat) (via : Via) (cmd : Bytes) : (took s fn via cmd).tele = s.tele := by cases via <;> rfl

@[simp] theorem took_freeCtr (s : State) (fn : Nat) (via : Via) (cmd : Bytes) : (took s fn via cmd).freeCtr = s.freeCtr := by cases via <;> rfl

@[simp] theorem took_pending (s : State) (fn : Nat) (via : Via) (cmd : Bytes) : (took s fn via cmd).pending = s.pending := by cases via <;> rfl

@[simp] theorem took_served (s : State) (fn : Nat) (via : Via) (cmd : Bytes) : (took s fn via cmd).served = s.served := by cases via <;> rfl

@[simp] theorem took_notices (s : State) (fn : Nat) (via : Via) (cmd : Bytes) : (took s fn via cmd).notices = s.notices := by cases via <;> rfl

@[simp] theorem took_partOf (s : State) (fn : Nat) (via : Via) (cmd : Bytes) (p : Nat) : partOf (took s fn via cmd) p = partOf s p := by
  cases via <;> rfl

/-! ### Lists of units -/

@[simp] theorem modAt_length {α : Type} (l : List α) (i : Nat) (f : α → α) : (modAt l i f).length = l.length := by
  induction l generalizing i with
  | nil => rfl
  | cons a as ih => cases i <;> simp [modAt, ih]

theorem modAt_getElem? {α : Type} (l : List α) (i j : Nat) (f : α → α) :
    (modAt l i f)[j]? = if i = j then l[j]?.map f else l[j]? := by
  induction l generalizing i j with
  | nil => simp [modAt]
  | cons a as ih => cases i <;> cases j <;> simp [modAt, ih]

theorem modAt_getD_ne {α : Type} (l : List α) {i j : Nat} (f : α → α) (d : α) (h : i ≠ j) :
    (modAt l i f).getD j d = l.getD j d := by
  simp [List.getD_eq_getElem?_getD, modAt_getElem?, h]

theorem modAt_getD_same {α : Type} (l : List α) {i : Nat} (f : α → α) (d : α) (h : i < l.length) :
    (modAt l i f).getD i d = f (l.getD i d) := by
  rw [List.getD_eq_getElem?_getD, modAt_getElem?, List.getD_eq_getElem?_getD, List.getElem?_eq_getElem h]
  simp

theorem fnOf_updFn_ne (s : State) {n m : Nat} (f : Fn → Fn) (h : n ≠ m) : fnOf (updFn s n f) m = fnOf s m :=
  modAt_getD_ne _ _ _ h

theorem fnOf_updFn_same (s : State) {n : Nat} (f : Fn → Fn) (h : n < s.host.fns.length) :
    fnOf (updFn s n f) n = f (fnOf s n) := modAt_getD_same _ _ _ h

theorem partOf_updPart_ne (s : State) {n m : Nat} (f : Part → Part) (h : n ≠ m) : partOf (updPart s n f) m = partOf s m :=
  modAt_getD_ne _ _ _ h

theorem partOf_updPart_same (s : State) {n : Nat} (f : Part → Part) (h : n < s.parts.length) :
    partOf (updPart s n f) n = f (partOf s n) := modAt_getD_same _ _ _ h

theorem portOf_updPort_ne (s : State) {n m : Nat} (f : Port → Port) (h : n ≠ m) : portOf (updPort s n f) m = portOf s m :=
  modAt_getD_ne _ _ _ h

theorem portOf_updPort_same (s : State) {n : Nat} (f : Port → Port) (h : n < s.ports.length) :
    portOf (updPort s n f) n = f (portOf s n) := modAt_getD_same _ _ _ h

/-! ### The bus, vectors and responses change the host side only -/

/-- Whether an operation changed nothing but the host side. -/
def hostOnly (s t : State) : Prop := t = { s with host := t.host }

theorem hostOnly_refl (s : State) : hostOnly s s := rfl

theorem hostOnly_host (s : State) (h : HostIf) : hostOnly s { s with host := h } := rfl

theorem hostOnly_trans {s t u : State} (h : hostOnly s t) (g : hostOnly t u) : hostOnly s u := by
  unfold hostOnly at *; rw [g, h]

theorem updFn_hostOnly (s : State) (n : Nat) (f : Fn → Fn) : hostOnly s (updFn s n f) := rfl

theorem issue_hostOnly (s : State) (w : BusWrite) : hostOnly s (issue s w) := by
  unfold issue; split
  · rfl
  · split <;> rfl

theorem trySend_hostOnly (s : State) (fn v : Nat) : hostOnly s (trySend s fn v) := by
  unfold trySend; extract_lets x; split
  · exact hostOnly_trans (issue_hostOnly _ _) (updFn_hostOnly _ _ _)
  · rfl

theorem signal_hostOnly (s : State) (fn v : Nat) : hostOnly s (signal s fn v) := by
  unfold signal; split
  · exact hostOnly_trans (updFn_hostOnly _ _ _) (trySend_hostOnly _ _ _)
  · rfl

theorem mboxRespond_hostOnly (s : State) (fn : Nat) (r : Bytes) : hostOnly s (mboxRespond s fn r) :=
  hostOnly_trans (updFn_hostOnly _ _ _) (signal_hostOnly _ _ _)

theorem cqPost_hostOnly (s : State) (fn cq : Nat) (e : Nat → Bytes) : hostOnly s (cqPost s fn cq e) := by
  unfold cqPost; split
  · rfl
  · exact hostOnly_trans (hostOnly_trans (hostOnly_trans (issue_hostOnly _ _) (issue_hostOnly _ _)) (updFn_hostOnly _ _ _))
      (signal_hostOnly _ _ _)

theorem takeMsg_hostOnly (s : State) (fn : Nat) (via : Via) (cmd : Bytes) : hostOnly s (took s fn via cmd) := by
  cases via <;> rfl

/-- A response to a message that a function of this package sent changes the host side only. -/
theorem respond_hostOnly (s : State) (fn : Nat) (via : Via) (cmd : Bytes) (u : State) (code : Code) (body : Bytes) :
    hostOnly u (respond u (askCtx s fn via cmd) code body) := by
  cases via with
  | mailbox =>
    simp only [respond, respondNum, askCtx, takeMsg, ctxOf]
    split
    · rfl
    · exact mboxRespond_hostOnly _ _ _
  | sq q =>
    simp only [respond, respondNum, askCtx, takeMsg, ctxOf]
    split
    · rfl
    · exact cqPost_hostOnly _ _ _ _

theorem foldl_hostOnly {α : Type} (f : State → α → State) (hf : ∀ t a, hostOnly t (f t a)) (l : List α) (s : State) :
    hostOnly s (l.foldl f s) := by
  induction l generalizing s with
  | nil => rfl
  | cons a l ih => exact hostOnly_trans (hf s a) (ih _)

/-- The signals of a change of state or stage change the host side only (R427, R493). -/
theorem stateChanged_hostOnly (s : State) : hostOnly s (stateChanged s) := by
  refine foldl_hostOnly _ (fun t n => ?_) _ _
  split
  · exact hostOnly_trans (updFn_hostOnly _ _ _) (signal_hostOnly _ _ _)
  · rfl

theorem setStage_eq (s : State) (st : BootStage) :
    ∃ h, setStage s st = { s with boot := { s.boot with stage := st }, host := h } :=
  ⟨_, stateChanged_hostOnly _⟩

theorem setPkg_eq (s : State) (p : PkgState) : ∃ h, setPkg s p = { s with flt := { s.flt with pkg := p }, host := h } := by
  unfold setPkg; extract_lets t; split
  · exact ⟨s.host, rfl⟩
  · exact ⟨_, stateChanged_hostOnly _⟩

/-! ### Cluster Store bytes -/

theorem cellsFrom_mono {m : List Host.Cell} {lo hi : Nat} (h : lo ≤ hi) (hm : cellsFrom hi m = true) :
    cellsFrom lo m = true := by
  cases m with
  | nil => rfl
  | cons c r =>
    obtain ⟨b, v⟩ := c
    simp only [cellsFrom, Bool.and_eq_true, decide_eq_true_eq] at hm ⊢
    exact ⟨⟨by omega, hm.1.2⟩, hm.2⟩

theorem csSet_cellsFrom {m : List Host.Cell} {lo a : Nat} (v : Byte) (ha : lo ≤ a) (hm : cellsFrom lo m = true) :
    cellsFrom lo (csSet m a v) = true := by
  induction m generalizing lo with
  | nil => unfold csSet; split <;> simp_all [cellsFrom]
  | cons c r ih =>
    obtain ⟨b, w⟩ := c
    simp only [cellsFrom, Bool.and_eq_true, decide_eq_true_eq] at hm
    obtain ⟨⟨h1, h2⟩, h3⟩ := hm
    unfold csSet
    split
    · rename_i hab
      split
      · simp_all [cellsFrom]
      · rename_i hv
        simp only [cellsFrom, Bool.and_eq_true, decide_eq_true_eq]
        exact ⟨⟨ha, hv⟩, ⟨by omega, h2⟩, h3⟩
    · split
      · split
        · exact cellsFrom_mono (by omega) h3
        · rename_i hb hv
          subst hb
          simp only [cellsFrom, Bool.and_eq_true, decide_eq_true_eq]
          exact ⟨⟨ha, hv⟩, h3⟩
      · simp only [cellsFrom, Bool.and_eq_true, decide_eq_true_eq]
        exact ⟨⟨h1, h2⟩, ih (by omega) h3⟩

/-- Writing one byte keeps the canonical form (R270). -/
theorem csSet_cellsOk {m : List Host.Cell} (a : Nat) (v : Byte) (hm : cellsOk m = true) : cellsOk (csSet m a v) = true :=
  csSet_cellsFrom v (Nat.zero_le _) hm

/-- Writing a byte string keeps the canonical form (R208, R270). -/
theorem csWrite_cellsOk {m : List Host.Cell} (a : Nat) (bs : Bytes) (hm : cellsOk m = true) : cellsOk (csWrite m a bs) = true := by
  induction bs generalizing m a with
  | nil => exact hm
  | cons b bs ih =>
    unfold csWrite
    split
    · exact ih _ (csSet_cellsOk a b hm)
    · exact ih _ hm

/-- Reset has the canonical form: no cluster is in use. -/
theorem reset_wf : Memory.wf State.reset = true := rfl

theorem csGet_of_lt {m : List Host.Cell} {lo a : Nat} (h : a < lo) (hm : cellsFrom lo m = true) : csGet m a = 0 := by
  cases m with
  | nil => rfl
  | cons c r =>
    obtain ⟨b, v⟩ := c
    simp only [cellsFrom, Bool.and_eq_true, decide_eq_true_eq] at hm
    have h1 : b ≠ a := by omega
    have h2 : a < b := by omega
    simp [csGet, h1, h2]

end Sys2Proof.Machine
end

