-- ==== Sys2Proof/Tests/Slice0.lean ====
section
/-! SUPPORT. The model's own tests: ill-formed commands that wellFormed refuses, single steps with results worked out from the
spec, and for each statement states and operands that meet its hypotheses, clause by clause. -/

set_option Elab.async false

namespace Sys2Proof.Tests

open Sys2Proof.Machine

/-! ### Small states -/

/-- Nothing was corrected. -/
def noEcc : Ecc := { cs := 0, hbm := [] }

/-- A command slot: OPCODE, CID 7, TENANT, PARTITION, and the body from offset 8. -/
def msg (op tenant part : Nat) (body : Bytes) : Bytes :=
  slice (leBytes 2 op ++ leBytes 2 7 ++ leBytes 2 tenant ++ leBytes 1 part ++ zeroBytes 1 ++ body) 0 64

/-- A booted package that serves, with its host link up and two VFs enabled. -/
def live : State :=
  { State.reset with
    boot := { Boot.reset with pwrGood := true, pllLocked := true, booting := false, stage := .serving, dtc := 5000000, ifMajor := 1
                              dir := some { copy := 0, active := 0, gen := 1, lenA := 64, lenB := 64, cfgLen := 0 } }
    flt := { Flt.reset with quietN := false }
    host := { HostIf.reset with linkUp := true, vfs := 2 } }

/-- Function fn of a state with a message in its mailbox. -/
def boxed (s : State) (fn : Nat) (cmd : Bytes) : State :=
  updFn s fn fun f => { f with mbox := { f.mbox with st := .busy, cmd := cmd, taken := false } }

/-- A partition with clusters 0 to 7 and one HBM granule. -/
def part0 : Part := { Part.reset with st := .active, items := { Items.default with groups := 1, hbmCount := 1 } }

/-- Tenant 5 of partition 0, bound to VF 1. -/
def tenant5 : Tenant :=
  { id := 5, part := 0, vf := 1, rate := 0, burst := 0, pend := none, weight := 1, endAction := .hold, idleAction := .drop, idleTicks := 10
    parkOffset := 0, parkTtl := 100, parkStride := 0, bal := 0, res := 0, flow := 0, balAtClose := 0, et := 0, keys := [], accepted := 0
    ended := 0, queueTicks := 0, preempted := 0, engineTicks := 0, rows := 0, tokens := 0, dlMisses := 0, satRows := 0, numInvalid := 0
    ringErrs := 0 }

/-- The live package with partition 0 as given and tenant 5. -/
def withPart (x : Part) : State := { live with parts := x :: live.parts.drop 1, tenants := [tenant5] }

/-- Requests that hold nothing, of tenant 5 in partition 0, with handle 1. -/
def req1 : Req :=
  { h := 1, seq := 1, part := 0, tenant := 5, fn := 0, ownsRing := true, ring := { addr := 0, log2 := 6, ctrl := 0, pidx := 0, cidx := 0 }
    vector := 1, irqRecords := 0, irqTicks := 0, irqPend := 0, irqFirst := 0
    jrn := { ring := { addr := 0, log2 := 6, ctrl := 0, pidx := 0, cidx := 0 }, seq := 0, tokens := 0, sha := [], waiting := [], lastSeal := none }
    ident := [], digest := [], samp := { seed := 0, temp := 0, topK := 0, topP := 0, ctxMax := 100, turnMax := 0, endAction := .hold, endDefault := false, stops := [], prompt := [1] }
    ad0 := none, ad1 := none, comp0 := none, comp1 := none, base := { weights := [], program := [], level := .nlX1 }, fb := none
    kvBase := { kv := [], frames := [] }, kvFb := { kv := [], frames := [] }, quota := 0, slot := true, conv := .live, next := 0
    input := [1], condIn := 0, turnTokens := 0, fbMode := false, fbLeft := 0, catchUp := none, history := [], admitted := false, pins := .none
    adGone := false, cancel := none, cancelAt := none, firstDl := 0, tokDl := 0, accept := 0, tStart := 0, lastC := 0, issuedAt := 0, resumed := false
    condensed := false, saturated := false, canFall := false, idleAt := none, queuedAt := none, record := none, parking := none
    resumeTries := 0, want := none, wantCtx := none, cond := none, exports := [], pauseFails := 0, ringErrs := 0, jrnErrs := 0, dlMisses := 0
    outcome := none, replay := none, replayId := 0 }

/-- Partition 0 active with one request. -/
def withReq (q : Req) : State := { withPart part0 with reqs := [q] }

/-- A message context of the PF's mailbox. -/
def ctx0 : MsgCtx := { origin := .mbox 0, opcode := 0x0050, cid := 7, accept := 1, tenant := 0, part := 0 }

/-- The live package with port 0 as given. -/
def withPort (x : Port) : State := { live with ports := x :: live.ports.drop 1 }

/-- A port in a state, with a spare lane. -/
def port0 (st : PortState) : Port := { Port.reset with st := st, spare := true, since := 5000000 }

/-- A group of two whose members are ready. -/
def duo (s : State) : State := { s with group := { s.group with id := 9, size := 2, index := 0 } }
/-- What a peer of group index 1 says of itself. -/
def peer1 : IdentInfo := { partNo := 1, revision := 1, groupId := 9, groupSize := 2, groupIndex := 1, port := 3, spare := true, buffers := [32, 256, 256, 32] }
/-- A trained port to that peer. -/
def upPort (st : PortState) : Port := { port0 st with peer := some peer1, vcs := [32, 256, 256, 32].map fun k => { VcState.reset with credits := k } }

/-- Member 1 of a group of two, with an ACTIVE port to member 0, which has told what is given. -/
def joined (s : State) (ns : List Notice) : State :=
  { s with group := { s.group with id := 9, size := 2, index := 1 }, ports := { upPort .active with peer := some { peer1 with groupIndex := 0 } } :: live.ports.drop 1, notices := ns }

/-- The same partition where it spans two members. -/
def wide (x : Part) : Part := { x with items := { x.items with groupSize := 2 } }

/-- A program with one layout of 8 clusters for one member, its ranks' streams as given. -/
def prog (cmds : List (List Cmd)) : Program :=
  { kind := 1, modelDigest := [], ctxLimit := 100, layers := 2, vocab := 32, condDiv := 0, condMax := 0, kvHeads := 1, headWidth := 16
    modelWidth := 16, anchors := [{ tensor := 3, mode := 0, outFmt := 1, xp := 1, flags := 0, value := 0, kDecl := 0 }]
    points := [{ layer := 0, point := 0, dIn := 16, dOut := 16, uAnchor := 3, outAnchor := 3 }]
    ops := [{ op := 1, fmt := 0, dst := 2, src0 := 0, src1 := 1 }]
    layouts := [{ groupSize := 1, clusters := 8, stagingRows := 8, work := 0, workTwin := 0, phases := 1, sems := 2, kvLocal := 1
                  cmds := cmds, routes := [], esc := [], kvMap := [], cheap := [{ id := 4, layer := 1, live := 512, ranges := [{ rank := 0, off := 0, len := 512 }] }], cost := [] }] }

/-- A resident model with a program. -/
def model0 (cmds : List (List Cmd)) : Model :=
  { key := { weights := [], program := [], level := .nlX1 }, stream := false, resident := 0, unloading := false, stalled := false, tries := [], got := []
    ring := [], nextLayer := 0, layerDigests := [], home := (0, 0, 0), image := []
    tensors := [{ id := 9, layer := 0xFFFF, fmt := 2, rows := 16, cols := 16, frame := 0, frames := 1, scaleGran := 0 }], prog := prog cmds, xp96 := [] }

/-- A row of request 1 in slot 0. -/
def row1 : PlanRow :=
  { h := 1, first := 0, n := 1, slot := 0, cls := .new, emits := true, shadow := false, catchUp := false, cond := false, fb := false }

/-- An attempt of a one-row plan in a phase, with clusters 0 to 7. -/
def att (ph : Phase) : Attempt :=
  { newAttempt { rows := [row1], fbOnly := false, tPred := 0, reserved := [] } 0 false 0 [] with phase := ph, clusters := List.range 8 }

/-- Partition 0 with model 0 in slot 0 and an attempt. -/
def busy (a : Attempt) : Part := { part0 with slots := [some (model0 []), none, none, none], attempt := some a }

/-- A command of an opcode, with no tags. -/
def cmd (op aux len : Nat) : Cmd :=
  { op := op, queue := 0, flags := 0, wait := 0xFFFF, signal := 0xFFFF, aux := aux, a := 0, b := 0, d := 4, len := len, fmt := 0x0202 }

/-- The same, queued. -/
def qcmd (op aux len : Nat) : QCmd := { cmd := cmd op aux len, idx := 0, phase := 0, layer := 0, sent := 0, issued := false, probed := false }

/-- Cluster 0 as rank 0 of partition 0, with one command queued. -/
def cl0 (k : QCmd) : Cluster :=
  { idleCluster 0 with holder := some (0, 0), invs := [0], queues := modAt (List.replicate 4 []) (queueOf k.cmd.op) fun _ => [k] }

/-- A package whose cluster 0 executes a command of rank 0. -/
def runs (k : QCmd) : State := { withPart (busy (att .run)) with clusters := [cl0 k], reqs := [req1] }

/-- What cluster 0 of a state executes. -/
def cx0 (s : State) : Cx :=
  (cxOf s 0).getD { p := 9, rank := 0, part := part0, att := att .run, slot := 0, model := model0 [], lay := default0, cl := idleCluster 0 }
where
  default0 : Layout := { groupSize := 0, clusters := 0, stagingRows := 0, work := 0, workTwin := 0, phases := 0, sems := 0, kvLocal := 0, cmds := [], routes := [], esc := [], kvMap := [], cheap := [], cost := [] }

/-- A permit of a requester that has reached it. -/
def permit (req du : Nat) (c : PClass) : Permit := { req := req, cls := c, du := du, at_ := 0, delivered := true }

/-- The package with permits held. -/
def withPermits (s : State) (ps : List Permit) : State := { s with gov := { s.gov with permits := ps } }

/-- Whether command k may issue on cluster 0 (Safety's Issues as a Bool). -/
def issues (s : State) (op : Nat) (k : QCmd) : Bool :=
  decide (s.flt.pkg ≠ .uncontained) && (cxOf s 0).isSome && !(cx0 s).cl.finished && (cx0 s).cl.atCheap.isNone &&
    ((cx0 s).cl.queues.getD (queueOf op) []).head? == some k && k.cmd.op == op && waitOk (cx0 s).cl k &&
    !twinSlot s (cx0 s).p (cx0 s).cl (queueOf op) &&
    !(shadowed (cx0 s) k && decide (64 ≤ (clusterOf s (shadowOf (cx0 s))).twinQ.length))

/-- A link message of an attempt's tag. -/
def lmsg (kind part tag : Nat) (body : Bytes) : LinkMsg :=
  { kind := kind, part := part, destChannel := 1, destRank := 0, tag := tag, arg := 1, body := body }

theorem issues_sound {s : State} {op : Nat} {k : QCmd} (h : issues s op k = true) : Issues s 0 op (cx0 s) k := by
  simp only [issues, Bool.and_eq_true, decide_eq_true_eq, beq_iff_eq, Bool.not_eq_true', Option.isNone_iff_eq_none] at h
  obtain ⟨⟨⟨⟨⟨⟨⟨⟨h1, h2⟩, h3⟩, h4⟩, h5⟩, h6⟩, h7⟩, h8⟩, h9⟩ := h
  refine ⟨by decide, h1, ?_, h3, h4, h5, h6, h7, h8, by simpa using h9⟩
  obtain ⟨x, hx⟩ := Option.isSome_iff_exists.1 h2
  simp [cx0, hx]

/-! ### Ill-formed commands, one for each check -/

theorem test_function_16_refused : (Instr.mailboxDoorbell 16 0).wellFormed = false := by decide
theorem test_queue_16_refused : (Instr.sqTailWrite 0 16 0).wellFormed = false := by decide
theorem test_message_queue_16_refused : (Instr.recover 0 (.sq 16)).wellFormed = false := by decide
theorem test_vector_128_refused : (Instr.msixVectorUnmask 0 128).wellFormed = false := by decide
theorem test_flr_of_vf_0_refused : (Instr.flrVf 0).wellFormed = false := by decide
theorem test_partition_8_refused : (Instr.stepPlace 8).wellFormed = false := by decide
theorem test_cluster_192_refused : (Instr.load ⟨192, noEcc⟩).wellFormed = false := by decide
theorem test_port_12_refused : (Instr.ping 12).wellFormed = false := by decide
theorem test_lane_5_refused : (Instr.laneFailure 0 ⟨5, false⟩).wellFormed = false ∧ (Instr.steer 0 ⟨4, .replace, true⟩).wellFormed = false := by decide
theorem test_ready_units_refused :
    (Instr.stepSyncReady 12 0 0 []).wellFormed = false ∧ (Instr.stepSyncReady 0 8 0 []).wellFormed = false ∧
    (Instr.portLost 0 12 0).wellFormed = false := by decide
theorem test_pin_die_domain_refused :
    (Instr.pinmuxArmed 16).wellFormed = false ∧ (Instr.vcoreHold 4).wellFormed = false ∧ (Instr.domainUpDone 227).wellFormed = false ∧
    (Instr.permitGranted 639).wellFormed = false := by decide
theorem test_window_frame_refused :
    (Instr.windowValidSet 512).wellFormed = false ∧ (Instr.scrubRead 4718592 .clean true).wellFormed = false := by decide
theorem test_write_length_refused :
    (Instr.registerWrite 0 .bar0 0 []).wellFormed = false ∧
    (Instr.registerWrite 0 .bar0 0 (zeroBytes 65)).wellFormed = false := by decide
theorem test_bounds_accepted :
    (Instr.mailboxDoorbell 15 0).wellFormed = true ∧ (Instr.load ⟨191, noEcc⟩).wellFormed = true ∧ (Instr.flrVf 1).wellFormed = true ∧
    (Instr.registerWrite 0 .bar0 0 (zeroBytes 64)).wellFormed = true ∧ (Instr.scrubRead 4718591 .clean true).wellFormed = true := by decide

/-! ### The block -/

theorem witness_StepRunsFrontCommand : { live with pending := [Instr.smbusRead] }.pending = Instr.smbusRead :: [] := rfl
theorem witness_EmptyQueueIsOneTick :
    State.reset.pending = [] ∧ State.reset.boot.pllLocked = false ∧ live.pending = [] ∧ live.boot.pllLocked = true ∧ live.flt.pkg = .serving ∧
    (∀ n, n < 12 → (portOf live n).startAt = none) ∧ (∀ h, h < 8 → holds live.gov (392 + h) .sinter = false) ∧
    (∀ p, p < 8 → (partOf live p).disable = none ∧ spans live p = false ∧ told live live.group.index p .part 0 = none) ∧
    (let s := { live with flt := { live.flt with pkg := .quarantined } }; s.pending = [] ∧ s.boot.pllLocked = true ∧ s.flt.pkg ≠ .serving) ∧
    (let x := { part0 with items := { part0.items with rates := [(0, 7), (5, 7), (5, 2)] }, levels := [1, 1, 1] };
      (withPart x).parts[0]? = some x ∧ x.items.rates[0]? = some (0, 7) ∧ x.items.rates[2]? = some (5, 2) ∧ x.levels[2]? = some 1) := by decide +kernel
theorem witness_CommandsStopOnlyOnMissingUnits :
    (Instr.stepPlace 7).unitsExist (nFrames live) = true ∧ (Instr.stepPlace 8).unitsExist (nFrames live) = false := by decide +kernel

/-- A package in UNCONTAINED. -/
def dead : State := { live with flt := { live.flt with pkg := .uncontained } }

theorem witness_UncontainedCommandsDoNothing : dead.flt.pkg = .uncontained ∧ (Instr.load ⟨0, noEcc⟩).unitsExist (nFrames dead) = true := by decide +kernel
theorem witness_OnlyResetLeavesUncontained :
    { dead with pending := [Instr.load ⟨0, noEcc⟩] }.flt.pkg = .uncontained ∧
    (match step { dead with pending := [Instr.load ⟨0, noEcc⟩] } with | .next t => t.pending == [] | _ => false) = true := by decide +kernel

/-! ### Registers, queues and messages -/

/-- Function 1 in reset. -/
def inFlr : State := updFn live 1 fun f => { f with flr := some 1 }

theorem witness_DoorbellPassesTheCmdSlot :
    fnEnabled live 15 = false ∧ (fnOf inFlr 1).flr ≠ none ∧
    (fnEnabled (boxed live 0 []) 0 = true ∧ (fnOf (boxed live 0 []) 0).flr = none ∧ (fnOf (boxed live 0 []) 0).mbox.st = .busy) ∧
    (let b := (bar0Bases 0).1; b ≤ b + 60 ∧ (b + 60) + (zeroBytes 4).length ≤ b + 0x40 ∧ (b + 60) % 4 = 0 ∧ (zeroBytes 4).length % 4 = 0 ∧ 4 ≤ (zeroBytes 4).length) ∧
    (fnEnabled live 0 = true ∧ (fnOf live 0).flr = none ∧ (fnOf live 0).mbox.st ≠ .busy ∧ live.flt.pkg ≠ .uncontained ∧
      bootFailed live.boot.stage = false) ∧
    bootFailed { live.boot with stage := .hbmFail }.stage = true := by decide +kernel

/-- Function 0 with a queue pair 3, its SQ as given. -/
def queued (x : Sq) : State := updFn live 0 fun f =>
  { f with sqs := [x], cqs := [{ qid := 3, base := 0, log2 := 4, ctrl := 0, vector := 1, pidx := 0, head := 0, reserved := 0 }] }
/-- An SQ with one entry to fetch. -/
def sq3 : Sq := { qid := 3, base := 0, log2 := 4, cqid := 3, tail := 1, head := 0, fetching := 0, fetched := [], stopped := false }

theorem witness_DoorbellPageValidity :
    fnEnabled (queued sq3) 0 = true ∧ (fnOf (queued sq3) 0).flr = none ∧ (queued sq3).flt.pkg ≠ .uncontained ∧ sqOf (queued sq3) 0 3 = some sq3 ∧
    (cqOf (queued sq3) 0 3).isSome = true ∧ (zeroBytes 4).length = 4 := by decide +kernel
/-- A tail 16 entries past the head is kept, one 17 past it is counted (R355, log2 4). -/
theorem test_sq_tail_bounds :
    (match execSqTailWrite 0 3 16 (queued sq3) with | .next t => (sqOf t 0 3).map (·.tail) == some 16 | _ => false) = true ∧
    (match execSqTailWrite 0 3 17 (queued sq3) with | .next t => t.host.sqTailInvalid == 1 | _ => false) = true := by decide +kernel

/-- A read in flight for a reason. -/
def reading (s : State) (w : ReadFor) : State := { s with host := { s.host with reads := [{ tag := 1, fn := 0, why := w }] } }

theorem witness_SqEntriesAreFetchedInOrder :
    (sqOf (queued sq3) 0 3 = some sq3 ∧ (cqOf (queued sq3) 0 3).isSome = true ∧ mayRead (queued sq3) 0 = true ∧ fwServes (queued sq3) = true ∧
      sq3.stopped = false ∧ sq3.fetching = 0 ∧ sq3.head % 2 ^ 32 ≠ sq3.tail ∧ 0 < 2 ^ 4 - (0 + (2 ^ 32 - 0)) % 2 ^ 32) ∧
    (reading (queued sq3) (.sqEntry 0 3 0)).host.reads.find? (fun y => y.tag == 1) = some { tag := 1, fn := 0, why := .sqEntry 0 3 0 } ∧
    sqOf (reading (queued sq3) (.sqEntry 0 3 0)) 0 3 = some sq3 ∧
    (reading live (.cidx 1 true)).host.reads.find? (fun y => y.tag == 1) = some { tag := 1, fn := 0, why := .cidx 1 true } := by decide +kernel

/-- A QUEUE_CREATE body: TYPE, QID, LOG2, CQID, vector, base, ctrl. -/
def createQ (ty qid log2 cqid vec : Nat) : Bytes :=
  leBytes 1 ty ++ leBytes 1 qid ++ leBytes 1 log2 ++ leBytes 1 cqid ++ leBytes 2 vec ++ zeroBytes 2 ++ leBytes 8 4096 ++ zeroBytes 8

theorem witness_QueuesAreMadeAndDeleted :
    (let c := msg 1 0 0 (createQ 1 4 12 3 0);
      Accepts (boxed (queued sq3) 0 c) 0 .mailbox c ∧ rd c 0 2 = 0x0001 ∧ rd c 8 1 = 1 ∧ rd c 9 1 = 4 ∧ rd c 10 1 = 12 ∧ rd c 16 8 % 4096 = 0 ∧
      bodyZero c [(8, 4), (16, 8)] = true ∧ (cqOf (took (boxed (queued sq3) 0 c) 0 .mailbox c) 0 (rd c 11 1)).isSome ∧
      sqOf (took (boxed (queued sq3) 0 c) 0 .mailbox c) 0 4 = none) ∧
    (let c := msg 1 0 0 (createQ 2 15 4 0 0xFFFF);
      Accepts (boxed (queued sq3) 0 c) 0 .mailbox c ∧ rd c 8 1 = 2 ∧ rd c 24 8 % 64 = 0 ∧ rd c 12 2 = 0xFFFF ∧
      bodyZero c [(8, 3), (12, 2), (16, 16)] = true ∧ cqOf (took (boxed (queued sq3) 0 c) 0 .mailbox c) 0 15 = none) ∧
    (let c := msg 2 0 0 (leBytes 1 1 ++ leBytes 1 3);
      Accepts (boxed (queued sq3) 0 c) 0 .mailbox c ∧ rd c 0 2 = 0x0002 ∧ bodyZero c [(8, 2)] = true ∧ rd c 8 1 = 1 ∧
      (sqOf (took (boxed (queued sq3) 0 c) 0 .mailbox c) 0 3).isSome ∧
      Accepts (queued { sq3 with fetched := [c] }) 0 (.sq 3) c ∧ (sqOf (took (queued { sq3 with fetched := [c] }) 0 (.sq 3) c) 0 3).isSome) ∧
    (let c := msg 2 0 0 (leBytes 1 2 ++ leBytes 1 3);
      let lone := updFn (queued sq3) 0 fun f => { f with sqs := [] };
      Accepts (boxed (queued sq3) 0 c) 0 .mailbox c ∧ rd c 8 1 = 2 ∧ (∃ y ∈ (fnOf (took (boxed (queued sq3) 0 c) 0 .mailbox c) 0).sqs, y.cqid = 3) ∧
      Accepts (boxed lone 0 c) 0 .mailbox c ∧ (cqOf (took (boxed lone 0 c) 0 .mailbox c) 0 3).map (·.reserved) = some 0 ∧
      (∀ y ∈ (fnOf (took (boxed lone 0 c) 0 .mailbox c) 0).sqs, y.cqid ≠ 3)) := by
  simp only [Accepts, Waits, Live]; decide +kernel

theorem witness_MessagesPassTheirChecksInOrder :
    (let c := msg 0x7777 0 0 []; Waits (boxed live 0 c) 0 .mailbox c ∧ classOf (rd c 0 2) = none) ∧
    (let c := msg 0x0083 0 9 []; Waits (boxed live 0 c) 0 .mailbox c ∧
      gateCode (took (boxed live 0 c) 0 .mailbox c) (ask (boxed live 0 c) 0 .mailbox c) = some .invalidField ∧ rd c 0 2 = 0x0083) ∧
    (let c := msg 0x0083 0 0 []; Waits (boxed live 1 c) 1 .mailbox c ∧
      gateCode (took (boxed live 1 c) 1 .mailbox c) (ask (boxed live 1 c) 1 .mailbox c) = some .notPermitted) ∧
    (∀ op ∈ [0x0010, 0x0011, 0x0014, 0x0021, 0x0030, 0x0061], let c := msg op 0 9 [];
      Waits (boxed live 0 c) 0 .mailbox c ∧ gateCode (took (boxed live 0 c) 0 .mailbox c) (ask (boxed live 0 c) 0 .mailbox c) = some .invalidField ∧
      rd c 0 2 = op ∧ mayStart (partOf (boxed live 0 c) (rd c 6 1)) 3 = true) := by
  simp only [Waits, Live]; decide +kernel

theorem witness_ResponsesReachTheirSender :
    ctx0.origin = .mbox 0 ∧
    (let c : MsgCtx := { ctx0 with origin := .queue 0 3 3 };
      c.origin = .queue 0 3 3 ∧ (queued sq3).flt.pkg = .serving ∧ (fnOf (queued sq3) 0).flr = none ∧ (cqOf (queued sq3) 0 3).isSome = true ∧
      (sqOf (queued sq3) 0 3).isSome = true) ∧ (fnOf inFlr 1).flr.isSome = true := by decide +kernel

theorem witness_VectorsSendOnceUnmasked :
    live.flt.pkg ≠ .uncontained ∧
    (let s := updVec live 0 127 fun x => { x with running := some 5000000, pending := true, masked := false };
      let u := updVec s 0 127 fun x => { x with running := none };
      (vecOf u 0 127).pending = true ∧ (vecOf u 0 127).masked = false ∧ (vecOf u 0 127).running = none ∧ s.flt.pkg = .serving ∧
      s.flt.pkg ≠ .uncontained ∧ (vecOf s 0 127).running = some 5000000 ∧ 5000000 ≤ s.boot.dtc) := by decide +kernel

/-- Descriptor 511, PAGE_LOG2 12, a page long, for function 2. -/
def win511 : Win :=
  { d := 511, table := 4096, length := 4096, pageLog2 := 12, owner := 2, use := 7, valid := false, error := false, outstanding := 0 }
/-- The live package with one window. -/
def withWin (w : Win) : State := { live with host := { live.host with wins := [w] } }

theorem witness_WindowsAreValidatedAndCleared :
    (winOf (withWin { win511 with valid := true }) 511).valid = true ∧
    (let w := winOf (withWin win511) 511;
      w.valid = false ∧ w.pageLog2 = 12 ∧ w.table % 4096 = 0 ∧ 2 ^ w.pageLog2 ≤ w.length ∧ w.length ≤ 2 ^ 36 ∧ w.length % 2 ^ w.pageLog2 = 0 ∧
      w.owner ≤ (withWin win511).host.vfs ∧ w.owner < 16 ∧ w.use < 8 ∧
      ¬ (w.use / 4 % 2 = 1 ∧ ∃ v ∈ (withWin win511).host.wins, v.d ≠ w.d ∧ v.d / 64 = w.d / 64 ∧ v.valid = true ∧ v.use / 4 % 2 = 1)) ∧
    (let w := winOf (withWin { win511 with owner := 3 }) 511; w.valid = false ∧ ¬ w.owner ≤ (withWin win511).host.vfs) := by decide +kernel

theorem witness_FaultLogAndDtcRegisters :
    live.flt.pkg ≠ .uncontained ∧ 15 < live.host.fns.length ∧ 0xFA170000 / 65536 % 65536 = 0xFA17 ∧
    (match execDtcLoRead 0 { live with boot := { live.boot with dtc := 0x500000007 } } with
      | .next t => t.host.readData == 7 && (fnOf t 0).shadow == some 5 | _ => false) = true := by decide +kernel

theorem witness_RegisterWritesReachTheirField :
    (fnEnabled live 0 = true ∧ (fnOf live 0).flr = none ∧ (fnOf live 0).mbox.st ≠ .busy ∧ 60 + (zeroBytes 4).length ≤ 0x40 ∧ 60 % 4 = 0 ∧ (zeroBytes 4).length % 4 = 0 ∧
      4 ≤ (zeroBytes 4).length) ∧
    leNat (leBytes 4 4) / 4 % 2 = 1 ∧ (leBytes 4 4).length = 4 ∧ (zeroBytes 1).length ≠ 4 ∧ (zeroBytes 1).length ≠ 8 ∧
    (winOf (withWin { win511 with valid := true }) 511).valid = true ∧ (winOf (withWin win511) 511).valid = false := by decide +kernel

theorem witness_SmbusServesFromPowerGood : State.reset.boot.pwrGood = false ∧ live.boot.pwrGood = true ∧ live.host.smbPtr = 0 := by decide +kernel

theorem witness_CidxIsValidatedBeforeUse :
    (let q := { req1 with ring := { req1.ring with pidx := 62 } };
      reqOf (withReq q) 1 = some q ∧ q.outcome = none ∧ q.ownsRing = true ∧ q.replay = none ∧ mayRead (withReq q) 0 = true ∧ recFree q < 4 ∧
      (∀ r ∈ (withReq q).host.reads, r.why ≠ .cidx 1 false) ∧
      (62 + (2 ^ 32 - 62)) % 2 ^ 32 ≤ 2 ^ q.ring.log2 ∧ (62 + (2 ^ 32 - 0)) % 2 ^ 32 ≤ (62 + (2 ^ 32 - 0)) % 2 ^ 32 ∧
      ¬ ((63 + (2 ^ 32 - 0)) % 2 ^ 32 ≤ (62 + (2 ^ 32 - 0)) % 2 ^ 32)) ∧
    (let q := { req1 with irqTicks := 5, irqPend := 1, irqFirst := 1 };
      reqOf (withReq q) 1 = some q ∧ q.irqTicks ≠ 0 ∧ 0 < q.irqPend ∧ q.irqFirst + q.irqTicks ≤ (withReq q).boot.dtc ∧ q.vector < 128) := by decide +kernel

/-- A package with one barrier issued. -/
def barred (s : State) (w : BarrierFor) : State := { s with host := { s.host with barriers := [{ tag := 2, fn := 0, why := w }] } }
/-- A park under way. -/
def parking1 : Parking :=
  { offset := 0, ttl := 100, from_ := .held, stamp := 0, parts := [[]], written := 1, record := { offset := 0, entryLen := 0, expiresAt := 0, hdrDigest := [], tag := [], keyGen := 1 }
    tries := 0, failing := 0, barrier := false }

theorem witness_BarriersReleaseWhatWaits :
    (barred live (.output ctx0 1 [])).host.barriers.find? (fun x => x.tag == 2) = some { tag := 2, fn := 0, why := .output ctx0 1 [] } ∧
    ctx0.opcode ≠ 0x0090 ∧
    (let c := { ctx0 with opcode := 0x0090 };
      (barred live (.output c 1 [])).host.barriers.find? (fun x => x.tag == 2) = some { tag := 2, fn := 0, why := .output c 1 [] }) ∧
    (let s := barred { live with flt := { live.flt with pkg := .entering } } .quarantine;
      s.flt.pkg = .entering ∧ (∀ x ∈ s.host.barriers.filter (fun x => x.tag != 2), x.why ≠ .quarantine)) ∧
    (let q := { req1 with parking := some parking1 };
      reqOf (barred (withReq q) (.park 1)) 1 = some q ∧ q.parking = some parking1) := by decide +kernel

theorem witness_FunctionResetsAndTheLink :
    (fnEnabled live 1 = true ∧ (fnOf live 1).flr = none ∧ 1 < live.host.fns.length ∧ (live.reqs.map fun q => q.h).Nodup) ∧
    (fnOf live 0).flr = none ∧ 0 < live.host.fns.length ∧ (fnOf inFlr 1).flr ≠ none ∧
    (let s := updFn live 1 fun _ => { Fn.reset with flr := some 1 }; (fnOf s 1).flr ≠ none ∧ fnOf s 1 = { Fn.reset with flr := (fnOf s 1).flr }) ∧
    (let s := { live with host := { live.host with linkUp := false } };
      s.host.linkUp = false ∧ s.boot.pllLocked = true ∧ s.boot.perst = false) ∧
    mayIssue live { fn := 0, kind := .msix, addr := 0, data := [] } = true := by decide +kernel

/-! ### Boot, reset and firmware -/

/-- A boot stage of a package that has its PLL locked and does not serve yet. -/
def atStage (st : BootStage) : State := { live with boot := { live.boot with stage := st, booting := true } }

/-- A flash directory copy (Table BRU-3): MAGIC, version 1, ACTIVE 0, DIR_GEN 3, lengths 512. -/
def dirBytes : Bytes :=
  let h := ascii "SWFD" ++ leBytes 2 1 ++ leBytes 2 0 ++ leBytes 4 3 ++ leBytes 4 512 ++ leBytes 4 512 ++ leBytes 4 0 ++ zeroBytes 8
  h ++ sha256 h

/-- A firmware image of 512 bytes with a zero public key and signature (Table TRU-1). -/
def image : Bytes :=
  ascii "SWFW" ++ leBytes 2 1 ++ leBytes 1 1 ++ leBytes 1 0 ++ leBytes 4 2 ++ leBytes 1 0 ++ leBytes 1 0 ++ zeroBytes 2 ++ leBytes 8 512 ++
    zeroBytes 488

/-- The fuses that accept its key. -/
def keyed (b : Boot) : Boot := { b with keyHashes := sha256 (zeroBytes 97) :: b.keyHashes.drop 1 }

/-- The signature's verification is outside the spec (log 4), so it stands as a hypothesis. -/
theorem witness_BootStagesAdvance (h : Config.ecdsaVerify (zeroBytes 97) (fwDigest image) (zeroBytes 96) = true) :
    State.reset.boot.pwrGood = false ∧
    (let s := { State.reset with boot := { State.reset.boot with pwrGood := true } };
      s.boot.pwrGood = true ∧ s.boot.stage = .rom ∧ s.boot.cold = true ∧ (chooseDir (some dirBytes) none).isSome = true) ∧
    ((atStage .fwLoad).boot.stage = .fwLoad ∧ (atStage .fwLoad).boot.dir.isSome = true ∧
      slotImage (keyed (atStage .fwLoad).boot) 512 (some image) = some image ∧ (atStage .fwLoad).boot.cold = true ∧
      { (atStage .fwLoad).boot with cold := false }.cold = false) ∧
    (atStage .fwStart).boot.stage = .fwStart ∧ (atStage .hbmTrain).boot.stage = .hbmTrain ∧ (atStage .bist).boot.stage = .bist ∧
    (atStage .kat).boot.stage = .kat ∧ (atStage .kat).flt.pkg ≠ .uncontained := by
  have f : fwFormed image = true := by decide +kernel
  have g : (decide (rd image 12 1 < 4) && sha256 (slice image 24 97) == (keyed (atStage .fwLoad).boot).keyHashes.getD (rd image 12 1) [] &&
    !bit (keyed (atStage .fwLoad).boot).revoked (rd image 12 1)) = true := by decide +kernel
  have e1 : slice image 24 97 = zeroBytes 97 := by decide +kernel
  have e2 : slice image 128 96 = zeroBytes 96 := by decide +kernel
  have m : decide ((keyed (atStage .fwLoad).boot).minSvn ≤ rd image 8 4) = true := by decide +kernel
  have i : slice image 0 512 = image := by decide +kernel
  have n : ¬ (512 = 0 ∨ 16777216 < 512 ∨ image.length < 512) := by decide +kernel
  have k : fwSigned (keyed (atStage .fwLoad).boot) image = true := by
    simp only [fwSigned]; rw [g, e1, e2, h, m]; rfl
  refine ⟨by decide +kernel, by decide +kernel, ⟨by decide +kernel, by decide +kernel, ?_, by decide +kernel, rfl⟩, by decide +kernel, by decide +kernel,
    by decide +kernel, by decide +kernel, by decide +kernel⟩
  simp only [slotImage, i, f, k]
  rw [if_neg n]; rfl

/-- The state a cold boot starts in. -/
def powered : State := { State.reset with boot := { State.reset.boot with pwrGood := true } }

theorem witness_BootFailuresStop :
    (powered.boot.pwrGood = true ∧ powered.boot.stage = .rom ∧ powered.boot.cold = true ∧ chooseDir none none = none ∧
      (match execPllLock none none powered with | .next t => t.boot.stage == .noImage | _ => false) = true) ∧
    (powered.boot.pllLocked = false ∧ (match execPllLockTimeout powered with | .next t => t.boot.stage == .pllFail | _ => false) = true) ∧
    (match execHbmTrainingDone (some 3) (atStage .hbmTrain) with | .next t => t.boot.stage == .hbmFail | _ => false) = true ∧
    (match execBistDone (some 0) (atStage .bist) with | .next t => t.boot.stage == .bistFail && t.flt.faultN | _ => false) = true ∧
    (match execKatDone (some 0) none (atStage .kat) with | .next t => t.boot.stage == .katFail | _ => false) = true ∧
    (match execStageTimeout 1 (atStage .fwLoad) with | .next t => t.boot.stage == .stageTimeout | _ => false) = true ∧
    (atStage .fwLoad).flt.pkg ≠ .uncontained := by decide +kernel

theorem witness_BootTimeoutsStop :
    powered.boot.pwrGood = true ∧ powered.boot.stage = .rom ∧ powered.boot.pllLocked = false ∧ (atStage .kat).flt.pkg ≠ .uncontained ∧
    (atStage .kat).boot.stage ∈ [BootStage.fwLoad, .fwStart, .hbmTrain, .bist, .kat] := by decide +kernel

theorem witness_ResetsClearAndKeep : live.boot.pwrGood = true ∧ live.boot.pllLocked = true ∧ live.boot.perst = false ∧
    (withPort (port0 .active)).ports[0]? = some (port0 .active) ∧ (port0 .active).st ≠ .disabled ∧ (port0 .active).st ≠ .down := by decide +kernel

theorem witness_PartitionResetEndsItsRequests :
    (0x00010000 / 65536 % 65536 ≠ 0xC1EA) ∧
    (let s := withPart part0; let v := 0xC1EA0000
      v / 65536 % 65536 = 0xC1EA ∧ (partOf s (v % 8)).st ≠ .disabled ∧ (partOf s (v % 8)).resetting = false ∧ s.flt.pkg ≠ .uncontained ∧
      s.flt.pkg ≠ .entering ∧ spans s (v % 8) = false ∧ tenant5 ∈ (wipePart s 0).tenants.map fun k => { k with keys := [] }) ∧
    (∀ g ∈ [PkgState.entering, .quarantined], let s := withPart part0; let s := { s with flt := { s.flt with pkg := g } };
      s.flt.pkg = g ∧ (partOf s 0).st ≠ .disabled ∧ (partOf s 0).resetting = false) ∧
    (∀ i ∈ [0, 1], let s := withPart (wide part0); let s := { s with group := { s.group with id := 9, size := 2, index := i } };
      s.flt.pkg = .serving ∧ (partOf s 0).st ≠ .disabled ∧ (partOf s 0).resetting = false ∧ spans s 0 = true ∧ leads s 0 = decide (i = 0)) := by decide +kernel

/-- A FW_ACTIVATE message for window 1, with PERSIST as given. -/
def activate (persist : Nat) : Bytes :=
  msg 0x0082 0 0 (leBytes 1 1 ++ leBytes 1 persist ++ zeroBytes 2 ++ leBytes 4 512 ++ leBytes 8 0 ++ fwDigest image)

/-- A window of the PF for firmware, and the fuses. -/
def fwReady : State :=
  let w : Win := { d := 1, table := 0, length := 4096, pageLog2 := 12, owner := 0, use := 1, valid := true, error := false, outstanding := 0 }
  { withWin w with boot := keyed live.boot }

/-- An image staged for a message. -/
def staged : Staged := { ctx := ctx0, digest := [], ifMajor := 1, ifMinor := 0, svn := 2, keySlot := 0, image := image, persist := true }

/-- The signature's verification is outside the spec (log 4), so it stands as a hypothesis. -/
theorem witness_FirmwareActivates (h : Config.ecdsaVerify (zeroBytes 97) (fwDigest image) (zeroBytes 96) = true) :
    (∀ c ∈ [activate 0, activate 1], Accepts (boxed fwReady 0 c) 0 .mailbox c ∧ rd c 0 2 = 0x0082 ∧
      bodyZero c [(8, 1), (9, 1), (12, 4), (16, 8), (24, 32)] = true ∧ rd c 9 1 < 2 ∧
      (took (boxed fwReady 0 c) 0 .mailbox c).boot.fwPhase = .idle ∧
      fwImage (took (boxed fwReady 0 c) 0 .mailbox c) c (some image) = some image ∧ fwDigest image = slice c 24 32) ∧
    fwFormed image = true ∧ rd image 6 1 = fwReady.boot.ifMajor ∧ fwSigned fwReady.boot image = true ∧
    (let s := { live with boot := { live.boot with fwPhase := .persist, staged := some staged } };
      s.boot.fwPhase = .persist ∧ s.boot.staged = some staged ∧ s.boot.dir.map (·.active) = some 0) ∧
    (let s := { live with boot := { live.boot with fwPhase := .quiesce, staged := some staged } };
      s.boot.fwPhase = .quiesce ∧ s.boot.staged = some staged ∧ quiesced s = true) := by
  have g : (decide (rd image 12 1 < 4) && sha256 (slice image 24 97) == fwReady.boot.keyHashes.getD (rd image 12 1) [] &&
    !bit fwReady.boot.revoked (rd image 12 1)) = true := by decide +kernel
  have e1 : slice image 24 97 = zeroBytes 97 := by decide +kernel
  have e2 : slice image 128 96 = zeroBytes 96 := by decide +kernel
  have m : decide (fwReady.boot.minSvn ≤ rd image 8 4) = true := by decide +kernel
  refine ⟨?_, by decide +kernel, by decide +kernel, ?_, by decide +kernel, by decide +kernel⟩
  · simp only [Accepts, Waits, Live]; decide +kernel
  · simp only [fwSigned]; rw [g, e1, e2, h, m]; rfl

theorem witness_RecoveryReturnsToServing :
    (let c := msg 0x0083 0 0 [];
      Accepts (boxed live 0 c) 0 .mailbox c ∧ rd c 0 2 = 0x0083 ∧ bodyZero c [] = true ∧ live.flt.pkg ≠ .quarantined ∧
      Accepts (boxed { live with flt := { live.flt with pkg := .quarantined } } 0 c) 0 .mailbox c) ∧
    (let s := { live with flt := { live.flt with pkg := .recovering, recStep := .verify } }; s.flt.pkg = .recovering ∧ s.flt.recStep = .verify) ∧
    (let s := { live with flt := { live.flt with pkg := .recovering, recStep := .test } };
      s.flt.recStep = .test ∧ (closeLedger (idleQuantities { s with clusters := [] }) (List.range 8)).flt.pkg = .recovering) := by
  simp only [Accepts, Waits, Live]; decide +kernel

/-! ### Pins, time and power -/

/-- PINMUX_SET of a pin to a function. -/
def pinmux (pin f arg : Nat) : Bytes := msg 0x0080 0 0 (leBytes 1 pin ++ leBytes 1 f ++ zeroBytes 2 ++ leBytes 4 arg)

/-- Pin 15 arming for LED. -/
def arming : State := updPin live 15 fun p => { p with arming := some (.thermTripOut, 0, ctx0), armAt := 5 }

theorem witness_PinmuxFloatsThenArms :
    (∀ s ∈ [live, arming], Accepts (boxed s 0 (pinmux 15 8 0)) 0 .mailbox (pinmux 15 8 0)) ∧
    (let c := pinmux 15 8 0;
      rd c 0 2 = 0x0080 ∧ bodyZero c [(8, 1), (9, 1), (12, 4)] = true ∧ pinFnOf (rd c 9 1) = some .thermTripOut ∧ rd c 8 1 = 15 ∧
      pinTakes 15 .thermTripOut = true ∧ pinArgOk (rd c 12 4) .thermTripOut = true ∧ (pinOf arming 15).arming ≠ none ∧
      (pinOf live 15).arming = none ∧ (pinOf live 15).fn ≠ .thermTripOut) ∧
    (let c := pinmux 0 0 0; Accepts (boxed live 0 c) 0 .mailbox c ∧ pinFnOf (rd c 9 1) = some .gpioIn ∧ (pinOf live 0).fn = .gpioIn ∧
      pinTakes 0 .gpioIn = true ∧ pinArgOk 0 .gpioIn = true) ∧
    (∀ g ∈ [PinFn.gpioOut, .uart2Tx, .thermTripOut, .syncOutAlt, .uart2Rx, .syncInAlt], let s := updPin live 15 fun p => { p with arming := some (g, 0, ctx0), armAt := 5000000 };
      Live s ∧ (pinOf s 15).arming = some (g, 0, ctx0) ∧ (pinOf s 15).armAt ≤ s.boot.dtc ∧ 15 < s.pins.mf.length) := by
  simp only [Accepts, Waits, Live]; decide +kernel

/-- A member of index i with its filter as given. -/
def member (i : Nat) (f : SyncFilter) : State := { live with group := { live.group with index := i }, pins := { live.pins with filter := f } }

theorem witness_TimeMarksAlignTheDtc :
    live.pins.filter = .unarmed ∧ (member 1 .armed).pins.filter = .armed ∧ (member 0 (.candidate 5)).pins.filter = .candidate 5 ∧
    (member 0 (.candidate 5)).group.index = 0 ∧ (member 1 (.candidate 5)).group.index ≠ 0 ∧
    ((3 * 2 ^ 20 + 16384 : Nat) : Int) = (3 : Nat) * 2 ^ 20 + 16384 ∧ (16384 : Int) < 2 ^ 19 ∧
    ((3 * 2 ^ 20 + 16385 : Nat) : Int) = (3 : Nat) * 2 ^ 20 + 16385 ∧ (16384 : Int) < 16385 ∧
    (let s := { live with boot := { live.boot with dtc := 2 ^ 20 } }; s.boot.pllLocked = true ∧ s.boot.dtc % 2 ^ 20 = 0 ∧ s.group.index = 0) ∧
    (member 1 .armed).pins.lastMark + 2 * 2 ^ 20 ≤ (member 1 .armed).boot.dtc ∧
    (let s := { live with pins := { live.pins with slew := -3 } }; s.pins.slew ≠ 0 ∧ s.pins.slewAt + 64 ≤ s.boot.dtc) := by decide +kernel

theorem witness_EffectiveBudgetIsTheLeast :
    (let c := msg 0x0081 0 0 (leBytes 2 2000);
      Accepts (boxed live 0 c) 0 .mailbox c ∧ rd c 0 2 = 0x0081 ∧ bodyZero c [(8, 2)] = true ∧ 800 ≤ rd c 8 2 ∧ rd c 8 2 = 2000) ∧
    (let c := msg 0x0081 0 0 (leBytes 2 800); Accepts (boxed live 0 c) 0 .mailbox c ∧ rd c 8 2 = 800) := by
  simp only [Accepts, Waits, Live]; decide +kernel
/-- At the default limit of 1,600 W the limit of a SWL-9400 is 2,900 DU (R410). -/
theorem test_effective_budget : bEff live = 2900 := by decide +kernel

theorem witness_GovernorRisesByFourPerTick : live.flt.pkg ≠ .uncontained ∧ live.gov.releases = 0 := by decide +kernel

theorem witness_PermitsReachTheirRequester :
    live.flt.pkg ≠ .uncontained ∧ 391 < 392 ∧ 412 ≤ 412 ∧ 399 < 400 ∧ 411 < 412 ∧
    (let s := { withPermits live [permit 412 4 .domainUp] with gov := { (withPermits live [permit 412 4 .domainUp]).gov with rising := [0] } };
      0 ∈ s.gov.rising ∧ permit 412 4 .domainUp ∈ s.gov.permits ∧ (permit 412 4 .domainUp).req = 412 + 0 ∧ s.boot.part = .swl9400) := by decide +kernel

theorem witness_ThrottleAndThermalSensing :
    live.pins.throttle = false ∧
    ((109 : Int) ∈ [109, 20] ++ [30] ∧ (∀ y ∈ ([109, 20] : List Int) ++ [30], y ≤ 109) ∧ (109 : Int) < 110) ∧
    ((110 : Int) ∈ [20, 110] ++ [109] ∧ (∀ y ∈ ([20, 110] : List Int) ++ [109], y ≤ 110) ∧ (∀ y ∈ ([109] : List Int), y < 110) ∧ live.flt.trip = false) ∧
    (∃ y ∈ ([110] : List Int), 110 ≤ y) ∧ ({ live with flt := { live.flt with trip := true } } : State).flt.trip = true ∧
    (let s := { live with flt := { live.flt with trip := true, coolSince := some 1 } };
      s.flt.trip = true ∧ s.flt.coolSince = some 1 ∧ 1 + 100000 ≤ s.boot.dtc) := by decide +kernel

theorem witness_CoreVoltageRequests :
    live.pins.vFuse[3]? = some 700 ∧ live.pins.vReq[3]? = some 800 ∧ live.flt.pkg ≠ .uncontained ∧
    (let s := { withPermits live [permit 191 8 .amvu] with pins := { live.pins with vHold := live.pins.vHold.set 3 true } };
      s.pins.vHold[3]? = some true ∧ (∀ r ∈ s.gov.queue ++ s.gov.arrivals, r.admitted < r.du) ∧ (∀ p ∈ s.gov.permits, 0 < p.du) ∧
      permit 191 8 .amvu ∈ s.gov.permits ∧ clusterReq (permit 191 8 .amvu).cls = true ∧ dieOfReq (permit 191 8 .amvu).req = 3) := by decide +kernel
/-- At T_max 0 the band is 0: 700 mV is at most 10 mV above what is requested (R517). -/
theorem test_vcore_request : (match execVcoreRequestUpdate live with | .next t => t.pins.vReq == [700, 700, 700, 700] | _ => false) = true := by decide +kernel

/-- The response's verification is outside the spec (log 4), so it stands as a hypothesis. -/
theorem witness_JtagDebugAndBoundaryScan (r : Bytes)
    (h : Config.ecdsaVerify (zeroBytes 97) (slice (Config.freeBytes 0 32) 0 32 ++ zeroDigest) r = true) :
    let s := { live with boot := { live.boot with debugKeyHash := sha256 (zeroBytes 97) } }
    s.boot.lock = .locked ∧ (∀ p ∈ s.parts, p.st = .disabled) ∧ sha256 (zeroBytes 97) = s.boot.debugKeyHash ∧ s.freeCtr = 0 ∧
    Config.ecdsaVerify (zeroBytes 97) (slice (Config.freeBytes s.freeCtr 32) 0 32 ++ s.boot.deviceId) r = true ∧
    ¬ ((withPart part0).boot.lock = .locked ∧ ∀ p ∈ (withPart part0).parts, p.st = .disabled) :=
  ⟨rfl, by decide +kernel, by decide +kernel, rfl, h, by decide +kernel⟩

/-! ### A pair of images that MODEL_LOAD accepts

A weights image of one layer without tensors (64 KiB) and its step program. Their digests stay SHA-256 terms that no proof evaluates. -/

/-- The header of the weights image (Table MEM-4): MAGIC, version 1, one layer, no tensors, its length. -/
def wHead : Bytes := ascii "SWWI" ++ leBytes 2 1 ++ leBytes 2 1 ++ zeroBytes 8 ++ leBytes 8 65536 ++ zeroBytes 40
/-- The weights image. -/
def wImage : Bytes := wHead ++ zeroBytes 65472

theorem rd_append (a b : Bytes) (o n : Nat) (h : o + n ≤ a.length) : rd (a ++ b) o n = rd a o n := by
  unfold rd
  rw [List.drop_append_of_le_length (by omega), List.take_append_of_le_length (by simp only [List.length_drop]; omega)]

theorem zeros_append (a b : Bytes) (o n : Nat) (h : o + n ≤ a.length) : zeros (a ++ b) o n = zeros a o n := by
  unfold zeros
  rw [List.drop_append_of_le_length (by omega), List.take_append_of_le_length (by simp; omega)]

theorem wHead_length : wHead.length = 64 := by decide +kernel

theorem weights_parse : parseWeights wImage = some (1, []) := by
  have h8 : rd wImage 8 4 = 0 := by rw [wImage, rd_append _ _ _ _ (by rw [wHead_length]; omega)]; decide +kernel
  have h6 : rd wImage 6 2 = 1 := by rw [wImage, rd_append _ _ _ _ (by rw [wHead_length]; omega)]; decide +kernel
  have h4 : rd wImage 4 2 = 1 := by rw [wImage, rd_append _ _ _ _ (by rw [wHead_length]; omega)]; decide +kernel
  have h16 : rd wImage 16 8 = 65536 := by rw [wImage, rd_append _ _ _ _ (by rw [wHead_length]; omega)]; decide +kernel
  have z12 : zeros wImage 12 4 = true := by rw [wImage, zeros_append _ _ _ _ (by rw [wHead_length]; omega)]; decide +kernel
  have z24 : zeros wImage 24 40 = true := by rw [wImage, zeros_append _ _ _ _ (by rw [wHead_length])]; decide +kernel
  have z64 : zeros wImage 64 65472 = true := by
    rw [wImage, zeros, List.drop_left' wHead_length, zeroBytes, List.take_replicate, List.all_replicate]; rfl
  have t4 : wImage.take 4 = ascii "SWWI" := by
    rw [wImage, List.take_append_of_le_length (by rw [wHead_length]; omega)]; decide +kernel
  have len : wImage.length = 65536 := by rw [wImage, List.length_append, wHead_length, zeroBytes, List.length_replicate]
  simp only [parseWeights, h8, h6, h4, h16, z12, z24, t4, len]
  simp [ceilDiv, sumNat, z64, tensorsChain]

/-- STEP_END. -/
def lastCmd : Bytes := leBytes 1 0x0F ++ leBytes 1 3 ++ leBytes 2 0 ++ leBytes 2 0xFFFF ++ leBytes 2 0xFFFF ++ zeroBytes 24
/-- A directory entry (Table CLU-3). -/
def sect (ty lay n start len : Nat) : Bytes := leBytes 2 ty ++ leBytes 2 lay ++ leBytes 4 n ++ leBytes 4 start ++ leBytes 4 len
/-- The program image, with MODEL_DIGEST w and PROGRAM_DIGEST p. -/
def pImage (w p : Bytes) : Bytes :=
  (ascii "SWSP" ++ leBytes 2 1 ++ leBytes 1 1 ++ zeroBytes 1 ++ leBytes 8 832) ++ w ++
  (leBytes 4 100 ++ leBytes 2 1 ++ leBytes 2 4 ++ leBytes 4 32 ++ zeroBytes 4 ++ leBytes 2 1 ++ leBytes 2 16 ++ leBytes 4 16 ++ zeroBytes 152) ++ p ++
  (sect 4 0xFFFF 1 5 32 ++ sect 0x10 0 8 6 256 ++ sect 0x13 0 2 10 16 ++ sect 0x15 0 5 11 120 ++
    (leBytes 1 1 ++ zeroBytes 1 ++ leBytes 2 8 ++ leBytes 4 8192 ++ zeroBytes 12 ++ leBytes 2 1 ++ zeroBytes 10) ++ zeroBytes 32 ++
    (List.replicate 8 lastCmd).flatten ++ (zeroBytes 8 ++ zeroBytes 5 ++ leBytes 1 1 ++ zeroBytes 2) ++ zeroBytes 48 ++
    ((List.range 5).map fun t => leBytes 1 t ++ zeroBytes 23).flatten ++ zeroBytes 8)

/-- 32 bytes of a function. -/
def bytes32 (f : Nat → Byte) : Bytes := (List.range 32).map f

theorem bytes32_of (l : Bytes) (h : l.length = 32) : l = bytes32 fun i => l.getD i 0 := by
  apply List.ext_getElem
  · simp [bytes32, h]
  · intro i h1 h2; simp [bytes32, List.getD, List.getElem?_eq_getElem h1]

/-- The bytes of the weights' digest. -/
def fW (i : Nat) : Byte := (sha256 wImage).getD i 0
/-- The bytes of the program's digest. -/
def fP (i : Nat) : Byte := (programDigest (pImage (bytes32 fW) (zeroBytes 32))).getD i 0
/-- The program image with its digests. -/
def gImage : Bytes := pImage (bytes32 fW) (bytes32 fP)

theorem shaBlock_length (h : List W32) (b : Bytes) (n : h.length = 8) : (shaBlock h b).length = 8 := by
  have g : ∀ (l : List (W32 × W32)) (v : List W32), v.length = 8 → (l.foldl shaRound v).length = 8 := by
    intro l
    induction l with
    | nil => intro v hv; exact hv
    | cons a l ih =>
      intro v hv
      apply ih
      unfold shaRound
      split
      · rfl
      · exact hv
  simp [shaBlock, n, g _ h n]

theorem shaBlocks_length (k : Nat) (h : List W32) (b : Bytes) (n : h.length = 8) : (shaBlocks k h b).length = 8 := by
  induction k generalizing h b with
  | zero => exact n
  | succ k ih => exact ih _ _ (shaBlock_length _ _ n)

theorem leBytes_length (n v : Nat) : (leBytes n v).length = n := by
  induction n generalizing v with
  | zero => rfl
  | succ n ih => simp [leBytes, ih]

theorem sha256_length (b : Bytes) : (sha256 b).length = 32 := by
  simp only [sha256, shaFinish, List.length_flatMap, beBytes, List.length_reverse, leBytes_length, List.map_const', shaBlocks_length _ _ _ (rfl : shaInit.length = 8)]
  rfl

set_option maxRecDepth 20000 in
theorem cover : (gImage.zipIdx).all (fun x => x.1 == 0 || covered (readDir gImage) x.2) = true := by
  have h : (gImage.zipIdx).all (fun x => (decide (256 ≤ x.2) && x.1 == 0) || covered (readDir gImage) x.2) = true := by decide +kernel
  rw [List.all_eq_true] at h ⊢
  intro x hx
  have := h x hx
  simp only [Bool.or_eq_true, Bool.and_eq_true] at this ⊢
  tauto

/-- Its one layout. -/
def gLayout : Layout :=
  { groupSize := 1, clusters := 8, stagingRows := 8192, work := 0, workTwin := 0, phases := 0, sems := 0, kvLocal := 1
    cmds := List.replicate 8 [readCmd lastCmd], routes := [], esc := []
    kvMap := [{ rank := 0, layer := 0, head := 0, stream := 0 }, { rank := 0, layer := 0, head := 0, stream := 1 }], cheap := []
    cost := (List.range 5).map fun t => { twin := t, fixed := 0, perRow := 0, perKpos := 0, perSeg := 0, perPass := 0 } }

set_option maxRecDepth 20000 in
theorem g_layouts : (parseProgram gImage).map (·.layouts) = some [gLayout] := by
  unfold parseProgram
  dsimp only
  rw [cover]
  decide +kernel

theorem parse_model {bs : Bytes} {p : Program} (h : parseProgram bs = some p) : p.modelDigest = slice bs 16 32 := by
  unfold parseProgram at h
  dsimp only at h
  split_ifs at h <;>
    (generalize allSome _ = q at h
     cases q with
     | none => cases h
     | some l => cases h; rfl)

theorem g_kind : rd gImage 6 1 = 1 := by decide +kernel
theorem g_len : gImage.length = 832 := by decide +kernel
theorem g_w : slice gImage 16 32 = sha256 wImage := by
  rw [bytes32_of _ (sha256_length wImage)]; rfl
theorem patch_middle (a p c z : Bytes) (n : Nat) (h : a.length = n) (e : p.length = z.length) : patch (a ++ p ++ c) n z = a ++ z ++ c := by
  subst h
  have t : (a ++ p ++ c).take a.length = a := by rw [List.append_assoc]; exact List.take_left
  have d : (a ++ p ++ c).drop (a.length + z.length) = c := List.drop_left' (by rw [List.length_append, e])
  rw [patch, t, d, List.take_of_length_le (by simp only [List.length_append]; omega)]

theorem bytes32_length (f : Nat → Byte) : (bytes32 f).length = 32 := by simp [bytes32]

theorem g_p : slice gImage 224 32 = programDigest gImage := by
  have e : programDigest gImage = programDigest (pImage (bytes32 fW) (zeroBytes 32)) := by
    have z : (zeroBytes 32).length = 32 := rfl
    have n : ∀ h m : Bytes, h.length + m.length = 192 → (h ++ bytes32 fW ++ m).length = 224 := by
      intro h m hh; simp only [List.length_append, bytes32_length]; omega
    have : patch gImage 224 (zeroBytes 32) = patch (pImage (bytes32 fW) (zeroBytes 32)) 224 (zeroBytes 32) := by
      rw [gImage, pImage, pImage, patch_middle _ _ _ _ _ (n _ _ (by decide +kernel)) (by rw [bytes32_length, z]),
        patch_middle _ _ _ _ _ (n _ _ (by decide +kernel)) rfl]
    rw [programDigest, this]; rfl
  rw [e, bytes32_of (programDigest _) (sha256_length _)]; rfl

/-- Homes of a partition's images in the PF's window 1. -/
def homes : Win := { d := 1, table := 0, length := 2 ^ 20, pageLog2 := 12, owner := 0, use := 7, valid := true, error := false, outstanding := 0 }

/-- A load of the two images into a slot. -/
def load0 (into : Nat) : Load :=
  { ctx := ctx0, slot := 0, into := into, stream := false, level := .nlX1, keepFree := 0, wDigest := sha256 wImage, pDigest := programDigest gImage
    wHome := (1, 0, 65536), pHome := (1, 65536, 832), ready := false, result := (0, 0, 0) }

/-- Partition 0 with a load pending. -/
def loading (l : Load) : State :=
  withPermits { withPart { part0 with load := some l } with host := { live.host with wins := [homes] } } ((List.range 8).map fun h => permit (392 + h) 4 .sinter)

/-- The state MODEL_LOAD's checks are made in. -/
def loadAt (l : Load) : State := charge (winUse (winUse (loading l) l.wHome.1 (-1)) l.pHome.1 (-1)) 0 3 (65536 + 832)

theorem load_checks (l : Load) (h : l = load0 0 ∨ l = load0 1) :
    ∃ prog, checkLoad (loadAt l) 0 l (some wImage) (some gImage) = .loads prog [] false 1 2 := by
  have len : wImage.length = 65536 := by rw [wImage, List.length_append, wHead_length, zeroBytes, List.length_replicate]
  have hl := g_layouts
  cases hp : parseProgram gImage with
  | none => rw [hp] at hl; cases hl
  | some prog =>
    rw [hp] at hl
    have hy : prog.layouts = [gLayout] := by simpa using hl
    have hm : prog.modelDigest = sha256 wImage := by rw [parse_model hp, g_w]
    have hd : slice gImage 224 32 = programDigest gImage := by rw [g_p]
    refine ⟨prog, ?_⟩
    have w1 : homeBytes (loadAt l) l.wHome (some wImage) = some wImage := by
      have : winOk (loadAt l) 0 l.wHome.1 0 l.wHome.2.1 l.wHome.2.2 = true := by rcases h with rfl | rfl <;> decide +kernel
      have e : l.wHome.2.2 = 65536 := by rcases h with rfl | rfl <;> rfl
      rw [e] at this; simp [homeBytes, this, len, e]
    have w2 : homeBytes (loadAt l) l.pHome (some gImage) = some gImage := by
      have : winOk (loadAt l) 0 l.pHome.1 0 l.pHome.2.1 l.pHome.2.2 = true := by rcases h with rfl | rfl <;> decide +kernel
      have e : l.pHome.2.2 = 832 := by rcases h with rfl | rfl <;> rfl
      rw [e] at this; simp [homeBytes, this, g_len, e]
    have k1 : kindOk (partOf (loadAt l) 0) l.slot gImage = true := by rcases h with rfl | rfl <;> decide +kernel
    have lf : layoutFor prog (partOf (loadAt l) 0).items.groupSize (partClusters (upcoming (partOf (loadAt l) 0))) = some gLayout := by
      have a : (partOf (loadAt l) 0).items.groupSize = 1 := by rcases h with rfl | rfl <;> decide +kernel
      have b : partClusters (upcoming (partOf (loadAt l) 0)) = 8 := by rcases h with rfl | rfl <;> decide +kernel
      rw [layoutFor, hy, a, b]; rfl
    have wk : workOk (loadAt l) 0 gLayout = true := by rcases h with rfl | rfl <;> decide +kernel
    have fr : 2 ≤ usableFree (loadAt l) 0 := by rcases h with rfl | rfl <;> decide +kernel
    have dw : l.wDigest = sha256 wImage := by rcases h with rfl | rfl <;> simp only [load0]
    have dp : l.pDigest = programDigest gImage := by rcases h with rfl | rfl <;> simp only [load0]
    have st : l.stream = false := by rcases h with rfl | rfl <;> rfl
    have kf : l.keepFree = 0 := by rcases h with rfl | rfl <;> rfl
    have c1 : ceilDiv wImage.length 65536 = 1 := by rw [len]; rfl
    have c2 : ceilDiv gImage.length 65536 = 1 := by rw [g_len]; rfl
    unfold checkLoad
    simp only [w1, w2, k1, dw, dp, hd, bne_self_eq_false, weights_parse, hp, hm, lf, wk, admitLoad, st, kf, c1, c2]
    simp [fr]

theorem chunks_two (a : Bytes) (h : a.length = 131072) : (chunks 65536 a).length = 2 := by
  rw [chunks, List.length_map, List.length_range, h]; rfl

theorem loadBytes_length (l : Load) (prog : Program) : (loadBytes (loadedModel l wImage prog [] false 1) gImage).length = 2 := by
  have len : wImage.length = 65536 := by rw [wImage, List.length_append, wHead_length, zeroBytes, List.length_replicate]
  have i : rd wImage 6 2 = 1 := by rw [wImage, rd_append _ _ _ _ (by rw [wHead_length]; omega)]; decide +kernel
  have r : residentFrames (loadedModel l wImage prog [] false 1) = 1 := by
    simp [residentFrames, loadedModel, imageLayers, i, weightsFixed, ceilDiv, sumNat, layerFrames]
  have st : (loadedModel l wImage prog [] false 1).stream = false := rfl
  have im : (loadedModel l wImage prog [] false 1).image = wImage := rfl
  have sl : (slice wImage 0 65536).length = 65536 := by simp [slice, len]
  have pd : (padTo gImage 65536).length = 65536 := by rw [padTo, List.length_append, g_len, zeroBytes, List.length_replicate]
  unfold loadBytes
  rw [chunks_two]
  rw [r, st, im, Nat.mul_one, if_neg Bool.false_ne_true, List.append_nil, List.length_append, sl, pd]

theorem witness_ModelLoadSucceeds :
    ∀ into ∈ [0, 1], let l := load0 into
      Live (loading l) ∧ (loading l).flt.pkg = .serving ∧ (loading l).host.linkUp = true ∧ (partOf (loading l) 0).load = some l ∧ l.ready = false ∧
      mayStart (partOf (loading l) 0) 3 = true ∧ mayStart (partOf (loading l) 0) 1 = true ∧ stacksHeld (loading l) = true ∧
      ∃ prog ns v, checkLoad (loadAt l) 0 l (some wImage) (some gImage) = .loads prog [] false 1 2 ∧
        openFrames (loadAt l) 0 .transit (.model l.into) (loadBytes (loadedModel l wImage prog [] false 1) gImage).length = some (ns, v) := by
  intro into hi l
  have hl : l = load0 0 ∨ l = load0 1 := by
    simp only [List.mem_cons, List.mem_nil_iff, or_false] at hi
    rcases hi with rfl | rfl
    · exact .inl rfl
    · exact .inr rfl
  obtain ⟨prog, hc⟩ := load_checks l hl
  have hn := loadBytes_length l prog
  have ho : (openFrames (loadAt l) 0 .transit (.model l.into) 2).isSome = true := by rcases hl with h | h <;> rw [h] <;> decide +kernel
  obtain ⟨⟨ns, v⟩, hv⟩ := Option.isSome_iff_exists.1 ho
  refine ⟨?_, ?_, ?_, ?_, ?_, ?_, ?_, ?_, prog, ns, v, hc, by rw [hn]; exact hv⟩
  · simp only [Live]; rcases hl with h | h <;> rw [h] <;> decide +kernel
  all_goals rcases hl with h | h <;> rw [h] <;> rfl
/-! ### Partitions, models, tenants and ports -/

/-- A message naming a descriptor at address 0, then what the body holds from offset 16. -/
def dmsg (op tenant part : Nat) (rest : Bytes) : Bytes := msg op tenant part (zeroBytes 8 ++ rest)

/-- A PARTITION_CREATE descriptor: GROUPS, HBM_BASE, HBM_COUNT, GROUP_SIZE, default roles, SHARING. -/
def partDesc (groups base count size time : Nat) : Bytes :=
  slice (leBytes 4 groups ++ leBytes 2 base ++ leBytes 2 count ++ leBytes 1 size ++ zeroBytes 1 ++ leBytes 1 time ++ zeroBytes 128) 0 128

/-- Two partitions that share group 0 by time. -/
def shared : State :=
  let t : Part := { part0 with items := { part0.items with time := true } }
  { live with parts := t :: { t with items := { t.items with hbmBase := 1 } } :: live.parts.drop 2 }

/-- What member 0 has told of an object of partition 0. -/
def noticed (k : NoticeKind) (key : Nat) (b : Bytes) : Notice := { member := 0, part := 0, kind := k.code, key := key, body := b }

theorem witness_PartitionsAreCreated :
    (let c := dmsg 0x10 0 0 [];
      Accepts (boxed live 0 c) 0 .mailbox c ∧ rd c 0 2 = 0x0010 ∧ rd c 8 8 % 64 = 0 ∧ rd c 16 4 = 0 ∧
      (∀ d ∈ [partDesc 1 0 1 1 0, partDesc 1 0 1 2 0, partDesc 1 0xFFFF 1 1 0], d.length = 128 ∧ createFormed c d false = true ∧
        itemCodesOk d = true ∧ itemsOk (nGroups (took (boxed live 0 c) 0 .mailbox c)) (readItems d) = true ∧ rolesOk (rolesOf d) = true) ∧
      1 < (readItems (partDesc 1 0 1 2 0)).groupSize ∧ (took (boxed live 0 c) 0 .mailbox c).group.size < 2 ∧ (readItems (partDesc 1 0 1 1 0)).groupSize = 1 ∧
      (partOf (took (boxed live 0 c) 0 .mailbox c) 0).st = .disabled ∧
      (∀ y ∈ (took (boxed live 0 c) 0 .mailbox c).parts, y.st = .disabled) ∧
      granulesOk (took (boxed live 0 c) 0 .mailbox c) 0 (readItems (partDesc 1 0 1 1 0)) = true ∧
      storeFits (took (boxed live 0 c) 0 .mailbox c) 0 (readItems (partDesc 1 0 1 1 0)) 0 = true ∧
      itemsDiffer (took (boxed live 0 c) 0 .mailbox c) 0 (readItems (partDesc 1 0 1 1 0)) = false ∧
      granulesOk (took (boxed live 0 c) 0 .mailbox c) 0 (readItems (partDesc 1 0xFFFF 1 1 0)) = false ∧
      Accepts (boxed (withPart part0) 0 c) 0 .mailbox c ∧ (partOf (took (boxed (withPart part0) 0 c) 0 .mailbox c) 0).st ≠ .disabled) ∧
    (let c := dmsg 0x10 0 1 []; let u := took (boxed (withPart part0) 0 c) 0 .mailbox c;
      Accepts (boxed (withPart part0) 0 c) 0 .mailbox c ∧ (partOf u 1).st = .disabled ∧ u.parts[0]? = some part0 ∧ part0.st ≠ .disabled ∧
      bit (readItems (partDesc 1 1 1 1 0)).groups 0 = true ∧ bit part0.items.groups 0 = true ∧ (readItems (partDesc 1 1 1 1 0)).time = false) ∧
    (let c := dmsg 0x10 0 0 []; let d := partDesc 1 0 1 2 0; let s := boxed (joined live [noticed .part 0 (zeroBytes 34)]) 0 c; let u := took s 0 .mailbox c;
      Accepts s 0 .mailbox c ∧ groupFormed u = true ∧ (readItems d).groupSize ≤ u.group.size ∧ (∀ y ∈ u.parts, y.st = .disabled) ∧
      granulesOk u 0 (readItems d) = true ∧ storeFits u 0 (readItems d) 0 = true ∧ itemsDiffer u 0 (readItems d) = true) := by
  simp only [Accepts, Waits, Live]; decide +kernel

theorem witness_PartitionsAreModified :
    let c := dmsg 0x10 0 0 (leBytes 4 1 ++ leBytes 4 1); let d := partDesc 1 0 1 1 0
    rd c 16 4 = 1 ∧ rd c 20 4 = 1 ∧ createFormed c d true = true ∧ itemCodesOk d = true ∧
    (∀ s ∈ [shared, withPart part0], Accepts (boxed s 0 c) 0 .mailbox c ∧ (partOf (took (boxed s 0 c) 0 .mailbox c) 0).st = .active ∧
      itemsOk (nGroups (took (boxed s 0 c) 0 .mailbox c)) (maskItems (upcoming (partOf (took (boxed s 0 c) 0 .mailbox c) 0)) d 1) = true) ∧
    (let u := took (boxed shared 0 c) 0 .mailbox c;
      (partOf u 1).st ≠ .disabled ∧ bit (maskItems (upcoming (partOf u 0)) d 1).groups 0 = true ∧ bit (partOf u 1).items.groups 0 = true ∧
      (maskItems (upcoming (partOf u 0)) d 1).time = false) ∧
    (let u := took (boxed (withPart part0) 0 c) 0 .mailbox c; let it := maskItems (upcoming (partOf u 0)) d 1;
      (∀ y ∈ u.parts.drop 1, y.st = .disabled) ∧ programsFit it (partOf u 0) = true ∧ storeFits u 0 it (workMax it (partOf u 0)) = true ∧
      itemsDiffer u 0 it = false) ∧
    (let s := boxed (joined (withPart (wide part0)) [noticed .part 0 (zeroBytes 34)]) 0 c; let u := took s 0 .mailbox c; let it := maskItems (upcoming (partOf u 0)) d 1;
      Accepts s 0 .mailbox c ∧ (partOf u 0).st = .active ∧ itemsOk (nGroups u) it = true ∧ (∀ y ∈ u.parts.drop 1, y.st = .disabled) ∧
      programsFit it (partOf u 0) = true ∧ storeFits u 0 it (workMax it (partOf u 0)) = true ∧ itemsDiffer u 0 it = true) ∧
    (let y := { part0 with slots := [some (model0 []), none, none, none] }; let e : Part := { y with items := { y.items with rowBudget := 9 } };
      programsFit e.items e = false) := by
  simp only [Accepts, Waits, Live]; decide +kernel

/-- Partition 0 of a state in which it is as given. -/
def inState (st : PartState) : State := withPart { part0 with st := st }

theorem witness_PartitionsDrainAndAbort :
    (∀ s ∈ [live, inState .draining, inState .aborting, inState .active],
      (let c := msg 0x11 0 0 (leBytes 1 1 ++ zeroBytes 7 ++ leBytes 8 (2 ^ 48 - 1));
        Accepts (boxed s 0 c) 0 .mailbox c ∧ rd c 0 2 = 0x0011 ∧ goesToLeader (took (boxed s 0 c) 0 .mailbox c) (ask (boxed s 0 c) 0 .mailbox c) = false ∧
        rd c 8 1 = 1 ∧ bodyZero c [(8, 1), (16, 8)] = true ∧ rd c 16 8 < 2 ^ 48) ∧
      (let c := msg 0x11 0 0 (leBytes 1 2);
        Accepts (boxed s 0 c) 0 .mailbox c ∧ goesToLeader (took (boxed s 0 c) 0 .mailbox c) (ask (boxed s 0 c) 0 .mailbox c) = false ∧ rd c 8 1 = 2 ∧
        bodyZero c [(8, 1)] = true)) ∧
    ((partOf live 0).st = .disabled ∧ (partOf (inState .draining) 0).st = .draining ∧ (partOf (inState .aborting) 0).st = .aborting ∧
      (partOf (inState .active) 0).st = .active) ∧
    (let d : Disable := { stamp := 1, deadline := some 5000000, done := false, ctxs := [] };
      let s := { withPart { part0 with st := .draining, disable := some d } with reqs := [req1] };
      Live s ∧ (partOf s 0).disable = some d ∧ d.deadline = some 5000000 ∧ (partOf s 0).st = .draining ∧ 5000000 ≤ s.boot.dtc ∧
      req1 ∈ s.reqs ∧ req1.part = 0 ∧ living req1 = true) := by
  simp only [Accepts, Waits, Live]; decide +kernel

/-- A MODEL_LOAD message and descriptor: SLOT, MODE 1, LEVEL 1. -/
def loadMsg (slot : Nat) : Bytes := dmsg 0x12 0 0 (leBytes 1 slot ++ leBytes 1 1 ++ leBytes 1 1)

theorem witness_ModelsLoad :
    (∀ s ∈ [withPart { part0 with load := some (load0 0) }, withPart part0, withPart { part0 with slots := [some (model0 []), none, none, none], roles := [.base, .fallback, .condenser, .spare] }],
      Accepts (boxed s 0 (loadMsg 0)) 0 .mailbox (loadMsg 0) ∧ (partOf s 0).st = .active) ∧
    rd (loadMsg 0) 0 2 = 0x0012 ∧ rd (loadMsg 0) 8 8 % 64 = 0 ∧ (zeroBytes 128).length = 128 ∧ loadFormed (loadMsg 0) (zeroBytes 128) = true ∧
    modelAt (partOf (withPart part0) 0) 0 = none ∧
    (let s := boxed (withPart part0) 0 (loadMsg 0); loadDiffers (took s 0 .mailbox (loadMsg 0)) 0 (loadOf (ask s 0 .mailbox (loadMsg 0)) (zeroBytes 128) 0) = false) ∧
    (let s := boxed (joined (withPart (wide part0)) [noticed .model 0 (zeroBytes 40)]) 0 (loadMsg 0);
      Accepts s 0 .mailbox (loadMsg 0) ∧ (partOf s 0).st = .active ∧ (partOf s 0).load = none ∧ modelAt (partOf s 0) 0 = none ∧
      loadDiffers (took s 0 .mailbox (loadMsg 0)) 0 (loadOf (ask s 0 .mailbox (loadMsg 0)) (zeroBytes 128) 0) = true) ∧
    (let y := { part0 with slots := [some (model0 []), none, none, none] };
      modelAt y 0 ≠ none ∧ modelAt y 3 = none ∧ y.roles.getD 3 .spare = .spare ∧ ∀ j < 3, j ≠ 0 → modelAt y j ≠ none ∨ y.roles.getD j .spare ≠ .spare) := by
  simp only [Accepts, Waits, Live]; decide +kernel

/-- A load whose homes the window does not hold fails. -/
theorem witness_ModelLoadFails :
    let s := { loading (load0 0) with host := live.host }
    s.flt.pkg = .serving ∧ s.host.linkUp = true ∧ mayStart (partOf s 0) 3 = true ∧ mayStart (partOf s 0) 1 = true ∧ stacksHeld s = true ∧
    checkLoad (charge (winUse (winUse s 1 (-1)) 1 (-1)) 0 3 66368) 0 (load0 0) (some []) (some []) = .fails .homeFault 0 := by decide +kernel

theorem witness_ModelsUnload :
    let c := msg 0x13 0 0 (leBytes 1 0); let held := { part0 with slots := [some (model0 []), none, none, none] }
    rd c 0 2 = 0x0013 ∧ bodyZero c [(8, 1)] = true ∧ rd c 8 1 < 4 ∧
    (∀ s ∈ [withPart part0, withPart held, withPart { held with st := .draining, load := some (load0 0) }, withPart { held with load := some (load0 1) }],
      Accepts (boxed s 0 c) 0 .mailbox c ∧ ((partOf s 0).st = .active ∨ (partOf s 0).st = .draining)) ∧
    modelAt part0 0 = none ∧ modelAt held 0 = some (model0 []) ∧ (load0 0).slot = 0 ∧ ({ load0 1 with slot := 1 }).into ≠ 0 := by
  simp only [Accepts, Waits, Live]; decide +kernel

/-- A TENANT_SET message: tenant, operation, VF, MASK. -/
def tenantMsg (t op vf mask : Nat) : Bytes :=
  msg 0x30 0 0 (leBytes 2 t ++ leBytes 1 op ++ leBytes 1 vf ++ leBytes 4 16777215 ++ leBytes 4 64 ++ leBytes 2 1 ++ leBytes 1 4 ++ leBytes 1 3 ++ zeroBytes 32 ++ leBytes 2 mask)

/-- A full table of tenants without tenant 5. -/
def crowded : State := { withPart part0 with tenants := (List.range 1024).map fun i => { tenant5 with id := 1000 + i, vf := 0 } }

theorem witness_TenantsAreSet :
    (∀ p ∈ [(withPart part0, tenantMsg 5 1 2 0), (withPart part0, tenantMsg 0xFFFE 1 2 0), (withPart part0, tenantMsg 6 2 1 127), (withPart part0, tenantMsg 5 2 2 1),
        (withPart part0, tenantMsg 6 3 0 0), (withPart part0, tenantMsg 5 3 0 0)],
      let s := boxed p.1 0 p.2
      Accepts s 0 .mailbox p.2 ∧ rd p.2 0 2 = 0x0030 ∧ tenantFormed p.2 = true ∧ (partOf s (rd p.2 6 1)).st = .active ∧
      tenantRanges s (readTenantBody p.2) = true) ∧
    tenantOf (withPart part0) 5 = some tenant5 ∧ tenant5.part = 0 ∧ tenantOf (withPart part0) 0xFFFE = none ∧ tenantOf (withPart part0) 6 = none ∧
    (withPart part0).tenants.length < 1024 ∧ vfCode (withPart part0) 0xFFFE 0 2 = none ∧ vfCode (withPart part0) 5 1 2 = none ∧
    tenant5.vf ≠ 0 ∧ vfBusy (withPart part0) 1 = false ∧ (withPart part0).reqs = [] ∧ (withPart part0).adapters = [] := by
  simp only [Accepts, Waits, Live]; decide +kernel

theorem witness_TenantTableFull :
    let c := tenantMsg 5 1 2 0; let s := boxed crowded 0 c
    Accepts s 0 .mailbox c ∧ tenantFormed c = true ∧ tenantRanges s (readTenantBody c) = true ∧ tenantOf s 5 = none ∧ 1024 ≤ s.tenants.length := by
  simp only [Accepts, Waits, Live]; decide +kernel

/-- A KEY_INSTALL message of KEY_GEN 2. -/
def keyMsg : Bytes := msg 0x31 5 0 (leBytes 4 2 ++ zeroBytes 4 ++ zeroBytes 8)
/-- A session of VF 1, whose identifier is 1. -/
def session1 : Session := { id := 1, secret := zeroBytes 32 }
/-- VF 1 with that session. -/
def attested (s : State) : State := updFn s 1 fun f => { f with session := some session1 }
/-- The key that wraps keys of that session. -/
def wrapKey : Bytes := hkdfExpand session1.secret (ascii "swiori tenant key wrap") 32
/-- What binds a key of generation 2 to tenant 5 of partition 0. -/
def wrapAad : Bytes := ascii "SWKW" ++ leBytes 2 5 ++ leBytes 1 0 ++ leBytes 4 2
/-- A descriptor that wraps key 0 (Table PRV-3). -/
def wrapped : Bytes := leBytes 4 1 ++ zeroBytes 12 ++ gcmSeal wrapKey (zeroBytes 12) wrapAad (zeroBytes 32)

theorem witness_KeysAreInstalled :
    (∀ s ∈ [withPart part0, attested (withPart part0), { withPart part0 with tenants := [{ tenant5 with keys := [{ gen := 2, key := [], uses := 0 }] }] },
        { withPart part0 with boot := { live.boot with keyBar := true } }],
      Accepts (boxed s 1 keyMsg) 1 .mailbox keyMsg ∧ (partOf (boxed s 1 keyMsg) (rd keyMsg 6 1)).st = .active ∧
      (tenantOf (boxed s 1 keyMsg) (rd keyMsg 4 2)).map (·.part) = some (rd keyMsg 6 1)) ∧
    rd keyMsg 0 2 = 0x0031 ∧ rd keyMsg 16 8 % 64 = 0 ∧ bodyZero keyMsg [(8, 4), (16, 8)] = true ∧ (zeroBytes 64).length = 64 ∧
    rd keyMsg 8 4 ≤ 2 ∧ tenant5.keys = [] ∧ (fnOf (boxed (withPart part0) 1 keyMsg) 1).session = none ∧
    (fnOf (boxed (attested (withPart part0)) 1 keyMsg) 1).session = some session1 ∧
    evictsNamed (boxed (attested (withPart part0)) 1 keyMsg) tenant5 = false ∧
    leaderTold (took (boxed (attested (withPart part0)) 1 keyMsg) 1 .mailbox keyMsg) 0 1 .key (keyKey 5 2) = none ∧
    (let s := boxed (attested (joined (withPart (wide part0)) [noticed .key (keyKey 5 2) (zeroBytes 9)])) 1 keyMsg;
      Accepts s 1 .mailbox keyMsg ∧ (fnOf s 1).session = some session1 ∧ evictsNamed s tenant5 = false ∧
      leaderTold (took s 1 .mailbox keyMsg) 0 2 .key (keyKey 5 2) = some (zeroBytes 9)) := by
  simp only [Accepts, Waits, Live]; decide +kernel

/-- A check value has 8 bytes at most, so it is none of 9. -/
theorem kcv_short (k : Bytes) : zeroBytes 9 ≠ kcv k := by
  intro h
  have l : (kcv k).length = 8 := by simp [kcv, slice]
  rw [← h] at l
  exact absurd l (by decide)

theorem gcm_round (key iv aad pt : Bytes) (h : (gcmTag (aesKeys key) iv aad (aesCtr (aesKeys key) iv 2 pt)).length = 16) :
    ∃ p, gcmOpen key iv aad (gcmSeal key iv aad pt) = some p := by
  have t : (aesCtr (aesKeys key) iv 2 pt ++ gcmTag (aesKeys key) iv aad (aesCtr (aesKeys key) iv 2 pt)).length - 16 =
      (aesCtr (aesKeys key) iv 2 pt).length := by rw [List.length_append, h]; omega
  refine ⟨aesCtr (aesKeys key) iv 2 (aesCtr (aesKeys key) iv 2 pt), ?_⟩
  simp only [gcmOpen, gcmSeal, t, List.take_left, List.drop_left, beq_self_eq_true, if_true]
  rw [if_neg (by rw [List.length_append, h]; omega)]

theorem witness_KeyUnwraps : wrapped.length = 64 ∧ unwrapKey session1 5 0 2 (zeroBytes 64) = none ∧ ∃ k, unwrapKey session1 5 0 2 wrapped = some k := by
  have t : (gcmTag (aesKeys wrapKey) (zeroBytes 12) wrapAad (aesCtr (aesKeys wrapKey) (zeroBytes 12) 2 (zeroBytes 32))).length = 16 := by decide +kernel
  have l : (gcmSeal wrapKey (zeroBytes 12) wrapAad (zeroBytes 32)).length = 48 := by decide +kernel
  obtain ⟨k, hk⟩ := gcm_round wrapKey (zeroBytes 12) wrapAad (zeroBytes 32) t
  refine ⟨by rw [wrapped, List.length_append, l]; rfl, by decide +kernel, k, ?_⟩
  have a : (leBytes 4 1 ++ zeroBytes 12 : Bytes).length = 16 := rfl
  have r : rd wrapped 0 4 = 1 := by rw [wrapped, rd_append _ _ _ _ (by rw [a]; omega)]; decide +kernel
  have i : slice wrapped 4 12 = zeroBytes 12 := by
    rw [wrapped, slice, List.drop_append_of_le_length (by rw [a]; omega), List.take_append_of_le_length (by rw [List.length_drop, a])]; rfl
  have b : slice wrapped 16 48 = gcmSeal wrapKey (zeroBytes 12) wrapAad (zeroBytes 32) := by
    rw [wrapped, slice, List.drop_left' a, List.take_of_length_le (by rw [l]), l]; exact List.append_nil _
  have e : unwrapKey session1 5 0 2 wrapped = gcmOpen wrapKey (slice wrapped 4 12) wrapAad (slice wrapped 16 48) := by
    unfold unwrapKey wrapKey wrapAad
    rw [r]
    exact if_neg (by decide)
  rw [e, i, b, hk]
/-! ### Ports, flits and peers -/

/-- A LINK_SET message. -/
def linkMsg (op action ports : Nat) : Bytes := msg 0x14 0 0 (leBytes 1 op ++ leBytes 1 action ++ leBytes 2 ports)
/-- A LINK_SET GROUP message: size 2, index 1, id 9. -/
def groupMsg : Bytes := msg 0x14 0 0 (leBytes 1 1 ++ zeroBytes 3 ++ leBytes 1 2 ++ leBytes 1 1 ++ zeroBytes 2 ++ leBytes 8 9)

theorem witness_PortsTrainToActive :
    (∀ c ∈ [linkMsg 2 1 2048, linkMsg 2 3 1], Accepts (boxed live 0 c) 0 .mailbox c ∧ rd c 0 2 = 0x0014 ∧ rd c 8 1 = 2 ∧ linkSetOk c = true) ∧
    (rd (linkMsg 2 1 2048) 9 1 = 1 ∧ rd (linkMsg 2 1 2048) 10 2 = 2 ^ 11 ∧ rd (linkMsg 2 3 1) 9 1 = 3 ∧ rd (linkMsg 2 3 1) 10 2 = 2 ^ 0) ∧
    (let s := withPort { port0 .detect with st := .detect }; let on := { s with gov := { s.gov with on := [208] } };
      Live on ∧ (portOf on 0).st = .detect ∧ 208 + 0 ∈ on.gov.on ∧ 4 ≤ (4 : Nat) ∧ on.boot.dtc ≤ (portOf on 0).since + stateLimit .detect) ∧
    (∀ st ∈ [PortState.eq, .align, .linkInit, .rtt, .recovery, .active, .hold], Live (withPort (upPort st)) ∧ (portOf (withPort (upPort st)) 0).st = st ∧
      live.boot.dtc ≤ (upPort st).since + stateLimit st) ∧
    (∀ st ∈ [PortState.eq, .align, .linkInit, .rtt, .recovery], ¬ live.boot.dtc ≤ 0 + stateLimit st) ∧ 0 + 1000000 ≤ live.boot.dtc ∧
    (let s := withPort (upPort .rtt); peerIndex s 0 = some 1 ∧ bondPorts s 1 = []) ∧
    (let s := { live with ports := upPort .rtt :: upPort .active :: live.ports.drop 2 }; peerIndex s 0 = some 1 ∧ bondPorts s 1 = [1]) ∧
    (upPort .recovery).back = .active ∧
    (upPort .linkInit).peer ≠ none ∧
    (let p := { upPort .rtt with echoes := 16, rtt := 121 }; 16 ≤ p.echoes ∧ 120 < p.rtt) ∧
    (let p := { upPort .rtt with echoes := 16, rtt := 120, pings := [1] }; 16 ≤ p.echoes ∧ p.rtt ≤ 120 ∧ p.pings = 1 :: []) ∧ (3 < 4 : Prop) ∧
    (let s := duo live; peer1.groupId = s.group.id ∧ peer1.groupSize = s.group.size ∧ peer1.groupIndex ≠ s.group.index ∧ peer1.groupIndex < s.group.size) ∧
    ¬ peer1.groupId = live.group.id ∧ (upPort .hold).holding = false := by
  simp only [Accepts, Waits, Live]; decide +kernel

/-- Partition 0 across the group of two, and its port to the other member. -/
def spanned (x : Port) : State :=
  let s := duo (withPart { part0 with items := { part0.items with groupSize := 2 } })
  { s with ports := x :: s.ports.drop 1 }

theorem witness_PortsLeaveAndGoDown :
    (∀ s ∈ [live, spanned (upPort .active)], Accepts (boxed s 0 groupMsg) 0 .mailbox groupMsg) ∧ rd groupMsg 0 2 = 0x0014 ∧ linkSetOk groupMsg = true ∧
    rd groupMsg 8 1 = 1 ∧ (∀ p ∈ live.ports, p.st = .disabled ∨ p.st = .down) ∧ (∀ x ∈ live.parts, x.st ≠ .disabled → x.items.groupSize ≤ 1) ∧
    upPort .active ∈ (spanned (upPort .active)).ports ∧ (upPort .active).st ≠ .disabled ∧ (upPort .active).st ≠ .down ∧
    (let c := linkMsg 2 2 1; linkSetOk c = true ∧ rd c 8 1 = 2 ∧ rd c 9 1 = 2 ∧ rd c 10 2 = 2 ^ 0 ∧
      (∀ s ∈ [withPort { upPort .active with leaving := some (ctx0, 0) }, withPort (upPort .down), withPort (upPort .active), spanned (upPort .active)],
        Accepts (boxed s 0 c) 0 .mailbox c) ∧
      (portOf (withPort (upPort .down)) 0).leaving = none ∧ (portOf (withPort (upPort .down)) 0).st ≠ .active ∧
      peerIndex (spanned (upPort .active)) 0 = some 1 ∧ bondPorts (spanned (upPort .active)) 1 = [0] ∧ activeSpans (spanned (upPort .active)) 0 1 = true ∧
      (∀ p < 8, activeSpans (withPort (upPort .active)) p 1 = false)) := by
  simp only [Accepts, Waits, Live]; decide +kernel

/-- A port the moment it is DOWN. -/
def fell (s : State) (n : Nat) : State := updPort (portPowerOff s n) n fun q =>
  { clearLink q with st := .down, reason := downOf 1, downs := satAdd 32 q.downs 1, replay := q.replay, txq := q.txq, rxSeq := q.rxSeq }

theorem witness_PortsGoDown :
    (let s := withPort (upPort .active); Live s ∧ (portOf s 0).st = .active ∧ portInUse s 0 = false ∧ peerIndex s 0 = some 1) ∧
    (let p := { upPort .active with disableSent := true, leaving := some (ctx0, 1) }; p.disableSent = true ∧ p.leaving = some (ctx0, 1) ∧ 0 < 1) ∧
    (let s := withPort { upPort .active with leaving := some (ctx0, 1), replay := [{ seq := 0, vc := 0, bytes := [] }] };
      1 + 10000 ≤ s.boot.dtc ∧ (portOf (markIdlePorts s) 0).st = .active ∧ drained (portOf (markIdlePorts s) 0) = false) ∧
    (let s := withPort { upPort .down with leaving := some (ctx0, 1) }; (portOf (markIdlePorts s) 0).st = .down) ∧
    (let s := withPort (upPort .rtt); (portOf s 0).st ≠ .disabled ∧ (portOf s 0).st ≠ .down ∧ (portOf s 0).st ≠ .active ∧ (portOf s 0).st ≠ .recovery) ∧
    (let s := { spanned (upPort .recovery) with ports := upPort .active :: upPort .active :: live.ports.drop 2 };
      let u := fell s 0;
      peerIndex u 0 = some 1 ∧ bondPorts u 1 = [1]) ∧
    (let s := spanned (upPort .active);
      let u := fell s 0;
      peerIndex u 0 = some 1 ∧ bondPorts u 1 = [] ∧ activeSpans (forgetMember (finishLeaving u 0) 1) 0 1 = true) ∧
    (let s := withPort (upPort .active); let u := fell s 0;
      peerIndex u 0 = some 1 ∧ bondPorts u 1 = [] ∧ ∀ q, q < 8 → activeSpans (forgetMember (finishLeaving u 0) 1) q 1 = false) ∧
    ((upPort .recovery).st = .recovery ∧ (upPort .recovery).back = .active) ∧
    (let s := withPort { upPort .recovery with back := .rtt }; ¬ ((portOf s 0).st = .active ∨ ((portOf s 0).st = .recovery ∧ (portOf s 0).back = .active))) := by
  simp only [Live]; decide +kernel

theorem witness_LanesAreSteeredAndRecalibrated :
    Live (withPort (upPort .active)) ∧ (portOf (withPort (upPort .active)) 0).st = .active ∧ linkUp (upPort .active) = true ∧ (upPort .active).spare = true ∧
    (upPort .active).steered = none ∧ (upPort .active).asked = none ∧ (upPort .active).due = none ∧ (upPort .active).recal = none ∧
    ratioBad ((upPort .active).lanes.getD 3 .reset) 0 = false ∧
    ratioBad { Lane.reset with errs := [(0, 214749)] } 7895159 = true ∧ ratioBad { Lane.reset with errs := [(0, 214748)] } 0 = false ∧
    ratioBad { Lane.reset with errs := [(0, 214749)] } 7895160 = false ∧
    (let p := { upPort .active with spare := false, steered := some 3 }; linkUp p = true ∧ p.spare = false ∧ p.steered ≠ none) ∧
    (let p := { upPort .active with asked := some (2, .replace) }; linkUp p = true ∧ ¬ ∀ e, p.asked = some e → e.2 ≠ .replace) ∧
    (let p := { upPort .active with recal := some 3 }; linkUp p = true ∧ p.steered = none ∧ p.recal = some 3 ∧ 3 < 4) ∧
    (let p := { upPort .active with turned := [0, 1, 2, 3] }; p.st = .active ∧ 3 ∈ p.turned ∧ ∀ k, k < 4 → k ∈ p.turned) ∧
    (3 ∉ (upPort .active).turned) ∧
    (let p := { upPort .active with due := some (3, .replace), rxCount := 1285 }; p.due = some (3, .replace) ∧ p.rxCount % 1285 = 0 ∧ (p.rxCount + 1) % 1285 ≠ 0) := by
  simp only [Live]; decide +kernel

/-- A flit with a header and its CRC. -/
def flitOf (h : Nat) : Bytes := let b := leBytes 8 h ++ zeroBytes 240; b ++ leBytes 8 (crc64 b).toNat
/-- A decoder that corrected nothing and lost the codewords given of a flit's. -/
def fecOf (lost : List Nat) : FecInfo := { corr := [0, 0, 0, 0], lost := lost }

theorem witness_FlitsAreCheckedAndAcknowledged :
    (let s := withPort (upPort .active); Live s ∧ txOn (portOf s 0) = true ∧ (portOf s 0).holding = false ∧ bits (2 ^ 36) 37 36 = 1 ∧
      bits (2 ^ 37) 37 36 = 2 ∧ bits 0 37 36 = 0 ∧ bits (4095 * 2 ^ 52) 63 52 ≠ (portOf s 0).rxSeq ∧ bits 0 63 52 = (portOf s 0).rxSeq ∧
      (vcOf (portOf s 0) 0).rxUsed < bufferOf 0 ∧ [0, 0, 0, 0] = (portOf s 0).vcs.map (·.rxFlits) ∧ [0, 0, 0, 0] = (portOf s 0).vcs.map (·.rxCredits) ∧
      [1, 0, 0, 0] ≠ (portOf s 0).vcs.map (·.rxFlits)) ∧
    (let x := { upPort .active with vcs := (upPort .active).vcs.map fun v => { v with rxUsed := 32 } };
      bufferOf 0 ≤ (vcOf (portOf (updPort (withPort x) 0 fun q => applyHeader q 0) 0) 0).rxUsed) ∧
    (∀ h ∈ [0, 2 ^ 36, 2 ^ 37, 4095 * 2 ^ 52], let f := flitOf h
      f.length = 256 ∧ rd f 0 8 = h ∧ slice f 248 8 = leBytes 8 (crc64 (slice f 0 248)).toNat) ∧
    ¬ ((zeroBytes 255).length = 256) ∧ lostCws (upPort .active) (fecOf []) = [] ∧ lostCws (upPort .active) (fecOf [0]) = [0] ∧
    lostCws { upPort .active with rxCount := 2 } (fecOf [1]) = [1] ∧ (upPort .active).lanes.length = 5 ∧ (upPort .active).due = none ∧
    (upPort .active).steered = none ∧ (upPort .active).recal = none := by
  simp only [Live]; decide +kernel
/-- The first flit lies in codeword 0 alone, the third in codewords 0 and 1, and the 1,285th ends codeword 511 (R303). -/
theorem test_flit_codewords : flitCws 0 = [0] ∧ flitCws 2 = [0, 1] ∧ flitCws 1284 = [511] ∧ flitCws 1285 = [512] := by decide +kernel
/-- The check value of CRC-64/XZ over "123456789" (R314 names the CRC by its polynomial of ECMA-182). -/
theorem test_crc64 : (crc64 (ascii "123456789")).toNat = 0x995DC9BBDF1939FA := by decide +kernel

/-- Partition 0 with an attempt in a phase, and a port. -/
def running (ph : Phase) (x : Port) : State := { withPart (busy (att ph)) with ports := x :: live.ports.drop 1, clusters := [cl0 (qcmd 0x0F 0 0)], reqs := [req1] }

theorem witness_PeerMessagesReachTheirAttempt :
    (let s := running .run (upPort .active); Live s ∧ s.flt.pkg = .serving ∧ msgKnown 1 1 4 64 = false ∧ msgKnown 2 2 5 512 = false ∧
      msgKnown 1 1 5 512 = true ∧ msgKnown 2 2 1 480 = true ∧
      tagKind s 0 (lmsg 5 0 0 (zeroBytes 512)) = .executing (att .run) ∧ (att .run).clusters[0]? = some 0 ∧ (cxOf s 0).isSome = true ∧
      tagKind s 0 (lmsg 5 0 65536 (zeroBytes 512)) = .nothing) ∧
    tagKind (running .claim (upPort .active)) 0 (lmsg 5 0 0 []) = .early ∧
    tagKind (running .run { upPort .active with reclaimRx := [(0, 0)] }) 0 (lmsg 5 0 0 []) = .killed ∧
    (let s := running .run (upPort .active); let m := lmsg 0x10 0 0 [];
      (partOf s m.part).attempt = some (att .run) ∧ attemptTag (partOf s m.part) (att .run) = m.tag / 65536 ∧ m.body = []) ∧
    (let s := running .killing (upPort .active); let m := lmsg 2 0 0 [];
      (partOf s m.part).attempt = some (att .killing) ∧ (att .killing).phase = .killing ∧ attemptTag (partOf s m.part) (att .killing) = m.tag / 65536) ∧
    (let s := running .run (upPort .active); let u := openReclaim s 0 0 0; linkUp (portOf s 0) = true ∧ (zeroBytes 16).length = 16 ∧
      (vcOf (portOf u 0) 1).rxFlits = rd (zeroBytes 16) 0 8 ∧ (vcOf (portOf u 0) 2).rxFlits = rd (zeroBytes 16) 8 8 ∧
      (vcOf (portOf u 0) 1).rxFlits ≠ rd (leBytes 8 1 ++ zeroBytes 8) 0 8) ∧
    (let s := withPort (upPort .active); (portOf s 0).st ≠ .disabled ∧ (portOf s 0).st ≠ .down ∧ peerIndex s 0 = some 1) ∧
    peerIndex (withPort (port0 .active)) 0 = none ∧
    (let s := withPort (upPort .active); let s := { s with flt := { s.flt with pkg := .quarantined } }; peerIndex s 0 = some 1 ∧ s.flt.pkg ≠ .serving) ∧
    (let s := { live with ports := upPort .active :: upPort .down :: live.ports.drop 2 }; (portOf s 1).st = .down ∧ (portOf s 0).st = .active) := by
  simp only [Live]; decide +kernel

/-- The same partition where this package is the other member. -/
def follower : State := let s := spanned (upPort .active); { s with group := { s.group with index := 1 } }
/-- A forwarded copy of a message. -/
def relayed (part fn : Nat) (cmd : Bytes) : LinkMsg := { lmsg 1 part 0 (leBytes 2 fn ++ zeroBytes 6 ++ cmd ++ zeroBytes (80 - cmd.length)) with arg := 0 }

theorem witness_ForwardedMessagesReachTheLeader :
    (∀ c ∈ [msg 0x11 0 0 (leBytes 1 1), msg 0x41 5 0 [], msg 0x50 5 0 []],
      Accepts (boxed follower 0 c) 0 .mailbox c ∧ goesToLeader (took (boxed follower 0 c) 0 .mailbox c) (ask (boxed follower 0 c) 0 .mailbox c) = true) ∧
    rd (msg 0x11 0 0 (leBytes 1 1)) 8 1 ≠ 2 ∧ follower.flt.pkg = .serving ∧ (relayed 0 0 []).kind = 1 ∧ (lmsg 1 0 0 (zeroBytes 71)).body.length < 72 ∧
    (let m := relayed 0xFF 0 (leBytes 2 0x41 ++ leBytes 2 7 ++ zeroBytes 60); let s := { follower with host := { follower.host with forwarded := [{ ctx0 with opcode := 0x41 }] } };
      m.part = 0xFF ∧ 72 ≤ m.body.length ∧
      (takeForward s 0 m).host.forwarded.find? (fun c => c.opcode == 0x41 && c.cid == 7 && ctxFn c == 0) = some { ctx0 with opcode := 0x41 }) ∧
    (let m := relayed 0 0 (msg 0x41 5 0 []); let u := takeForward (spanned (upPort .active)) 0 m;
      m.part ≠ 0xFF ∧ rd m.body 0 2 ≠ 0xFFFF ∧ rd m.body 0 2 ≠ 0xFFFE ∧ spans u 0 = true ∧ leads u 0 = true) ∧
    (let m := relayed 0 0xFFFE []; ∀ s ∈ [spanned (upPort .active), withPort (upPort .active)], m.part ≠ 0xFF ∧ rd m.body 0 2 = 0xFFFE ∧ m.kind = 1 ∧
      72 ≤ m.body.length ∧ peerIndex (takeForward s 0 m) 0 = some 1) ∧
    (let n := noticed .part 0 [1]; spans (hear (spanned (upPort .active)) n) 0 = true ∧ spans (hear (withPort (upPort .active)) n) 0 = false) ∧
    (let m := relayed 0 0xFFFF (msg 0x41 5 0 []); let u := takeForward follower 0 m;
      rd m.body 0 2 = 0xFFFF ∧ spans u 0 = true ∧ leads u 0 = false ∧ (partOf u 0).st ≠ .disabled) := by
  simp only [Accepts, Waits, Live]; decide +kernel
/-! ### Adapters, requests, conversations and capsules -/

/-- A resident model whose digests are zero. -/
def model1 : Model := { model0 [] with key := { weights := zeroBytes 32, program := zeroBytes 32, level := .nlX1 } }
/-- Partition 0 with that model, a handle issued, an adapter pool and staging. -/
def partM : Part :=
  { part0 with items := { part0.items with pool := 4, stage := 65536, tail := 65536 }, slots := [some model1, none, none, none], handles := 1 }
/-- Tenant 5 with a key. -/
def tenantK : Tenant := { tenant5 with keys := [{ gen := 1, key := zeroBytes 32, uses := 0 }] }
/-- It serves, with a window for every use. -/
def serv : State := { withPart partM with host := { live.host with wins := [{ homes with use := 7 }] }, tenants := [tenantK] }

/-- An adapter image of rank 4 for the one adaptation point (Table ADP-2): header, point table, a granule for A, one for B. -/
def adImage : Bytes :=
  slice (ascii "SWAI" ++ leBytes 2 1 ++ leBytes 2 4 ++ leBytes 2 1 ++ leBytes 1 1 ++ leBytes 1 1 ++ leBytes 4 0x3F800000 ++ zeroBytes 32 ++
    leBytes 8 1536 ++ zeroBytes 8 ++ zeroBytes 4 ++ leBytes 4 16 ++ leBytes 4 16 ++ leBytes 4 1 ++ leBytes 4 2) 0 1536
/-- An adapter, absent. -/
def adapter1 : Adapter :=
  { part := 0, idx := 1, owner := 5, window := 1, offset := 0, length := 1536, digest := sha256 adImage, companion := none, homeSealed := false
    model := zeroBytes 32, st := .absent, pins := 0, retiring := false, forced := false, bad := false, lastUse := 0, tries := 0, byPlan := true, frames := [], image := [] }
/-- A registration of it. -/
def reg1 : PendReg :=
  { part := 0, idx := 1, owner := 5, window := 1, offset := 0, length := 1536, digest := sha256 adImage, companion := none, homeSealed := false, ctx := ctx0 }
/-- The same state with adapters and registrations. -/
def withAds (as : List Adapter) (rs : List PendReg) : State := { serv with adapters := as, regs := rs }

/-- ADAPTER_REGISTER: index, owner, no companion, window 1, the length. -/
def regMsg (i owner : Nat) : Bytes :=
  msg 0x20 5 0 (leBytes 2 i ++ leBytes 2 owner ++ leBytes 2 0xFFFF ++ leBytes 1 1 ++ zeroBytes 1 ++ zeroBytes 8 ++ leBytes 8 1536 ++ zeroBytes 32)

theorem witness_AdaptersAreRegistered :
    (∀ p ∈ [(serv, regMsg 1 5), (serv, regMsg 1 9), (withAds [adapter1] [], regMsg 1 5), ({ serv with parts := part0 :: live.parts.drop 1 }, regMsg 1 5)],
      Accepts (boxed p.1 1 p.2) 1 .mailbox p.2 ∧ rd p.2 0 2 = 0x0020 ∧ rd p.2 15 1 < 2 ∧ (partOf (boxed p.1 1 p.2) (rd p.2 6 1)).st = .active) ∧
    (let c := regMsg 1 9; ownerCode (took (boxed serv 1 c) 1 .mailbox c) (ask (boxed serv 1 c) 1 .mailbox c) (regOf (ask (boxed serv 1 c) 1 .mailbox c)) = some .invalidField) ∧
    (let c := regMsg 1 5; let s := boxed (withAds [adapter1] []) 1 c; let r := regOf (ask s 1 .mailbox c);
      ownerCode (took s 1 .mailbox c) (ask s 1 .mailbox c) r = none ∧ indexCode (took s 1 .mailbox c) r = some .indexInUse) ∧
    (let c := regMsg 1 5; let s := boxed serv 1 c; let r := regOf (ask s 1 .mailbox c); let v := winUse { took s 1 .mailbox c with regs := [r] } r.window 1;
      indexCode (took s 1 .mailbox c) r = none ∧ s.regs = [] ∧ adapterFrames r.length ≤ poolFree v r.part ∧ (openPool v r.part r.idx (adapterFrames r.length)).isSome = true) ∧
    (let c := regMsg 1 5; let s := boxed { serv with parts := part0 :: live.parts.drop 1 } 1 c; let r := regOf (ask s 1 .mailbox c);
      poolFree (winUse { took s 1 .mailbox c with regs := [r] } r.window 1) r.part < adapterFrames r.length) := by
  simp only [Accepts, Waits, Live]; decide +kernel

/-- The state a registration's checks are made in. -/
def regAt (s : State) (r : PendReg) : State :=
  charge (winUse { s with regs := s.regs.filter fun g => !(g.part == 0 && g.idx == 1) } r.window (-1)) 0 3 1536

theorem home_image (s : State) : homeImage s 5 1536 false (sha256 adImage) adImage = some adImage := by simp [homeImage]

/-- What it parses to. -/
def adParsed : AdImage :=
  { rank := 4, aFmt := .bf16, bFmt := .bf16, scale := 0x3F800000#32, model := zeroBytes 32
    points := [{ layer := 0, point := 0, dIn := 16, dOut := 16, aOff := 1, bOff := 2, aSoff := 0, bSoff := 0 }] }

theorem adapter_parses : parseAdapter adImage = some adParsed := by decide +kernel

theorem checkReg_good {s : State} {r : PendReg} {im : Bytes} {ad : AdImage} {y : Model} (hs : r.homeSealed = false) (hd : r.digest = sha256 im)
    (hl : im.length = r.length) (hw : winOk s (ctxFn r.ctx) r.window 0 r.offset r.length = true) (hp : parseAdapter im = some ad)
    (hst : (partOf s r.part).items.stage ≠ 0) (hm : (partOf s r.part).slots.filterMap id = [y]) (hy : (y.key.weights == ad.model) = true)
    (hf : adapterFits ad y.prog = true) : checkReg s r (some im) = (.success, im, ad.model) := by
  unfold checkReg
  simp only [hs, hd, homeSpan, homeImage, hl, hw, hm, hy, hp, hf, hst, Bool.false_eq_true, if_false, if_true, bne_self_eq_false, Bool.not_true, Bool.or_false,
    beq_self_eq_true, List.find?_cons_of_pos]

theorem witness_AdapterRegistrationChecks :
    (let s := withAds [] [reg1]; s.flt.pkg = .serving ∧ s.host.linkUp = true ∧ (s.regs.find? fun r => r.part == 0 && r.idx == 1).map (·.ctx) = some ctx0 ∧
      mayStart (partOf s 0) 3 = true ∧ mayStart (partOf s 0) 1 = true ∧ runsHeld s (regFrames s reg1) = true) ∧
    checkReg (regAt (withAds [] [reg1]) reg1) reg1 (some []) = (.homeFault, [], []) ∧ Code.homeFault ≠ .success ∧
    checkReg (regAt (withAds [] [reg1]) reg1) reg1 (some adImage) = (.success, adImage, zeroBytes 32) ∧
    adapterDiffers (regAt (withAds [] [reg1]) reg1) 0 1 5 none (sha256 adImage) = false :=
  ⟨by decide +kernel, by decide +kernel, by decide, checkReg_good rfl (by simp only [reg1]) (by decide +kernel) (by decide +kernel) adapter_parses (by decide +kernel)
    (y := model1) (by decide +kernel) (by decide +kernel) (by decide +kernel), by decide +kernel⟩

/-- The same at a member that has heard of another registration from its leader. -/
def regTold : State := joined { withAds [] [reg1] with parts := wide partM :: live.parts.drop 1 } [noticed .adapter 1 (zeroBytes 37)]

theorem witness_AdapterConflict :
    (regTold.flt.pkg = .serving ∧ regTold.host.linkUp = true ∧ (regTold.regs.find? fun r => r.part == 0 && r.idx == 1).map (·.ctx) = some ctx0 ∧
      mayStart (partOf regTold 0) 3 = true ∧ mayStart (partOf regTold 0) 1 = true ∧ runsHeld regTold (regFrames regTold reg1) = true) ∧
    checkReg (regAt regTold reg1) reg1 (some adImage) = (.success, adImage, zeroBytes 32) ∧
    adapterDiffers (regAt regTold reg1) 0 1 5 none (sha256 adImage) = true :=
  ⟨by decide +kernel, checkReg_good rfl (by simp only [reg1]) (by decide +kernel) (by decide +kernel) adapter_parses (by decide +kernel)
    (y := model1) (by decide +kernel) (by decide +kernel) (by decide +kernel), by decide +kernel⟩

/-- Partition 0 with a demand for adapter 1. -/
def demanding : State := let s := withAds [adapter1] []; { s with parts := { partM with fetchQ := [(1, true)] } :: live.parts.drop 1 }
/-- Adapter 1 in a state, after some failed reads. -/
def adIn (st : AdState) (n : Nat) : Adapter := { adapter1 with st := st, tries := n }

theorem witness_AdaptersAreFetchedAndEvicted :
    (demanding.flt.pkg = .serving ∧ demanding.host.linkUp = true ∧ (partOf demanding 0).st = .active ∧ (partOf demanding 0).fetchQ = (1, true) :: [] ∧
      (match demandStep demanding 0 1 true with | .starts a => a.idx == 1 | _ => false) = true) ∧
    (∀ n ∈ [1, 2], let s := withAds [adIn .fetching n] [];
      (adapterOf s 0 1).map (fun a => (a.st, a.tries)) = some (.fetching, n) ∧ mayStart (partOf s 0) 3 = true ∧ mayStart (partOf s 0) 1 = true ∧
      runsHeld s [] = true ∧ winOk (charge s 0 3 1536) 0 1 0 0 1536 = true) ∧
    adImage.length = homeSpan 1536 false ∧ (zeroBytes 1535).length ≠ homeSpan 1536 false ∧
    (∀ s : State, homeImage s 5 1536 false (sha256 adImage) adImage = some adImage) ∧
    (∀ s : State, homeImage s 5 48 true (sha256 adImage) [] = none ∨ (openHome s 5 [] 48).isSome = true) ∧
    (adapterOf (withAds [adIn .evicting 0] []) 0 1).map (·.st) = some .evicting := by
  refine ⟨by decide +kernel, by decide +kernel, by decide +kernel, by decide +kernel, home_image, ?_, by decide +kernel⟩
  intro s
  cases h : openHome s 5 [] 48 with
  | none => left; simp [homeImage, h]
  | some b => right; rfl

/-- ADAPTER_RETIRE of adapter 1: method 1 DEFER, 2 FORCE. -/
def retireMsg (m : Nat) : Bytes := msg 0x21 5 0 (leBytes 2 1 ++ leBytes 1 m)

theorem witness_AdaptersAreRetired :
    (∀ m ∈ [1, 2], let c := retireMsg m
      rd c 0 2 = 0x0021 ∧ rd c 10 1 = m ∧ bodyZero c [(8, 3)] = true ∧ rd c 8 2 = 1 ∧
      ∀ s ∈ [serv, withAds [adIn .resident 0] [], withAds [{ adIn .resident 0 with retiring := true, forced := true }] [],
          withAds [adIn .resident 0, { adIn .resident 0 with idx := 2, companion := some 1 }] []],
        Accepts (boxed s 1 c) 1 .mailbox c ∧ (partOf (boxed s 1 c) (rd c 6 1)).st = .active) ∧
    adapterOf serv 0 1 = none ∧ (adapterOf (withAds [adIn .resident 0] []) 0 1).map (fun a => (a.owner, a.retiring)) = some (5, false) := by
  simp only [Accepts, Waits, Live]; decide +kernel

/-- A REQUEST_SUBMIT descriptor (Table MSG-10) with one prompt token, and its message. -/
def reqDesc (token : Nat) : Bytes :=
  ascii "SWRD" ++ leBytes 2 1 ++ zeroBytes 18 ++ leBytes 4 0x3F800000 ++ zeroBytes 10 ++ leBytes 2 0xFFFF ++ leBytes 2 0xFFFF ++ leBytes 2 127 ++ leBytes 1 4 ++
    leBytes 1 8 ++ zeroBytes 2 ++ leBytes 8 4096 ++ leBytes 8 8192 ++ leBytes 8 65536 ++ leBytes 8 131072 ++ zeroBytes 24 ++ leBytes 4 1 ++ zeroBytes 36 ++ leBytes 4 token
/-- REQUEST_SUBMIT of it. -/
def submit : Bytes := dmsg 0x40 5 0 (leBytes 4 148)

theorem witness_RequestsAreSubmitted :
    (∀ s ∈ [serv, inState .draining, withPart part0, { serv with parts := { partM with handles := 2 ^ 48 - 1 } :: live.parts.drop 1 }],
      Accepts (boxed s 1 submit) 1 .mailbox submit ∧ goesToLeader (took (boxed s 1 submit) 1 .mailbox submit) (ask (boxed s 1 submit) 1 .mailbox submit) = false ∧
      (tenantOf s 5).map (·.part) = some 0) ∧
    rd submit 0 2 = 0x0040 ∧ 144 ≤ rd submit 16 4 ∧ rd submit 8 8 % 64 = 0 ∧
    (∀ y ∈ [31, 32], (reqDesc y).length = rd submit 16 4 ∧ reqReserved submit (reqDesc y) = true ∧ reqFormed (rd submit 16 4) (reqDesc y) (readReqDesc (reqDesc y)) = true) ∧
    (let u := took (boxed serv 1 submit) 1 .mailbox submit; let m := ask (boxed serv 1 submit) 1 .mailbox submit; let r := readReqDesc (reqDesc 31);
      (partOf u 0).st = .active ∧ offered u 0 .base = some model1 ∧ promptOk model1 r = true ∧ promptOk model1 (readReqDesc (reqDesc 32)) = false ∧
      adapterCode u 0 5 model1.key.weights ([r.ad0, r.ad1].filterMap id) = none ∧ adapterCode u 0 5 model1.key.weights [1] = some .adapterUnknown ∧
      (partOf u 0).handles + 1 < 2 ^ 48 ∧ canReserve u 0 (reqQuota (partOf u 0) (bornReq u (birthOf u m ((partOf u 0).handles + 1) (fromHost m)) r model1 tenantK)) = true) ∧
    (partOf (inState .draining) 0).st ≠ .active ∧ offered (withPart part0) 0 .base = none := by
  simp only [Accepts, Waits, Live]; decide +kernel

/-- A message on handle 1: opcode, then what follows the handle. -/
def hmsg (op : Nat) (rest : Bytes) : Bytes := msg op 5 0 (leBytes 8 1 ++ rest)
/-- The serving partition with request 1 as given. -/
def withQ (q : Req) : State := { serv with reqs := [q] }
/-- What is kept of an ended request. -/
def ended1 : Ended := { h := 1, tenant := 5, term := 1, detail := 0, next := 4, cancelAt := some 9, own := true, entries := 6, tokens := 3, digest := zeroBytes 32 }
/-- The same partition with a kept outcome, or without one. -/
def endedState (es : List Ended) : State := { serv with parts := { partM with outcomes := es } :: live.parts.drop 1 }

/-- What function n's message about handle 1 finds once what was due has happened. -/
def caught (u : Bool) (n : Nat) (s : State) (c : Bytes) : State := lapse u (took s n .mailbox c) (askCtx s n .mailbox c).accept 0 1

theorem witness_RequestsAreCancelled :
    (let c := hmsg 0x41 [];
      (∀ s ∈ [withQ req1, endedState [ended1], withPart { partM with handles := 0 }], Accepts (boxed s 1 c) 1 .mailbox c ∧
        goesToLeader (took (boxed s 1 c) 1 .mailbox c) (ask (boxed s 1 c) 1 .mailbox c) = false ∧ (partOf s 0).st ≠ .disabled) ∧
      rd c 0 2 = 0x0041 ∧ bodyZero c [(8, 8)] = true ∧
      (let s := boxed (withQ req1) 1 c; findHandle (caught true 1 s c) (ask s 1 .mailbox c) 1 = .live req1) ∧
      (let s := boxed (endedState [ended1]) 1 c; findHandle (caught true 1 s c) (ask s 1 .mailbox c) 1 = .ended (some ended1)) ∧
      (let s := boxed (endedState []) 1 c; findHandle (caught true 1 s c) (ask s 1 .mailbox c) 1 = .ended none) ∧
      (let s := boxed (withPart { partM with handles := 0 }) 1 c; findHandle (caught true 1 s c) (ask s 1 .mailbox c) 1 = .unknown)) ∧
    (partOf (withQ req1) 0).freezeAt = none ∧ (reqOf (withQ req1) 1).map (·.conv) = some .live := by
  simp only [Accepts, Waits, Live]; decide +kernel

/-- Request 1 in a conversation state. -/
def conv1 (st : Conv) : Req := { req1 with conv := st, base := model1.key, history := [1, 2], next := 2 }
/-- A PARK record. -/
def record1 (at_ : Nat) : ParkRec := { offset := 0, entryLen := 528, expiresAt := at_, hdrDigest := [], tag := [], keyGen := 1 }
/-- Text of a condensed conversation. -/
def cond1 : Cond := { p := 0, s := 4, key := model1.key, frames := [], vecs := [], digest := [] }
/-- CONV_RESUME of one token at address 0. -/
def resume1 : Bytes := hmsg 0x51 (zeroBytes 24 ++ leBytes 4 1)

theorem witness_ConversationsPauseAndResume :
    (∀ s ∈ [withQ (conv1 .held), withQ (conv1 .live), withQ (conv1 .parked), withQ { conv1 .parked with record := some (record1 5000001) }, withQ { conv1 .condensed with cond := some cond1 }],
      ∀ c ∈ [hmsg 0x50 (zeroBytes 16 ++ leBytes 8 100000000), hmsg 0x52 [], hmsg 0x53 [], resume1],
      Accepts (boxed s 1 c) 1 .mailbox c ∧ goesToLeader (took (boxed s 1 c) 1 .mailbox c) (ask (boxed s 1 c) 1 .mailbox c) = false ∧ (partOf s 0).st = .active) ∧
    (let c := hmsg 0x50 (zeroBytes 16 ++ leBytes 8 100000000); let s := boxed (withQ (conv1 .held)) 0 c; let u := caught true 0 s c; let m := ask s 0 .mailbox c;
      Accepts s 0 .mailbox c ∧ bodyZero c [(8, 32)] = true ∧ findHandle u m 1 = .live (conv1 .held) ∧ parkCode u m (conv1 .held) = none ∧
      parkCode u m (conv1 .parked) = some .wrongState) ∧
    (let c := hmsg 0x52 []; let s := boxed (withQ (conv1 .held)) 1 c; let u := caught true 1 s c;
      bodyZero c [(8, 8)] = true ∧ findHandle u (ask s 1 .mailbox c) 1 = .live (conv1 .held) ∧ condenseCode u (conv1 .held) ≠ none ∧
      condenseCode { u with parts := { partM with slots := [some model1, none, some model1, none] } :: u.parts.drop 1 } { conv1 .held with kvBase := { kv := [[]], frames := [] } } = none) ∧
    resumable (conv1 .live) = false ∧ resumable (conv1 .held) = true ∧ bodyZero resume1 [(8, 36)] = true ∧ (leBytes 4 31).length = 4 * rd resume1 40 4 ∧
    rd resume1 40 4 ≤ 4096 ∧ rd resume1 16 8 % 64 = 0 ∧
    (∀ q ∈ [conv1 .held, conv1 .parked, { conv1 .parked with record := some (record1 5000002) }, { conv1 .condensed with cond := some cond1 }],
      let s := boxed (withQ q) 1 resume1; findHandle (caught false 1 s resume1) (ask s 1 .mailbox resume1) 1 = .live q ∧
      (reqOf (relay (caught false 1 s resume1) (ask s 1 .mailbox resume1) 1 (leBytes 4 31)) 1).map (·.conv) = some q.conv) ∧
    (let u := caught false 1 (boxed (withQ (conv1 .held)) 1 resume1) resume1;
      resumeCode u (conv1 .held) [31] 5000001 = none ∧ resumeCode u (conv1 .held) [32] 5000001 = some .invalidField ∧
      resumeCode u (conv1 .parked) [31] 5000001 = some .parkExpired ∧ resumeCode u { conv1 .parked with record := some (record1 5000002) } [31] 5000001 = none ∧
      resumeCode u { conv1 .condensed with cond := some cond1 } [31] 5000001 = none) := by
  simp only [Accepts, Waits, Live]; decide +kernel

/-- Tenant 5 with an idle action. -/
def idler (a : IdleAct) : Tenant := { tenantK with idleAction := a }
/-- A held conversation whose idle time has run out. -/
def idle1 : Req := { conv1 .held with idleAt := some 4999990 }

/-- The same partition where it spans two members, led by this one or by the other. -/
def spread (i : Nat) (q : Req) : State :=
  let s := withQ q
  { s with parts := wide partM :: live.parts.drop 1, group := { s.group with id := 9, size := 2, index := i } }

theorem witness_PausedConversationsMoveOn :
    (∀ a ∈ [IdleAct.park, .condense, .drop], ∀ w ∈ [withQ idle1, spread 1 idle1], let s := { w with tenants := [idler a] }
      s.flt.pkg = .serving ∧ reqOf s 1 = some idle1 ∧ living idle1 = true ∧ tenantOf s 5 = some (idler a) ∧ idle1.conv = .held ∧ convBusy idle1 = false ∧
      idle1.replay = none ∧ (idler a).idleTicks ≠ 0 ∧ 4999990 + (idler a).idleTicks ≤ s.boot.dtc) ∧
    leads (withQ idle1) 0 = true ∧ leads (spread 1 idle1) 0 = false ∧
    (let q := { conv1 .parked with record := some (record1 5000000) }; reqOf (withQ q) 1 = some q ∧ living q = true ∧ (record1 5000000).expiresAt ≤ (withQ q).boot.dtc) ∧
    (∀ w ∈ [none, some ctx0], let k := { parking1 with barrier := true }; let q := { conv1 .parking with parking := some k, wantCtx := w }
      (∀ s ∈ [withQ q, spread 0 q], reqOf s 1 = some q) ∧ living q = true ∧ k.parts.length ≤ k.written ∧ k.stamp ≤ (withQ q).boot.dtc ∧
      spans (withQ q) 0 = false ∧ spans (spread 0 q) 0 = true ∧ q.wantCtx = w) ∧
    (let k := { parking1 with written := 0 }; k.written < k.parts.length) ∧
    (∀ n ∈ [0, 3], let q := { conv1 .parking with parking := some { parking1 with tries := n } }
      (∀ s ∈ [withQ q, spread 0 q], reqOf s 1 = some q ∧ parkFailed (retryPark s 1) 1 = decide (n = 3)) ∧ living q = true) := by decide +kernel

/-- The clear header of a park entry without KV frames: no frames, no tail, KEY_GEN 1, IV_BASE 0 (Table PRV-4). -/
def parkHdr : Bytes := parkHeader serv { conv1 .parked with fb := none } 0 0 1 0 528 0 0
/-- The manifest and its tag. -/
def parkBox : Bytes := gcmSeal (parkKey serv { gen := 1, key := zeroBytes 32, uses := 0 }) (partIv 0 0) parkHdr (zeroBytes 256)
/-- The entry. -/
def parkEntry1 : Bytes := parkHdr ++ parkBox
/-- Its record. -/
def resRec : ParkRec := { record1 0 with hdrDigest := sha256 parkHdr, tag := parkBox.drop 256 }
/-- A conversation that resumes from it. -/
def resuming : Req := { conv1 .resuming with record := some resRec, want := some (.resume [31] 0 0 1) }

/-- The same, whose header names no group size. -/
def badRec : ParkRec := { record1 0 with hdrDigest := sha256 (zeroBytes 256) }
/-- A conversation with that record. -/
def badLayout : Req := { conv1 .resuming with record := some badRec }

theorem resume_checks {s : State} {q : Req} {e : ReadResult}
    (h : (q.conv != .resuming || restored s q || !s.host.linkUp || !mayStart (partOf s q.part) 3 || !mayStart (partOf s q.part) 1 || !stacksHeld s) = false)
    (w : (match parkWindow s q.part, q.record with | some w, some r => winOk s 0 w.d 0 r.offset r.entryLen | _, _ => false) = true) :
    resumeCheck s q e = some (checkEntry s q e) := by
  unfold resumeCheck
  dsimp only
  rw [h, if_neg Bool.false_ne_true]
  exact congrArg (fun x => some (checkEntry s q x)) (if_pos w)

theorem checkEntry_good {s : State} {q : Req} {bs man : Bytes} {r : ParkRec} {k : TenantKey} (h1 : q.record = some r)
    (h2 : sha256 (slice bs 0 256) = r.hdrDigest) (h3 : rd (slice bs 0 256) 16 1 = (partOf s q.part).items.groupSize)
    (h4 : rd (slice bs 0 256) 17 1 = ownIndex s (partOf s q.part).items.groupSize) (h5 : keyOf s q.tenant (rd (slice bs 0 256) 28 4) = some k)
    (h6 : rd (slice bs 0 256) 20 4 = 0) (h7 : rd (slice bs 0 256) 24 4 = 0)
    (h8 : gcmOpen (parkKey s k) (partIv (rd (slice bs 0 256) 32 8) 0) (slice bs 0 256) (slice bs 256 272) = some man)
    (h9 : (slice bs 256 272).drop 256 = r.tag) : ∃ b f, checkEntry s q (some bs) = .good b f := by
  unfold checkEntry
  rw [h1]
  simp only [h2, h3, h4, h5, h6, h7, h8, h9, bne_self_eq_false, Bool.false_eq_true, if_false, Bool.or_false, openFramesOf, Nat.mul_zero, Nat.add_zero, if_true]
  exact ⟨_, _, rfl⟩

theorem checkEntry_layout {s : State} {q : Req} {bs : Bytes} {r : ParkRec} (h1 : q.record = some r) (h2 : sha256 (slice bs 0 256) = r.hdrDigest)
    (h3 : rd (slice bs 0 256) 16 1 ≠ (partOf s q.part).items.groupSize) : checkEntry s q (some bs) = .layout := by
  unfold checkEntry
  rw [h1]
  simp only [h2, bne_self_eq_false, Bool.false_eq_true, if_false]
  rw [if_pos (by simp [h3])]

/-- Its Sinter runs hold their permits. -/
def ready (q : Req) : State := withPermits (withQ q) ((List.range 8).map fun h => permit (392 + h) 4 .sinter)

theorem witness_ResumeEntries :
    (ready resuming).flt.pkg = .serving ∧ reqOf (ready resuming) 1 = some resuming ∧ living resuming = true ∧
    (spans (ready resuming) 0 = false ∧ resuming.resumeTries < 2 ∧ 2 ≤ { resuming with resumeTries := 2 }.resumeTries) ∧
    (∃ b f, resumeCheck (ready resuming) resuming (some parkEntry1) = some (.good b f)) ∧ resuming.want = some (.resume [31] 0 0 1) ∧
    resumeCheck (ready resuming) resuming none = some .readFails ∧
    (let q := { conv1 .resuming with record := some (record1 0) }; resumeCheck (ready q) q (some []) = some .bad) ∧
    resumeCheck (ready badLayout) badLayout (some []) = some .layout := by
  have hl : parkHdr.length = 256 := by decide +kernel
  have t : (gcmTag (aesKeys (parkKey serv { gen := 1, key := zeroBytes 32, uses := 0 })) (partIv 0 0) parkHdr
    (aesCtr (aesKeys (parkKey serv { gen := 1, key := zeroBytes 32, uses := 0 })) (partIv 0 0) 2 (zeroBytes 256))).length = 16 := by decide +kernel
  have bl : parkBox.length = 272 := by decide +kernel
  obtain ⟨man, hm⟩ := gcm_round (parkKey serv { gen := 1, key := zeroBytes 32, uses := 0 }) (partIv 0 0) parkHdr (zeroBytes 256) t
  have hs : slice parkEntry1 0 256 = parkHdr := by
    rw [parkEntry1, slice, List.drop_zero, List.take_left' hl, hl]; exact List.append_nil _
  have hb : slice parkEntry1 256 272 = parkBox := by
    rw [parkEntry1, slice, List.drop_left' hl, List.take_of_length_le (by rw [bl]), bl]; exact List.append_nil _
  have r1 : rd parkHdr 16 1 = 1 ∧ rd parkHdr 17 1 = 0 ∧ rd parkHdr 28 4 = 1 ∧ rd parkHdr 32 8 = 0 ∧ rd parkHdr 20 4 = 0 ∧ rd parkHdr 24 4 = 0 := by decide +kernel
  have g1 : (partOf (ready resuming) resuming.part).items.groupSize = 1 ∧ ownIndex (ready resuming) 1 = 0 ∧
    (partOf (ready badLayout) badLayout.part).items.groupSize = 1 := by decide +kernel
  have k1 : keyOf (ready resuming) resuming.tenant 1 = some { gen := 1, key := zeroBytes 32, uses := 0 } := by decide +kernel
  have pk : parkKey (ready resuming) { gen := 1, key := zeroBytes 32, uses := 0 } = parkKey serv { gen := 1, key := zeroBytes 32, uses := 0 } := by
    simp only [parkKey, ready, withPermits, withQ]
  refine ⟨by decide +kernel, ?_, by decide +kernel, by decide +kernel, ?_, by decide +kernel, by decide +kernel, by decide +kernel, ?_⟩
  · simp only [reqOf, ready, withPermits, withQ]; exact List.find?_cons_of_pos (by decide +kernel)
  · obtain ⟨b, f, hg⟩ := checkEntry_good (s := ready resuming) (q := resuming) (bs := parkEntry1) (man := man) (r := resRec) rfl
      (by rw [hs]; simp only [resRec]) (by rw [hs, r1.1, g1.1]) (by rw [hs, r1.2.1, g1.1, g1.2.1]) (by rw [hs, r1.2.2.1]; exact k1) (by rw [hs, r1.2.2.2.2.1])
      (by rw [hs, r1.2.2.2.2.2]) (by rw [hs, hb, r1.2.2.2.1, pk]; exact hm) (by rw [hb]; simp only [resRec])
    refine ⟨b, f, ?_⟩
    rw [← hg, resume_checks (by decide +kernel) (by decide +kernel)]
  · rw [resume_checks (by decide +kernel) (by decide +kernel)]
    exact congrArg some (checkEntry_layout (r := badRec) rfl (by simp only [badRec]; exact congrArg sha256 (by decide +kernel)) (by rw [g1.2.2]; decide +kernel))

/-- A capsule's entries before its SEAL: opening, three digests, sampling, one prompt token (Table CAP-5). -/
def capHead : List Bytes :=
  [entryBytes 1 48 0 (ascii "HSKC" ++ leBytes 2 1 ++ leBytes 1 1 ++ leBytes 1 1 ++ zeroBytes 32 ++ leBytes 4 6 ++ leBytes 4 1),
   entryBytes 2 40 1 (leBytes 1 1), entryBytes 2 40 2 (leBytes 1 2), entryBytes 2 40 3 (leBytes 1 3),
   entryBytes 4 56 4 (zeroBytes 8 ++ leBytes 4 0x3F800000 ++ leBytes 4 100 ++ zeroBytes 36), entryBytes 5 4 5 (leBytes 4 31)]
/-- SHA-256 of them, most significant byte first. -/
def capSha : Bytes := beBytes 32 0xc84d36295459910d4cfe46a8bed59a2b4ef6bdc6af7c4ca3800bdc2399d22418
/-- The capsule. -/
def capsule1 : Bytes := (capHead ++ [entryBytes 9 56 6 (leBytes 4 6 ++ zeroBytes 20 ++ capSha)]).flatten
/-- REPLAY_START of it from window 1. -/
def replayMsg : Bytes := msg 0x61 5 0 (leBytes 1 1 ++ zeroBytes 7 ++ leBytes 8 0 ++ leBytes 8 448)
/-- Status of a replay. -/
def stat1 : ReplayStat :=
  { id := 1, tenant := 5, st := 2, endNo := 1, compared := 0, divIndex := none, divKind := 0, divSeq := 0, recTok := 0, recFlags := 0, recHead := []
    obsTok := 0, obsFlags := 0, obsHead := [], termRep := false, fwDiffers := false, partDiffers := false, unsealed := false }
/-- The partition with it. -/
def replayed1 : State := { serv with parts := { partM with replayStats := [stat1] } :: live.parts.drop 1 }

theorem witness_CapsulesAreExported :
    (let c := hmsg 0x60 []; rd c 0 2 = 0x0060 ∧ bodyZero c [(8, 8)] = true ∧
      (∀ s ∈ [withQ req1, running .run (port0 .active), endedState [ended1], withPart { partM with handles := 0 }],
        Accepts (boxed s 1 c) 1 .mailbox c ∧ (partOf s 0).st ≠ .disabled) ∧
      (let s := boxed (withQ req1) 1 c; findHandle (caught true 1 s c) (ask s 1 .mailbox c) 1 = .live req1 ∧ planned (caught true 1 s c) req1 = false) ∧
      req1.ownsRing = true ∧ req1.jrn.waiting = [] ∧
      (let s := boxed (updPart (running .run (port0 .active)) 0 fun x => { x with handles := 1 }) 1 c; findHandle (caught true 1 s c) (ask s 1 .mailbox c) 1 = .live req1 ∧ planned (caught true 1 s c) req1 = true) ∧
      (∀ o ∈ [true, false], let e := { ended1 with own := o }; let s := boxed (endedState [e]) 1 c
        findHandle (caught true 1 s c) (ask s 1 .mailbox c) 1 = .ended (some e) ∧ e.own = o) ∧
      (let s := boxed (withPart { partM with handles := 0 }) 1 c; findHandle (caught true 1 s c) (ask s 1 .mailbox c) 1 = .unknown)) := by
  simp only [Accepts, Waits, Live]; decide +kernel

theorem witness_ReplaysStart :
    Accepts (boxed serv 1 replayMsg) 1 .mailbox replayMsg ∧ rd replayMsg 0 2 = 0x0061 ∧
    goesToLeader (took (boxed serv 1 replayMsg) 1 .mailbox replayMsg) (ask (boxed serv 1 replayMsg) 1 .mailbox replayMsg) = false ∧ mayStart (partOf serv 0) 3 = true ∧
    bodyZero replayMsg [(8, 2), (16, 16)] = true ∧ rd replayMsg 9 1 < 2 ∧ rd replayMsg 24 8 % 64 = 0 ∧ (partOf serv 0).st = .active ∧
    tenantOf (boxed serv 1 replayMsg) 5 = some tenantK := by
  simp only [Accepts, Waits, Live]; decide +kernel

/-- The PF's window holds the capsule, and the checks accept it; nothing is a capsule without its bytes. -/
theorem witness_CapsuleChecks :
    (let u := charge (took (boxed serv 0 replayMsg) 0 .mailbox replayMsg) 0 3 448; let m := ask (boxed serv 0 replayMsg) 0 .mailbox replayMsg;
      winOk u 0 1 0 0 448 = true ∧ (descBytes 448 (some capsule1)).isSome = true ∧ checkReplay u m none tenantK = (.homeFault, none) ∧
      (checkReplay u m (some capsule1) tenantK).1 = .success ∧ (checkReplay u m (some capsule1) tenantK).2.isSome = true) := by decide +kernel

theorem witness_ReplayStatus :
    (∀ a ∈ [0, 64], let c := msg 0x62 5 0 (leBytes 4 1 ++ zeroBytes 4 ++ leBytes 8 a)
      Accepts (boxed replayed1 1 c) 1 .mailbox c ∧ rd c 0 2 = 0x0062 ∧ bodyZero c [(8, 4), (16, 8)] = true ∧ rd c 16 8 = a ∧ a % 64 = 0 ∧
      goesToLeader (took (boxed replayed1 1 c) 1 .mailbox c) (ask (boxed replayed1 1 c) 1 .mailbox c) = false) ∧
    (partOf replayed1 0).st ≠ .disabled ∧ (partOf replayed1 0).replayStats.find? (fun r => r.id == 1 && ((1 : Nat) == 0 || r.tenant == 5)) = some stat1 ∧
    (partOf serv 0).replayStats.find? (fun r => r.id == 1 && ((1 : Nat) == 0 || r.tenant == 5)) = none := by
  simp only [Accepts, Waits, Live]; decide +kernel

theorem witness_OutputsAreWrittenBehindABarrier :
    (∀ g ∈ [1, 2, 3, 4, 5, 6], let c := msg 0x70 0 0 (leBytes 2 g ++ zeroBytes 2 ++ leBytes 4 16 ++ leBytes 8 64)
      Accepts (boxed serv 0 c) 0 .mailbox c ∧ rd c 0 2 = 0x0070 ∧ bodyZero c [(8, 2), (12, 20)] = true ∧ rd c 16 8 % 64 = 0 ∧ rd c 12 4 % 16 = 0 ∧
      rd c 8 2 = g ∧ rd c 24 8 = 0) ∧
    (∀ t ∈ [5, 0xFFFF], let c := msg 0x71 0 0 (leBytes 2 t ++ zeroBytes 2 ++ leBytes 4 16 ++ leBytes 8 64)
      Accepts (boxed serv 0 c) 0 .mailbox c ∧ rd c 0 2 = 0x0071 ∧ bodyZero c [(8, 2), (12, 12)] = true ∧ rd c 16 8 % 64 = 0 ∧ rd c 12 4 % 16 = 0 ∧
      (partOf serv 0).st ≠ .disabled ∧ rd c 8 2 = t) ∧
    readerOf (took (boxed serv 0 []) 0 .mailbox []) (ask (boxed serv 0 []) 0 .mailbox []) = none ∧ (tenantOf serv 5).map (·.part) = some 0 ∧
    (let c := msg 0x90 0 0 (zeroBytes 8 ++ leBytes 4 4096 ++ leBytes 4 64); let b := updFn live 0 fun f => { f with spdmPending := true };
      (∀ s ∈ [live, b], Accepts (boxed s 0 c) 0 .mailbox c) ∧ rd c 0 2 = 0x0090 ∧ bodyZero c [(8, 24)] = true ∧ 1 ≤ rd c 16 4 ∧ rd c 16 4 ≤ 4096 ∧
      64 ≤ rd c 20 4 ∧ rd c 20 4 ≤ 4096 ∧ (zeroBytes 4096).length = rd c 16 4 ∧ (fnOf live 0).spdmPending = false ∧ (fnOf b 0).spdmPending = true) := by
  simp only [Accepts, Waits, Live]; decide +kernel
/-! ### Steps -/

/-- Partition 0 with an attempt, its clusters on. -/
def stepping (a : Attempt) (cls : List Cluster) : State :=
  let s := withPart (busy a)
  { s with gov := { s.gov with on := List.range 8 }, clusters := cls, reqs := [req1] }
/-- Partitions 0 and 1 that share their clusters by time, with the attempts given. -/
def turning (x y : Attempt) : State :=
  let t := fun a => { busy a with items := { part0.items with time := true } }
  let s := stepping x [cl0 (qcmd 0x0C 4 0)]
  { s with parts := t x :: t y :: live.parts.drop 2 }
/-- Partition 0 across two members, with an attempt, at a member index. -/
def across (a : Attempt) (i : Nat) : State :=
  let m := model0 []
  let m2 : Model := { m with prog := { m.prog with layouts := m.prog.layouts.map fun l => { l with groupSize := 2 } } }
  let s := duo (withPart { busy a with items := { part0.items with groupSize := 2 }, slots := [some m2, none, none, none] })
  { s with group := { s.group with index := i }, reqs := [req1] }

theorem witness_StepsFreezeAndCommit :
    (let s := withPart { part0 with freezeAt := some 5000000 }; Live s ∧ (partOf s 0).freezeAt = some 5000000 ∧ (partOf s 0).attempt = none ∧
      canFreeze s 0 = true ∧ 5000000 ≤ s.boot.dtc ∧ s.boot.dtc < 5000001) ∧
    (let s := stepping (att .claim) []; Live s ∧ (partOf s 0).attempt = some (att .claim) ∧ (att .claim).phase = .claim ∧ (att .claim).plan.rows ≠ [] ∧
      groupTurns s 0 = false ∧ mayGrant s 0 = true) ∧
    (let s := stepping (att .claim) [cl0 (qcmd 0x0F 0 0)]; 0 ∈ clusterSet (partOf s 0).items ∧ (clusterOf s 0).holder ≠ none) ∧
    (let s := { turning (att .claim) (att .claim) with clusters := [] }; groupTurns s 1 = false ∧
      0 ∈ (turnOrder s (timeSet s 1)).takeWhile (· != 1) ∧ isClaim s 0 = true ∧ clustersFree s 0 = true ∧ (partOf s 1).items.time = true) ∧
    (let s := across (att .killing) 1; Live s ∧ leads s 0 = false ∧ spans s 0 = true ∧ (partOf s 0).st ≠ .disabled ∧ s.flt.pkg = .serving ∧
      (partOf s 0).attempt = some (att .killing) ∧ (att .killing).phase = .killing ∧ (att .killing).reclaims = []) ∧
    (∀ ph ∈ [Phase.run, .ready], let s := across (att ph) 0; (partOf s 0).attempt = some (att ph) ∧ leads s 0 = true ∧ (att ph).phase = ph ∧ s.host.linkUp = true) ∧
    (allReady (across (att .ready) 0) 0 (att .ready) = false ∧ allReady (across (att .ready) 0) 0 { att .ready with readyFrom := [1] } = true ∧
      residue (across (att .ready) 0) (att .ready) = none ∧
      residue (stepping (att .ready) [updChan (cl0 (qcmd 0x0F 0 0)) 3 fun v => { v with msgs := [{ port := 0, base := 0, body := [], xp := 0, esc := 0, layer := 0, src := (0, 0, 0) }] }]) (att .ready) = some 0) ∧
    (let s := across (att .ready) 1; (partOf s 0).attempt = some (att .ready) ∧ leads s 0 = false) := by
  simp only [Live]; decide +kernel

theorem witness_AttemptsAreKilledAndRerun :
    (let s := stepping (att .run) []; Live s ∧ (partOf s 0).attempt = some (att .run) ∧ attemptTag (partOf s 0) (att .run) = tagAttempt 0 ∧
      attemptTag (partOf s 0) (att .run) ≠ tagAttempt 65536 ∧ (att .run).phase ≠ .killing ∧ (partOf live 0).attempt = none) ∧
    (∀ r ∈ [Rerun.same, .escape], let a := { att .killing with rerun := r }; let s := stepping a [];
      (partOf s 0).attempt = some a ∧ a.phase = .killing ∧ a.reclaims = [] ∧ a.rerun = r) ∧
    (let a := { att .killing with reclaims := [0] }; (partOf (stepping a []) 0).attempt = some a ∧ a.reclaims ≠ []) := by
  simp only [Live]; decide +kernel

/-- Cluster 0 at the cheap point its attempt aims at. -/
def atCheap1 : Cluster := { cl0 (qcmd 0x0C 4 0) with atCheap := some 4 }
/-- An attempt of one cluster that shelves. -/
def shelver (ph : Phase) : Attempt := { att ph with clusters := [0], cheap := some 4, shelveBy := 5000000, shelfFrames := [3], shelf := [[1]] }
/-- A shelf frame. -/
def shelfFrame (ok : Bool) : Frame := { no := 3, cls := .transit, owner := .shelf, sealed := ok, written := 128, digest := [], corrected := 0, unusable := false }

theorem witness_AttemptsAreShelved :
    (∀ a ∈ [att .run, { att .run with guarded := true }], ∀ k ∈ [Preempt.kill, .shelve],
      let s := turning a (att .claim); let s := updPart s 0 fun x => { x with items := { x.items with preempt := k } }
      Live s ∧ (partOf s 0).attempt = some a ∧ (partOf s 0).items.time = true ∧ overlap s 0 1 = true ∧ isClaim s 1 = true ∧ a.phase = .run ∧
      a.grantedAt + (partOf s 0).items.quantum ≤ s.boot.dtc ∧ groupTurns s 0 = false ∧ spans s 0 = false ∧ (partOf s 0).items.preempt = k) ∧
    (let s := turning (att .run) (att .claim);
      (runningLayout s 0 (att .run)).map (·.1) = some 0 ∧ (modelAt (partOf s 0) 0).isSome = true ∧
      (nextCheap ((runningLayout s 0 (att .run)).getD (0, gLayout)).2 (layersDone s (att .run))).map (·.id) = some 4) ∧
    (let a := shelver .shelving; let s := stepping a [atCheap1]; (partOf s 0).attempt = some a ∧ a.phase = .shelving ∧ atPoint s a = true ∧ cleanPoint s 0 a = true ∧
      (runningLayout s 0 a).map (·.1) = some 0 ∧ (((runningLayout s 0 a).getD (0, gLayout)).2.cheap.find? fun y => some y.id == a.cheap).map (·.live) = some 512 ∧
      ceilDiv 512 65536 ≤ usableFree s 0 ∧ (openFrames s 0 .transit .shelf 1).isSome = true ∧ a.shelveBy ≤ s.boot.dtc ∧ s.boot.dtc < a.shelveBy + 1) ∧
    (let a := shelver .shelving; let t := { stepping a [atCheap1] with parts := { busy a with items := { part0.items with hbmCount := 0 } } :: live.parts.drop 1 };
      (runningLayout t 0 a).map (·.1) = some 0 ∧ usableFree t 0 < ceilDiv 512 65536) := by
  simp only [Live]; decide +kernel

theorem witness_ShelvedAttemptsResume :
    (∀ b ∈ [true, false], let a := shelver .sintering; let s := { stepping a [] with frames := [shelfFrame b] }
      (partOf s 0).attempt = some a ∧ a.phase = .sintering ∧ a.shelfFrames = [3] ∧ frameOf s 3 = some (shelfFrame b) ∧ (shelfFrame b).sealed = b) ∧
    (let a := shelver .shelved; let s := { stepping a [] with frames := [shelfFrame true] };
      (partOf s 0).attempt = some a ∧ a.phase = .shelved ∧ mayGrant s 0 = true ∧ groupTurns s 0 = false ∧ frameOf s 3 = some (shelfFrame true)) ∧
    (∀ a ∈ [att .claim, shelver .shelved, att .run], let s := across a 1; let s := { s with gov := { s.gov with on := List.range 8 } }
      (partOf s 0).attempt = some a ∧ leads s 0 = false ∧ s.flt.pkg = .serving ∧ s.boot.fwPhase ≠ .quiesce ∧ clustersFree s 0 = true) ∧
    (∀ a ∈ [att .claim, shelver .shelved], ∀ on ∈ [List.range 8, []], let s := across a 1
      let s := updPart { s with gov := { s.gov with on := on } } 0 fun x => { x with items := { x.items with time := true }, turn := true }
      (partOf s 0).attempt = some a ∧ leads s 0 = false ∧ placed s 0 = !on.isEmpty) ∧
    (let a := shelver .shelving; let s := { across a 0 with clusters := [atCheap1] };
      (partOf s 0).attempt = some a ∧ spans s 0 = true ∧ a.phase = .shelving ∧ atPoint s a = true ∧ cleanPoint s 0 a = true ∧
      cheapEverywhere (tellCheap s 0 a) 0 a = false) := by
  decide +kernel

theorem witness_ShelfDigestDiffers : (shelfFrame true).digest ≠ sha256 (shelfChunk (shelver .shelved) 0) := by
  intro h
  have l := sha256_length (shelfChunk (shelver .shelved) 0)
  rw [← h] at l
  cases l

theorem witness_LedgerClosesAndDoubtSpreads :
    live.flt.pkg = .serving ∧ Live live ∧ { live.flt with pkg := .quarantined }.pkg = .quarantined ∧ dead.flt.pkg ≠ .serving ∧ dead.flt.pkg ≠ .quarantined ∧
    imbalance ((List.range 8).foldl releaseEnded live) (List.range 8) = none ∧
    (let s := { live with ports := { upPort .active with txq := [], vcs := (upPort .active).vcs.map fun v => { v with rxUsed := 33 } } :: live.ports.drop 1 };
      imbalance ((List.range 8).foldl releaseEnded s) (List.range 8) = some (1, 0xFF)) := by
  simp only [Live]; decide +kernel

/-! ### Commands of the clusters -/

/-- Cluster 0 executing a command, with permits. -/
def does (k : QCmd) (ps : List Permit) : State := withPermits (runs k) ps

/-- An MA_MAC with flags, an operand at a unit, and its products at a unit. -/
def mac (flags at_ d : Nat) : QCmd := { qcmd 1 3 1 with cmd := { cmd 1 3 1 with flags := flags, a := at_, d := d } }
/-- The array permit of cluster 0. -/
def array1 : List Permit := [permit 0 11 .array8]
/-- A set at offset 4 whose scales have been sent to member 1 and not heard from it. -/
def unheard : Ear :=
  { d := 4, tensor := 3, rows := 1, cols := 1, els := [EarEl.clear], parts := [], scaleFrom := [], scaleSent := [1], planRows := [] }
/-- Member 0 of two, whose cluster 0 runs a FINAL MA_MAC into that set. -/
def finalWaits : State := withPermits { across (att .run) 0 with clusters := [{ cl0 (mac 2 0 4) with ears := [unheard] }] } array1

theorem witness_MaMac :
    (∀ k ∈ [mac 0 0 4, mac 0 8192 4, mac 2 0 4], issues (does k array1) 1 k = true ∧ issues (runs k) 1 k = true) ∧
    (let x := cx0 (runs (mac 0 0 4)); (anchorFor x.model 3).isSome = true ∧ (fmtOfCode (0x0202 % 256)).isSome = true ∧ (fmtOfCode (0x0202 / 256)).isSome = true ∧
      layerClass x.lay x.rank x.cl.layers = none ∧ arrayHeld (runs (mac 0 0 4)).gov 0 < classDu (macClass (cmd 1 3 1)) ∧
      classDu (macClass (cmd 1 3 1)) ≤ arrayHeld (does (mac 0 0 4) array1).gov 0 ∧
      (operandRange x.cl 0 0 512).all (fun r => r.1 + r.2 ≤ 4194304) = true ∧ (operandRange x.cl 0 8192 512).all (fun r => r.1 + r.2 ≤ 4194304) = false ∧
      bit (mac 0 0 4).cmd.flags 1 = false ∧ bit (mac 2 0 4).cmd.flags 1 = true ∧ scalesHeard 1 0 (openEar x.cl 4 3 1 1) = true ∧
      inputHeld x.att x.rank 2048 512 = false) ∧
    (issues finalWaits 1 (mac 2 0 4) = true ∧ openEar (cx0 finalWaits).cl 4 3 1 1 = unheard ∧
      ownIndex finalWaits (cx0 finalWaits).part.items.groupSize = 0 ∧ scalesHeard (cx0 finalWaits).part.items.groupSize 0 unheard = false) := by
  decide +kernel

theorem witness_AmMacAndVuOp :
    (let k := qcmd 2 0 1; Issues (runs k) 0 2 (cx0 (runs k)) k ∧ Issues (does k [permit 192 3 .amvu]) 0 2 (cx0 (does k [permit 192 3 .amvu])) k) ∧
    (let k := qcmd 3 0 1; Issues (runs k) 0 3 (cx0 (runs k)) k ∧ Issues (does k [permit 192 3 .amvu]) 0 3 (cx0 (does k [permit 192 3 .amvu])) k) ∧
    (let x := cx0 (runs (qcmd 2 0 1)); x.model.prog.points.length = 1 ∧ (anchorsLow x.model.prog.anchors 3).length = 1 ∧ mayStart x.part 0 = true ∧
      mayStart { x.part with items := { x.part.items with rates := [(1, 65536)] } } 0 = false ∧
      holds (runs (qcmd 2 0 1)).gov 192 .amvu = false ∧ holds (does (qcmd 2 0 1) [permit 192 3 .amvu]).gov 192 .amvu = true) := by
  refine ⟨⟨issues_sound (by decide +kernel), issues_sound (by decide +kernel)⟩, ⟨issues_sound (by decide +kernel), issues_sound (by decide +kernel)⟩, by decide +kernel⟩

/-- A twin pair of rank 0's command 0, shadowed on cluster 1. -/
def twin1 (d : Option Nat) : TwinPair :=
  { inv := 0, rank := 0, cmd := 0, shadow := 1, inputs := [], output := [1], primaryDigest := d, shadowDigest := none }
/-- Cluster 1 with the shadow of a command queued, and permits. -/
def shadowing (op : Nat) (d : Option Nat) (ps : List Permit) : State :=
  let s := withPart { busy { att .run with twins := [twin1 d] } with slots := [some (model0 [[cmd op 3 1]]), none, none, none] }
  withPermits { s with clusters := [{ idleCluster 1 with holder := some (0, 1), invs := [0], twinQ := [(0, 0, 0)] }] } ps

theorem witness_TwinShadow :
    ∀ op ∈ [1, 2], ∀ ps ∈ [[], [permit 193 3 .amvu, permit 1 11 .array8]], ∀ d ∈ [some (tileDigest [1]), none], let s := shadowing op d ps
      Live s ∧ (holderOf s 1).map (·.1) = some 0 ∧ (clusterOf s 1).twinQ = (0, 0, 0) :: [] ∧ shadowCmd s 0 (0, 0, 0) = some (cmd op 3 1) ∧
      (op = 1 → (classDu (macClass (cmd op 3 1)) ≤ arrayHeld s.gov 1 ↔ ps ≠ [])) ∧ (op ≠ 1 → holds s.gov (192 + 1) .amvu = !ps.isEmpty) ∧
      ((some [1] : Option Bytes).getD [] = (twin1 d).output ∧ (none : Option Bytes).getD (twin1 d).output = [1]) ∧
      ([twin1 d].find? fun t => t.inv == 0 && t.rank == 0 && t.cmd == 0 && t.shadow == 1 && t.shadowDigest.isNone) = some (twin1 d) := by
  simp only [Live]; decide +kernel

/-- Its outbound channel 0 routed to rank 0 of its own member, places of the channel used as given, or by the fabric port. -/
def routed (k : QCmd) (port : Nat) (ms : List ChanMsg) : State :=
  let c := updChan { cl0 k with routes := [(0, { dest := 0, member := 0, ch := 3, port := port, esc := 1 })] } 3 fun v => { v with msgs := ms }
  { runs k with clusters := [{ c with ears := [] }] }
/-- A message on a channel. -/
def cmsg : ChanMsg := { port := 0, base := 0, body := zeroBytes 64, xp := 0, esc := 0, layer := 0, src := (0, 0, 0) }

/-- A LOAD of tensor t, n granules to a unit. -/
def loadCmd (t n d : Nat) : QCmd := { qcmd 4 t n with cmd := { cmd 4 t n with d := d } }
/-- A SEND of two messages from a unit. -/
def sendCmd (at_ : Nat) : QCmd := { qcmd 5 0 2 with cmd := { cmd 5 0 2 with a := at_ } }

theorem witness_LoadSendBind :
    (∀ k ∈ [loadCmd 9 1 4, loadCmd 8 1 4, loadCmd 9 129 4, loadCmd 9 1 8192], ∀ ps ∈ [[], [permit 384 6 .hbmTrain]],
      issues (does k ps) 4 k = true ∧ holds (does k ps).gov 384 .hbmTrain = !ps.isEmpty) ∧
    (∀ k ∈ [sendCmd 0, sendCmd 8192, { sendCmd 0 with sent := 2 }], ∀ ms ∈ [[], List.replicate 8 cmsg], let s := routed k 0 ms; let x := cx0 s
      issues s 5 k = true ∧ (routeReg x k).map (fun r => (r.port, sendWaits s x k r, sendBreaks s x k r k.sent, placeFree s x k r)) =
        some (0, false, none, ms.isEmpty)) ∧
    (∀ n ∈ [0, 1], let k := qcmd 6 0 n; issues (runs k) 6 k = true) ∧ (let k := qcmd 11 0 0; issues (runs k) 11 k = true) ∧
    (let s := runs (loadCmd 9 1 4); let x := cx0 s; (x.model.tensors.find? fun t => t.id == 8) = none ∧ mayStart x.part 0 = true ∧ hbmTurn s 0 = true ∧
      (x.model.tensors.find? fun t => t.id == 9).map (fun t => (t.frames, weightStall x.model t)) = some (1, false) ∧
      (x.model.tensors.find? fun t => t.id == 9).map (fun t => weightStall { x.model with stream := true } { t with layer := 0 }) = some true ∧
      inputHeld x.att x.rank 2048 512 = false) := by decide +kernel


/-- An EAR set whose sum breaks the bound of XP64 (R320), its scales sent where given. -/
def broken1 (sent : List Nat) : Ear := { unheard with els := [{ sum := 2 ^ 62, ind := 0, scale := none, terms := [] }], scaleSent := sent }
/-- SEND of the partial at offset 4. -/
def sendXp : QCmd := { qcmd 5 0 1 with cmd := { cmd 5 0 1 with a := 4 } }
/-- A SEND of it to the other member, by an anchor of XP64. -/
def sendsXp (sent : List Nat) : State :=
  let s := updModel (across (att .run) 0) 0 0 fun m => { m with prog := { m.prog with anchors := m.prog.anchors.map fun a => { a with xp := 2 } } }
  { s with clusters := [{ cl0 sendXp with routes := [(0, { dest := 0, member := 1, ch := 3, port := 4, esc := 1 })], ears := [broken1 sent] }] }

theorem witness_SendBreaks :
    ∀ sent ∈ [[], [1]], let s := sendsXp sent; let x := cx0 s
      issues s 5 sendXp = true ∧ (routeReg x sendXp).map (fun r => (r.port, sendWaits s x sendXp r, sendBreaks s x sendXp r 0)) = some (4, !sent.isEmpty, some 3) := by
  decide +kernel

/-- A message and a binding on channel 3. -/
def meets (left port d : Nat) : State :=
  let b : Binding := { port := port, d := d, left := left, signal := 7, done := 0 }
  { runs (qcmd 0x0F 0 0) with clusters := [updChan (cl0 (qcmd 0x0F 0 0)) 3 fun _ => { msgs := [cmsg], binds := [b] }] }
/-- The cheap point, kept while its attempt aims at it. -/
def cheapState (ph : Phase) : State := { stepping (shelver ph) [cl0 (qcmd 0x0C 4 0)] with parts := busy (shelver ph) :: live.parts.drop 1 }

theorem witness_ChannelsAndCheapPoints :
    (∀ n ∈ [1, 2], ∀ at_ ∈ [(0, 0), (5, 0), (5, 8192)], let s := meets n at_.1 at_.2; Live s ∧ (cxOf s 0).isSome = true ∧ ((chanOf (cx0 s).cl 3).msgs, (chanOf (cx0 s).cl 3).binds.map (·.left)) = ([cmsg], [n]) ∧ bindCount (cx0 s).model cmsg = 1 ∧ inputHeld (cx0 s).att (cx0 s).rank 0 64 = false ∧
      (chanOf (cx0 s).cl 2).msgs = []) ∧
    (let k := qcmd 0x0C 4 0; issues (cheapState .run) 0x0C k = true ∧ issues (cheapState .shelving) 0x0C k = true ∧
      (cx0 (cheapState .run)).att.phase ≠ .shelving ∧ (cx0 (cheapState .shelving)).att.cheap = some k.cmd.aux ∧ allBefore (cx0 (cheapState .shelving)).cl k.idx = true ∧
      allBefore { (cx0 (cheapState .shelving)).cl with todo := [] } 1 = false) := by
  simp only [Live]; decide +kernel

theorem witness_KvStageSampleStepEnd :
    (let k := qcmd 0x0D 0 1; Issues (runs k) 0 0x0D (cx0 (runs k)) k) ∧
    (let k := qcmd 0x0E 0 1; Issues (runs k) 0 0x0E (cx0 (runs k)) k ∧ Issues (does k [permit 192 3 .amvu]) 0 0x0E (cx0 (does k [permit 192 3 .amvu])) k) ∧
    (let k := qcmd 0x0F 0 0; Issues (runs k) 0 0x0F (cx0 (runs k)) k ∧
      (let a := { att .run with clusters := [0] }; let s := stepping a [cl0 k]; Issues s 0 0x0F (cx0 s) k ∧
        ∀ d ∈ a.clusters, (clusterOf (dropClusterPermits (complete s 0 (cx0 s) k { (cx0 s).cl with finished := true }) 0) d).finished = true)) ∧
    (let x := cx0 (runs (qcmd 0x0F 0 0)); x.model.prog.kind ≠ 2 ∧ allBefore x.cl 0 = true ∧ allBefore x.cl 1 = false ∧ 1 ∈ x.att.clusters ∧
      (clusterOf (dropClusterPermits (complete (runs (qcmd 0x0F 0 0)) 0 x (qcmd 0x0F 0 0) { x.cl with finished := true }) 0) 1).finished = false) ∧
    (let m := model0 []; let m2 : Model := { m with prog := { m.prog with kind := 2 } };
      let s := { runs (qcmd 0x0D 0 1) with parts := { busy (att .run) with slots := [some m2, none, none, none] } :: live.parts.drop 1 };
      Issues s 0 0x0D (cx0 s) (qcmd 0x0D 0 1) ∧ (cx0 s).model.prog.kind = 2) ∧
    (let k := qcmd 0x0D 0 1; let x := cx0 (runs k); kvWaits x k = false ∧ kvWaits { x with part := { x.part with handed := [{ frame := 3, upto := 128, layer := some 0 }] } } k = true ∧
      0 + 512 ≤ 4194304) := by
  refine ⟨issues_sound (by decide +kernel), ⟨issues_sound (by decide +kernel), issues_sound (by decide +kernel)⟩, ⟨issues_sound (by decide +kernel), issues_sound (by decide +kernel), by decide +kernel⟩,
    by decide +kernel, ⟨issues_sound (by decide +kernel), by decide +kernel⟩, by decide +kernel⟩

/-- A SEND that no place is free for, with probes that have reached its rank. -/
def blocked (esc : Bool) (probed : Bool) (ps : List Probe) : State :=
  let k := { qcmd 5 0 2 with probed := probed }
  let s := routed k 0 (List.replicate 8 cmsg)
  let m := model0 []
  let m2 : Model := { m with prog := { m.prog with layouts := m.prog.layouts.map fun l =>
    { l with esc := List.replicate 128 { dest := 0, member := 0, ch := 3, port := 0, esc := 1 } } } }
  { s with parts := { busy { att .run with escape := esc } with slots := [some m2, none, none, none], probes := ps } :: live.parts.drop 1 }
/-- A probe of an origin at channel 3 of rank 0. -/
def probeAt (origin hops : Nat) : Probe := { rank := 0, ch := 3, origin := origin, originCh := 0, hops := hops }

theorem witness_ProbesAndNoRetire :
    (∀ e ∈ [true, false], ∀ b ∈ [probeAt 0 128, probeAt 0 129, probeAt 7 1], let s := blocked e true [b]; Live s ∧ (cxOf s 0).isSome = true ∧ (cx0 s).rank = 0 ∧
      (blockedSend s (cx0 s)).map (fun y => (y.1.probed, y.2.1)) = some (true, 0) ∧
      (cx0 s).att.escape = e ∧ originName s (cx0 s) 0 = 0 ∧ 16 * (cx0 s).lay.clusters * (cx0 s).part.items.groupSize = 128 ∧
      (chanOf (cx0 s).cl 3).msgs ≠ [] ∧ (chanOf (cx0 s).cl 3).binds = [] ∧ (takeProbe s 0 b).isSome = true ∧ takeProbe s 0 (probeAt 9 1) = none ∧
      (takeProbe s 0 b).map (fun u => (blockedSend u (cx0 s)).map fun y => (y.1.probed, y.2.1)) = some (some (true, 0))) ∧
    (let s := runs (qcmd 0x0F 0 0); let late := { s with boot := { s.boot with dtc := 10000000 } };
      blockedSend s (cx0 s) = none ∧ (cx0 s).cl.finished = false ∧ (cx0 s).cl.atCheap = none ∧ excused s 0 (cx0 s) = false ∧
      (cx0 s).cl.lastRetire + 10000000 ≤ late.boot.dtc ∧ s.boot.dtc < (cx0 s).cl.lastRetire + 10000000 ∧ (cxOf late 0).isSome = true) ∧
    (let s := runs { qcmd 1 3 1 with cmd := { cmd 1 3 1 with wait := 0xFFFF } }; let t := { s with gov := { s.gov with queue := [{ req := 0, cls := .array8, du := 11, at_ := 0, admitted := 0 }] } };
      excused t 0 (cx0 t) = true) := by
  simp only [Live]; decide +kernel

/-! ### Semaphores, frames, streams and scrub -/

/-- A semaphore 0 of an owner. -/
def sem0 (st : SemState) (owner value : Nat) : Sem := { id := 0, st := st, value := value, owner := owner, waiters := [] }
/-- Cluster 0 executes a semaphore command on semaphore 0 (count 1), with that semaphore. -/
def semState (op : Nat) (issued : Bool) (m : List Sem) : State :=
  let k := { qcmd op 65536 0 with issued := issued }
  { runs k with parts := { busy (att .run) with sems := m } :: live.parts.drop 1 }
/-- Rank 0 as a waiter. -/
def me (v : Option Nat) : SemWaiter := { member := 0, rank := 0, tag := 0, value := v }

theorem witness_SemaphoresCountAndLock :
    ∀ op ∈ [7, 8, 9, 10], ∀ i ∈ [true, false],
      ∀ m ∈ [[], [sem0 .broken 0 0], [sem0 .armed 0 0], [sem0 .armed 1 1], [sem0 .held 0 0], [sem0 .held 1 0],
        [{ sem0 .armed 0 0 with waiters := [me (some 1)] }], [{ sem0 .held 0 0 with waiters := [me none] }]],
      let s := semState op i m
      issues s op { qcmd op 65536 0 with issued := i } = true ∧ semOf (cx0 s).part 0 = m.head? ∧ rankTag s (cx0 s) = 0 ∧
      ownIndex s (cx0 s).part.items.groupSize = 0 := by decide +kernel
theorem witness_SemaphoresAcrossMembers :
    (∀ i ∈ [true, false], let k := { qcmd 9 65536 0 with issued := i }
      let s := { across (att .run) 1 with clusters := [cl0 k] }
      issues s 9 k = true ∧ semOf (cx0 s).part 0 = none ∧ ownIndex s (cx0 s).part.items.groupSize ≠ 0 ∧ k.issued = i) ∧
    (let k := qcmd 10 65536 0; let s := { across (att .run) 1 with clusters := [cl0 k] };
      let s := { s with parts := { partOf s 0 with sems := [sem0 .held (rankTag s (cx0 s)) 0] } :: live.parts.drop 1 };
      issues s 10 k = true ∧ (semOf (cx0 s).part 0).map (·.owner) = some (rankTag s (cx0 s)) ∧ ownIndex s (cx0 s).part.items.groupSize ≠ 0) ∧
    (let w : SemWaiter := { member := 1, rank := 2, tag := 3, value := none }; nextWaiter [w] = some w) ∧ 65534 + 1 ≤ 65535 ∧ 65535 < 65535 + 1 := by decide +kernel

/-- Frame 3 of partition 0, of a request's KV. -/
def frame3 (ok : Bool) (n : Nat) : Frame :=
  { no := 3, cls := .kv, owner := .stream 1 false, sealed := ok, written := n, digest := [], corrected := 0, unusable := false }
/-- Partition 0 with a frame. -/
def owning (f : Frame) (ps : List Permit) : State := withPermits { withPart part0 with frames := [f] } ps

theorem witness_FramesAreSealedAndScrubbed :
    (∀ f ∈ [frame3 false 128, { frame3 false 0 with owner := .model 0 }], let s := owning f [permit 395 4 .sinter]
      3 < nFrames s ∧ Live s ∧ frameOf s 3 = some f ∧ partOfFrame s 3 = some 0 ∧ stackOf s 3 = 3 ∧ holds s.gov (392 + 3) .sinter = true) ∧
    imageFrame (frame3 false 128).owner = false ∧ imageFrame (.model 0) = true ∧
    (∀ f ∈ [frame3 true 128, frame3 false 127], frameOf (owning f []) 3 = some f ∧ holds (owning f []).gov 395 .sinter = false) ∧
    (∀ ps ∈ [[], [permit 387 6 .hbmTrain, permit 388 6 .hbmTrain]], let s := owning (frame3 true 128) ps
      scrubNext s 3 = true ∧ scrubNext s 4 = true ∧ (frameEntry s 3).cls ≠ .free ∧ (frameEntry s 3).sealed = true ∧ (frameEntry s 4).cls = .free ∧
      stackOf s 4 = 4 ∧ holds s.gov (384 + 3) .hbmTrain = !ps.isEmpty ∧ holds s.gov (384 + 4) .hbmTrain = !ps.isEmpty ∧
      scrubNext { s with tele := { live.tele with scrubFront := [5] } } 3 = false) := by
  simp only [Live]; decide +kernel

/-- A frame of zeros. -/
def blank : Bytes := zeroBytes 65536
/-- Its digest, which no proof evaluates. -/
def blankDigest : Digest := sha256 blank
/-- A STREAM model that waits for the next layer, of one frame with the digest given, after some failed reads of it. -/
def streamer (d : Digest) (tries : List Nat) (stalled : Bool) : Model :=
  let m := model0 []
  { m with stream := true, ring := [0, 0xFFFF], nextLayer := 1, home := (1, 0, 65536), tries := tries, stalled := stalled
           tensors := m.tensors ++ [{ id := 10, layer := 1, fmt := 2, rows := 16, cols := 16, frame := 1, frames := 1, scaleGran := 0 }]
           layerDigests := [[], [d]], image := ascii "SWWI" ++ leBytes 2 1 ++ leBytes 2 2 }
/-- Partition 0 with it, its four frames, and permits. -/
def streaming (m : Model) (ps : List Permit) : State :=
  let f := fun n => { frame3 true 128 with no := n, owner := .model 0 }
  withPermits { serv with parts := { partM with slots := [some m, none, none, none] } :: live.parts.drop 1, frames := [f 0, f 1, f 2, f 3] } ps

theorem slice_whole (z : Bytes) (n : Nat) (h : z.length = n) : slice z 0 n = z := by
  subst h
  simp [slice]

/-- A read that gives a frame's bytes is good. -/
theorem frame_good {s : State} {m : Model} {z : Bytes} {d : Digest} (hz : z.length = 65536) (hw : winOk s 0 m.home.1 0 m.home.2.1 m.home.2.2 = true)
    (hd : (m.layerDigests.getD (m.nextLayer - m.resident) []).getD 0 [] = d) (h : d = sha256 z) : frameGood s m (some z) 0 = true := by
  subst h
  simp only [frameGood, hw, hd, Nat.mul_zero, slice_whole z _ hz, hz]
  simp

theorem blank_length : blank.length = 65536 := List.length_replicate

theorem streamer_digest (d : Digest) (ts : List Nat) (b : Bool) :
    ((streamer d ts b).layerDigests.getD ((streamer d ts b).nextLayer - (streamer d ts b).resident) []).getD 0 [] = d := rfl

theorem witness_LayersAreStreamed :
    modelAt (partOf (streaming (streamer blankDigest [2] false) []) 0) 0 = some (streamer blankDigest [2] false) ∧
    (∀ ps ∈ [[], [permit 395 4 .sinter]], let s := streaming (streamer blankDigest [2] false) ps
      s.flt.pkg = .serving ∧ s.host.linkUp = true ∧ mayStart (partOf s 0) 3 = true ∧ mayStart (partOf s 0) 1 = true ∧
      (streamer blankDigest [2] false).stream = true ∧ 0xFFFF ∈ (streamer blankDigest [2] false).ring ∧ streamFailed (streamer blankDigest [2] false) = false ∧
      halfFrames s 0 0 (streamer blankDigest [2] false) 1 = [3] ∧ runsHeld s [3] = !ps.isEmpty ∧ framesLeft (streamer blankDigest [2] false) = [0]) ∧
    frameGood (charge (charge (streaming (streamer blankDigest [2] false) [permit 395 4 .sinter]) 0 3 65536) 0 1 65536) (streamer blankDigest [2] false) (some blank) 0 = true ∧
    (streamFailed (streamer blankDigest [3] false) = true ∧ (streamer blankDigest [3] true).stalled = true ∧ (partOf (streaming (streamer blankDigest [3] false) []) 0).attempt = none) ∧
    (let s := withPart { busy (att .run) with slots := [some (streamer blankDigest [3] false), none, none, none] };
      Live s ∧ (partOf s 0).attempt = some (att .run) ∧ 0 ∈ invsOf (att .run).plan.rows) :=
  ⟨rfl, by decide +kernel, frame_good blank_length (by decide +kernel) (streamer_digest _ _ _) rfl, by decide +kernel, by simp only [Live]; decide +kernel⟩

/-- The worked example of R264: five streamed layers of 6,640 frames at a DMA rate of 1,000 B a tick take 2,175,795 ticks. -/
theorem test_stream_ticks :
    streamTicks live { Items.default with rates := [(0, 0), (0, 0), (0, 0), (1000, 1)] }
      { model0 [] with stream := true, resident := 67, image := zeroBytes 6 ++ leBytes 2 72
                       tensors := (List.range 5).map fun i => { id := i, layer := 67 + i, fmt := 2, rows := 16, cols := 16, frame := 0, frames := 6640, scaleGran := 0 } } =
      2175795 := by decide +kernel

/-- A conversion that is not a sequence's last record leaves the converted value for the next: 1 + 2^-20 becomes the BF16 value 1, and
1 × 1 is 1.0 in FP32 (R57, R213). -/
theorem test_vu_converts_in_sequence :
    (vuRun 1 [{ op := 0x0C, fmt := 2, dst := 2, src0 := 0, src1 := 0 }, { op := 2, fmt := 0, dst := 3, src0 := 2, src1 := 2 }] [0x3F800008#32] []).enc =
      [0x3F800000] := by decide +kernel

/-! ### Reset and the memory's form -/

theorem witness_EveryStepKeepsStoresCanonical :
    Memory.wf live = true ∧ (match step { live with pending := [Instr.smbusRead] } with | .next t => t.pending == [] | _ => false) = true := by decide +kernel

end Sys2Proof.Tests
end

section
/-! SUPPORT. A command stops only where a unit it names does not exist (log 2): what each of the rows' wrappers does with the
numbers it bounds, and from these what exec does with those of each command. -/

namespace Sys2Proof.Machine

/-! ### Frames the part does not have -/

/-- A command that names a frame beyond the part's faults, since no place of a stack has its address (R236, R237). -/
theorem onFrame_fault {s : State} {f : Nat} (t : Nat → State) (h : ¬ f < nFrames s) : onFrame s f t = .fault .noSuchUnit := by
  have e : (frameDpa f - 0x1000000000) / 65536 = f := by unfold frameDpa; omega
  have h1 : ¬ frameDpa f < 0x30000000 := by unfold frameDpa; omega
  have h2 : ¬ frameDpa f < 0x34000000 := by unfold frameDpa; omega
  have h3 : ¬ frameDpa f < 0x1000000000 := by unfold frameDpa; omega
  simp only [onFrame, placeOf, h1, h2, h3, e, h, if_false]
  split
  · next heq => split_ifs at heq; cases heq
  · rfl

/-! ### What stops on exactly some units -/

/-- Whether every unit number of a list is below its bound. -/
def unitsIn (us : List (Nat × Nat)) : Bool := us.all fun u => decide (u.1 < u.2)

theorem unitsExist_eq_unitsIn (i : Instr) (frames : Nat) : i.unitsExist frames = unitsIn (i.units frames) := rfl

/-- An answer that is a next state where every unit of the list exists, and the fault noSuchUnit otherwise. -/
def StopsExactlyOn (us : List (Nat × Nat)) (o : Out) : Prop :=
  (unitsIn us = true → ∃ t, o = .next t) ∧ (unitsIn us = false → o = .fault .noSuchUnit)

theorem stopsExactlyOn_next (t : State) : StopsExactlyOn [] (.next t) :=
  ⟨fun _ => ⟨t, rfl⟩, fun h => absurd h (by decide)⟩

/-- A bound checked before the rest of a command adds its unit to those the command stops on. -/
theorem StopsExactlyOn.bound {us : List (Nat × Nat)} {o : Out} (n b : Nat) (h : StopsExactlyOn us o) :
    StopsExactlyOn ((n, b) :: us) (if n < b then o else .fault .noSuchUnit) := by
  by_cases hn : n < b
  · simpa [StopsExactlyOn, unitsIn, hn] using h
  · simp [StopsExactlyOn, unitsIn, hn]

/-- The order in which the units are listed does not matter. -/
theorem StopsExactlyOn.swap {u v : Nat × Nat} {o : Out} (h : StopsExactlyOn [u, v] o) : StopsExactlyOn [v, u] o := by
  simpa only [StopsExactlyOn, unitsIn, List.all_cons, Bool.and_left_comm] using h

theorem stopsExactlyOn_inRange (n b : Nat) (t : State) : StopsExactlyOn [(n, b)] (inRange n b t) :=
  (stopsExactlyOn_next t).bound n b

theorem stopsExactlyOn_onFrame (s : State) (f : Nat) (t : Nat → State) : StopsExactlyOn [(f, nFrames s)] (onFrame s f t) := by
  by_cases h : f < nFrames s
  · simp [StopsExactlyOn, unitsIn, h, onFrame_next t h]
  · simp [StopsExactlyOn, unitsIn, h, onFrame_fault t h]

/-- A row of one unit that first checks the bound of a second. -/
theorem stopsExactlyOn_bound_inRange (n b m c : Nat) (t : State) :
    StopsExactlyOn [(n, b), (m, c)] (if m < c then inRange n b t else .fault .noSuchUnit) :=
  ((stopsExactlyOn_inRange n b t).bound m c).swap

/-- A replay waits while its partition may not start reads; its function is bounded all the same (R287). -/
theorem stopsExactlyOn_execReplayStart (fn : Nat) (via : Via) (capsule : ReadResult) (s : State) :
    StopsExactlyOn [(fn, 16)] (execReplayStart fn via capsule s) := by
  unfold execReplayStart
  split <;> exact stopsExactlyOn_inRange fn 16 _

/-- The reset of a VF bounds its number from both sides: function 0 is the PF (R337, R365). -/
theorem stopsExactlyOn_execFlrVf (n : Nat) (s : State) : StopsExactlyOn [(n, 16), (0, n)] (execFlrVf n s) := by
  have e : (1 ≤ n ∧ n ≤ 15) ↔ n < 16 ∧ 0 < n := by omega
  simp only [execFlrVf, e, ite_and]
  exact ((stopsExactlyOn_next _).bound 0 n).bound n 16

/-- The periodic close names no unit, whatever the state of the package. -/
theorem stopsExactlyOn_execLedgerClose (s : State) : StopsExactlyOn [] (execLedgerClose s) := by
  unfold execLedgerClose
  split <;> exact stopsExactlyOn_next _

/-- Every command stops on exactly the units it names; the cases are those of Instr.units, by the wrapper of each command's row. -/
theorem exec_stopsExactlyOn (i : Instr) (s : State) : StopsExactlyOn (i.units (nFrames s)) (exec i s) := by
  cases i with
  -- messages, doorbells and register accesses of a function
  | queueCreate | queueDelete | partitionCreate | partitionModify | partitionDisableDrain | partitionDisableAbort | modelLoad
  | modelUnload | linkSetGroup | linkSetPortEnable | linkSetPortDisable | linkSetPortRetrain | adapterRegister
  | adapterRetireDefer | adapterRetireForce | tenantSetCreate | tenantSetModify | tenantSetDelete | keyInstall | requestSubmit
  | requestCancel | convPark | convResume | convCondense | convDrop | capsuleExport | replayStatus
  | telemetryRead | accountingRead | pinmuxSet | powerLimitSet | fwActivate | recover | spdmTransport | invalidOpcode
  | mailboxDoorbell | sqEntryFetch | dtcLoRead | dtcHiRead | registerWrite | flrDmaDrained =>
    exact stopsExactlyOn_inRange _ 16 _
  | replayStart fn via capsule => exact stopsExactlyOn_execReplayStart fn via capsule s
  -- a queue or a vector of a function
  | sqTailWrite | cqHeadWrite => exact stopsExactlyOn_bound_inRange _ 16 _ 16 _
  | msixVectorUnmask | vectorHoldoffEnd => exact stopsExactlyOn_bound_inRange _ 16 _ 128 _
  | flrVf n => exact stopsExactlyOn_execFlrVf n s
  -- partitions
  | modelLoadDone | adapterRegisterDone | adapterFetchStart | adapterFetchDone | adapterEvictionDone | idleFreeze | stepSyncPlan
  | stepPlace | stepCommit | stepSyncRelease | stepKill | killComplete | stepSyncAbort | stepSyncTurn | turnPreempt
  | shelveCheapPointClean | shelveDone | shelveTimeout | shelveResume | drainTimeout | streamLayerSealed | streamStalled =>
    exact stopsExactlyOn_inRange _ 8 _
  | stepSyncReady port => exact (stopsExactlyOn_inRange _ 8 _).bound port 12
  -- clusters
  | maMac | amMac | vuOp | load | send | bind | semSignal | semWait | semAcquire | semRelease | routeLoad | cheapPoint | kvStage
  | sample | stepEnd | twinShadow | channelDelivery | probeLaunch | probe | noRetire => exact stopsExactlyOn_inRange _ 192 _
  -- ports and lanes
  | linkFlitReceived | nakResendTimeout | ackCreditTimer | tensorWrite | placeReturn | xpReduce | semRelay | mgmtForward | ident
  | ping | echo | ledger | ledgerSend | disableReq | disableAck | creditReclaimReq | creditReclaimAck | holdReceived
  | portStateDone | portStateTimeout | portDown | portDisableTimeout | peerLeavesHold => exact stopsExactlyOn_inRange _ 12 _
  | portLost => exact stopsExactlyOn_bound_inRange _ 12 _ 12 _
  | steer => exact stopsExactlyOn_bound_inRange _ 12 _ 4 _
  | laneFailure | laneRecalStart | laneRecalDone => exact stopsExactlyOn_bound_inRange _ 12 _ 5 _
  -- pins, watchdogs, dies, power domains, requesters, windows and frames
  | pinmuxArmed | hubWatchdog | vcoreHold | vcoreHoldRelease | domainUpDone | permitGranted | windowValidSet | windowValidClear =>
    exact stopsExactlyOn_inRange _ _ _
  | sinterFrameSealed | scrubRead => exact stopsExactlyOn_onFrame s _ _
  -- no unit
  | ledgerClose => exact stopsExactlyOn_execLedgerClose s
  | fwActivateQuiesced | fwActivateTimeout | recoveryVerifyDone | recoveryTestDone | logClear | partitionReset | smbusPointer
  | smbusRead | jtagDebugUnlock | jtagExtest | pwrGoodRise | pllLock | pllLockTimeout | fwImageLoaded | hbmTrainingDone
  | bistDone | katDone | stageTimeout | coldReset | perstNAssert | perstNDeassert | pcieLinkDown | pcieLinkUp | pcieHotReset
  | flrPf | throttleNAssert | throttleNDeassert | stepSyncArmed | stepSyncCandidate | stepSyncMark | stepSyncOutPulse | syncLost
  | dtcSlew | thermalSample | thermalTripClear | vcoreRequestUpdate | powerGovernorTick | cidxPoll | cidxReadDone | ringIrqTicks
  | idleAction | parkExpiry | parkComplete | parkAbandon | resumeComplete | resumeFail | dmaReadCompletion
  | completionBarrierDone | doubtContained | doubtUncontained | candidateDiscarded | flashPersistDone =>
    exact stopsExactlyOn_next _

/-- Settles O3: exec stops on exactly the units of the command, case by case along Instr.units. -/
theorem commandsStopOnlyOnMissingUnits : Obligations.CommandsStopOnlyOnMissingUnits := by
  unfold Obligations.CommandsStopOnlyOnMissingUnits
  intro i s
  rw [unitsExist_eq_unitsIn]
  exact exec_stopsExactlyOn i s

end Sys2Proof.Machine
end

section
/-! SUPPORT. The doorbell page (R355): what a written SQ_TAIL or CQ_HEAD does to an existing queue, and that a 4-byte write into
the page is the write of the count at its offset. -/

namespace Sys2Proof.Machine

/-- A function takes register writes: it is enabled and not in reset (R346, R366). -/
def TakesWrites (s : State) (fn : Nat) : Prop := fnEnabled s fn = true ∧ (fnOf s fn).flr = none

theorem exec_sqTailWrite {s : State} {fn q : Nat} (value : Nat) (hf : fn < 16) (hq : q < 16) (hl : Live s) :
    exec (.sqTailWrite fn q value) s = .next (sqTail s fn q value) := by
  change execSqTailWrite fn q value s = _
  rw [execSqTailWrite, if_pos hq, inRange_next _ hf, guarded_live _ hl]

theorem exec_cqHeadWrite {s : State} {fn q : Nat} (value : Nat) (hf : fn < 16) (hq : q < 16) (hl : Live s) :
    exec (.cqHeadWrite fn q value) s = .next (cqHead s fn q value) := by
  change execCqHeadWrite fn q value s = _
  rw [execCqHeadWrite, if_pos hq, inRange_next _ hf, guarded_live _ hl]

theorem sqTail_of_exists {s : State} {fn q : Nat} {x : Sq} (value : Nat) (ht : TakesWrites s fn) (hx : sqOf s fn q = some x) :
    sqTail s fn q value =
      if dist32 value x.head ≤ 2 ^ x.log2 ∧ dist32 x.tail x.head ≤ dist32 value x.head then
        updSq s fn q fun y => { y with tail := value % 2 ^ 32 }
      else { s with host := { s.host with sqTailInvalid := satAdd 64 s.host.sqTailInvalid 1 } } := by
  obtain ⟨he, hr⟩ := ht
  simp [sqTail, he, hr, hx]

theorem cqHead_of_exists {s : State} {fn q : Nat} {x : Cq} (value : Nat) (ht : TakesWrites s fn) (hx : cqOf s fn q = some x) :
    cqHead s fn q value =
      if dist32 value x.head ≤ dist32 x.pidx x.head then updCq s fn q fun y => { y with head := value % 2 ^ 32 }
      else { s with host := { s.host with cqHeadInvalid := satAdd 64 s.host.cqHeadInvalid 1 } } := by
  obtain ⟨he, hr⟩ := ht
  simp [cqHead, he, hr, hx]

/-! ### Offsets of the page -/

/-- The doorbell page lies beyond the whole mailbox page (Table HST-3). -/
theorem mailbox_before_doorbells (fn : Nat) : (bar0Bases fn).1 + 0x1000 ≤ (bar0Bases fn).2.1 := by
  unfold bar0Bases; split <;> decide

/-- The doorbell page is aligned to 4 bytes (Table HST-3). -/
theorem doorbells_aligned (fn : Nat) : (bar0Bases fn).2.1 % 4 = 0 := by
  unfold bar0Bases; split <;> decide

/-- A 4-byte write into the doorbell page of a live package meets the count at its offset. -/
theorem bar0Word_doorbell {s : State} {fn k : Nat} (bs : Bytes) (hl : Live s) (hk : k < 0x1000) :
    bar0Word s fn ((bar0Bases fn).2.1 + k) bs = bellWord s fn k (leNat bs) := by
  have hm := mailbox_before_doorbells fn
  have hpkg : (s.flt.pkg == PkgState.uncontained) = false := by simpa [Live] using hl
  have h1 : ¬ (bar0Bases fn).2.1 + k < (bar0Bases fn).1 + 0x40 := by omega
  have h2 : ¬ (bar0Bases fn).2.1 + k < (bar0Bases fn).1 + 0x1000 := by omega
  simp [bar0Word, hpkg, h1, h2, hk]

/-- A 4-byte write by REGISTER_WRITE into the doorbell page is the write of the count at its offset. -/
theorem exec_registerWrite_doorbell {s : State} {fn k : Nat} {bs : Bytes} (hf : fn < 16) (hl : Live s) (ht : TakesWrites s fn)
    (hk : k < 0x1000) (ha : k % 4 = 0) (hb : bs.length = 4) :
    exec (.registerWrite fn .bar0 ((bar0Bases fn).2.1 + k) bs) s = .next (bellWord s fn k (leNat bs)) := by
  obtain ⟨he, hr⟩ := ht
  have hm := mailbox_before_doorbells fn
  have hd := doorbells_aligned fn
  have hcmd : ¬ (bar0Bases fn).2.1 + k + 4 ≤ (bar0Bases fn).1 + 0x40 := by omega
  have hword : ((bar0Bases fn).2.1 + k) % 4 = 0 := by omega
  change execRegisterWrite fn .bar0 _ bs s = _
  rw [execRegisterWrite, inRange_next _ hf]
  simp [he, hr, hb, hcmd, hword, bar0Word_doorbell bs hl hk]

theorem bellWord_sqTail (s : State) (fn : Nat) {q : Nat} (value : Nat) (hq : q < 16) :
    bellWord s fn (8 * q) value = sqTail s fn q value := by
  have h : 8 * q < 128 := by omega
  simp [bellWord, h]

theorem bellWord_cqHead (s : State) (fn : Nat) {q : Nat} (value : Nat) (hq : q < 16) :
    bellWord s fn (8 * q + 4) value = cqHead s fn q value := by
  have h : 8 * q + 4 < 128 := by omega
  have hr : (8 * q + 4) % 8 = 4 := by omega
  have hd : (8 * q + 4) / 8 = q := by omega
  simp [bellWord, h, hr, hd]

/-- Settles O7: both counts by their queue's rule, and the doorbell page by its offsets. -/
theorem doorbellPageValidity : Obligations.DoorbellPageValidity := by
  unfold Obligations.DoorbellPageValidity
  intro s fn q value hf hq hl he hr
  have ht : TakesWrites s fn := ⟨he, hr⟩
  refine ⟨fun x hx => ?_, fun x hx => ?_, fun bs hb => ⟨?_, ?_⟩⟩
  · rw [exec_sqTailWrite value hf hq hl, sqTail_of_exists value ht hx]
    rfl
  · rw [exec_cqHeadWrite value hf hq hl, cqHead_of_exists value ht hx]
    rfl
  · rw [exec_registerWrite_doorbell hf hl ht (by omega) (by omega) hb, bellWord_sqTail s fn _ hq, exec_sqTailWrite _ hf hq hl]
  · rw [Nat.add_assoc, exec_registerWrite_doorbell hf hl ht (by omega) (by omega) hb, bellWord_cqHead s fn _ hq,
      exec_cqHeadWrite _ hf hq hl]

end Sys2Proof.Machine
end

section
/-! SUPPORT. The effective budget (R409, R410, R421, R422): where B_eff lies between the bounds it is the least of, that a
governor tick records it, and what POWER_LIMIT_SET answers. -/

namespace Sys2Proof.Machine

/-! ### The least of the bounds -/

theorem bEff_of_throttle {s : State} (h : s.pins.throttle = true) : bEff s = min (min (bLimit s) (bThermal s)) (bLimit s / 4) := by
  simp [bEff, h]

theorem bEff_of_no_throttle {s : State} (h : s.pins.throttle = false) : bEff s = min (bLimit s) (bThermal s) := by
  simp [bEff, h]

/-- B_eff is a lower bound of the limit, the thermal budget and, under THROTTLE_N, a quarter of the limit, and one of them (R410). -/
theorem bEff_isLeast (s : State) :
    bEff s ≤ bLimit s ∧ bEff s ≤ bThermal s ∧ (s.pins.throttle = true → bEff s ≤ bLimit s / 4) ∧
      (bEff s = bLimit s ∨ bEff s = bThermal s ∨ s.pins.throttle = true ∧ bEff s = bLimit s / 4) := by
  cases h : s.pins.throttle with
  | true =>
    rw [bEff_of_throttle h]
    exact ⟨by omega, by omega, fun _ => by omega, by simp only [true_and]; omega⟩
  | false =>
    rw [bEff_of_no_throttle h]
    exact ⟨by omega, by omega, nofun, (min_choice _ _).imp_right .inl⟩

/-! ### What a governor tick records -/

@[simp] theorem govAsk_bEffLast (g : Gov) (req : Nat) (cls : PClass) (du now : Nat) : (govAsk g req cls du now).bEffLast = g.bEffLast := by
  unfold govAsk; split <;> rfl

@[simp] theorem revokeOne_bEffLast (g : Gov) (now : Nat) (p : Permit) : (revokeOne g now p).bEffLast = g.bEffLast :=
  govAsk_bEffLast _ _ _ _ _

@[simp] theorem revokeTo_bEffLast (b now n : Nat) (g : Gov) : (revokeTo b now n g).bEffLast = g.bEffLast := by
  induction n generalizing g with
  | zero => rfl
  | succ n ih =>
    unfold revokeTo
    split
    · rfl
    · split
      · rfl
      · rw [ih, revokeOne_bEffLast]

@[simp] theorem revoke_bEffLast (g : Gov) (b now : Nat) : (revoke g b now).bEffLast = g.bEffLast := by
  unfold revoke
  split
  · rfl
  · exact revokeTo_bEffLast _ _ _ _

@[simp] theorem enqueue_bEffLast (g : Gov) : (enqueue g).bEffLast = g.bEffLast := rfl

@[simp] theorem grant_bEffLast (g : Gov) (now : Nat) : (grant g now).bEffLast = g.bEffLast := rfl

/-- A governor tick evaluates B_eff anew and keeps it; neither revoking nor admitting touches it (R410, R413, R417). -/
theorem govTick_bEffLast (s : State) : (govTick s).bEffLast = bEff s := by
  unfold govTick
  extract_lets b now old base g a
  have hg : g.bEffLast = b := (enqueue_bEffLast _).trans (revoke_bEffLast base b now)
  split
  · exact hg
  · exact (grant_bEffLast _ _).trans hg

theorem exec_powerGovernorTick_gov {s : State} (hl : Live s) : ∃ t, exec .powerGovernorTick s = .next t ∧ t.gov = govTick s := by
  change ∃ t, execPowerGovernorTick s = .next t ∧ _
  rw [execPowerGovernorTick, guarded_live _ hl]
  exact ⟨_, rfl, rfl⟩

/-! ### POWER_LIMIT_SET -/

/-- Taking a message leaves B_limit, which is the part's and LIMIT_W's alone, as it is. -/
theorem bLimit_took (s : State) (fn : Nat) (via : Via) (cmd : Bytes) (g : Gov) :
    bLimit { took s fn via cmd with gov := g } = bLimit { s with gov := g } := by
  simp only [bLimit, took_boot]

/-- An accepted POWER_LIMIT_SET whose body is LIMIT_W alone, within its range, sets it and reports B_limit under it (R409). -/
theorem exec_powerLimitSet {s : State} {fn : Nat} {via : Via} {cmd : Bytes} (ha : Accepts s fn via cmd) (hop : rd cmd 0 2 = 0x0081)
    (hz : bodyZero cmd [(8, 2)] = true) (hlo : 800 ≤ rd cmd 8 2) (hhi : rd cmd 8 2 ≤ 2000) :
    let g := { s.gov with limitW := rd cmd 8 2 }
    exec (.powerLimitSet fn via) s = .next (respond { took s fn via cmd with gov := g }
      (askCtx s fn via cmd) .success (leBytes 4 (bLimit { s with gov := g }))) := by
  have hr : isOp 0x0081 cmd = true := by simp [isOp, hop]
  have hok : (!bodyZero cmd [(8, 2)] || !decide (800 ≤ rd cmd 8 2 ∧ rd cmd 8 2 ≤ 2000)) = false := by simp [hz, hlo, hhi]
  change execPowerLimitSet fn via s = _
  rw [execPowerLimitSet, msgRow_accepts _ ha hr]
  simp only [ask_cmd, ask_ctx, took_gov, hok, Bool.false_eq_true, if_false, bLimit_took]

/-- Settles O29: the bounds of B_eff, its record by the governor tick, and the answer to POWER_LIMIT_SET. -/
theorem effectiveBudgetIsTheLeast : Obligations.EffectiveBudgetIsTheLeast := by
  unfold Obligations.EffectiveBudgetIsTheLeast
  intro s
  refine ⟨bEff_isLeast s, fun hl => ?_, fun fn via cmd ha hop hz hlo hhi => ?_⟩
  · obtain ⟨t, ht, hg⟩ := exec_powerGovernorTick_gov hl
    exact ⟨t, ht, by rw [hg, govTick_bEffLast]⟩
  · exact exec_powerLimitSet ha hop hz hlo hhi

end Sys2Proof.Machine
end

section
/-! SUPPORT. One DTC tick (log 1): what clockTick does to each regulator and each cluster, and where the rest of a tick has
nothing to do. -/

namespace Sys2Proof.Machine

/-! ### The tick of a step -/

theorem step_of_empty_queue {s : State} (h : s.pending = []) : step s = .next (tick s) := by simp [step, h]

theorem tick_before_lock {s : State} (h : s.boot.pllLocked = false) : tick s = s := by simp [tick, h]

theorem tick_harmless {s : State} (hp : s.boot.pllLocked = true) (hs : s.flt.pkg ≠ .serving) : tick s = clockTick s := by
  have hk : (clockTick s).flt.pkg ≠ .serving := hs
  simp [tick, hp, hk]

theorem tick_serving {s : State} (hp : s.boot.pllLocked = true) (hs : s.flt.pkg = .serving) :
    tick s = announceAll ((List.range 8).foldl settleDrain (sinterTick (startPorts (clockTick s)))) := by
  have hk : (clockTick s).flt.pkg = .serving := hs
  simp [tick, hp, hk]

/-! ### The clocks -/

/-- A regulator's level after a tick, beside its rate and burst (R287). -/
theorem partTick_level {x : Part} {k rate burst : Nat} {lv : Int} (hr : x.items.rates[k]? = some (rate, burst)) (hv : x.levels[k]? = some lv) :
    (partTick x).levels[k]? = some (if rate = 0 then lv else min (lv + rate) burst) := by
  have hz : (x.items.rates.zip x.levels)[k]? = some ((rate, burst), lv) := List.getElem?_zip_eq_some.mpr ⟨hr, hv⟩
  simp [partTick, hz, levelTick]

/-- A tick moves the start of a cluster's no-retire clock by one where its wait is excused, and changes nothing else of it (R225, R288). -/
theorem clusterTick_shift (s : State) (cl : Cluster) : ∃ k, clusterTick s cl = { cl with lastRetire := cl.lastRetire + k } ∧ k ≤ 1 ∧
    (k = 1 ↔ ∃ x, cxOf s cl.no = some x ∧ excused s cl.no x = true) := by
  unfold clusterTick
  cases hx : cxOf s cl.no with
  | none => exact ⟨0, rfl, by omega, by simp⟩
  | some x =>
    cases he : excused s cl.no x with
    | false => exact ⟨0, by simp [he], by omega, by simp [he]⟩
    | true => exact ⟨1, by simp [he], by omega, by simp [he]⟩

theorem clockTick_part {s : State} {p : Nat} {x : Part} (h : s.parts[p]? = some x) : (clockTick s).parts[p]? = some (partTick x) := by
  simp [clockTick, h]

theorem clockTick_cluster {s : State} {i : Nat} {cl : Cluster} (h : s.clusters[i]? = some cl) :
    (clockTick s).clusters[i]? = some (clusterTick s cl) := by
  simp [clockTick, h]

@[simp] theorem partTick_reset : partTick Part.reset = Part.reset := rfl

/-- A tick is the tick of each partition number, of one that the list does not hold too. -/
@[simp] theorem partOf_clockTick (s : State) (p : Nat) : partOf (clockTick s) p = partTick (partOf s p) := by
  have h := List.getD_map (l := s.parts) (n := p) (d := Part.reset) partTick
  rwa [partTick_reset] at h

@[simp] theorem spans_clockTick (s : State) (p : Nat) : spans (clockTick s) p = spans s p := by
  simp [spans, partTick]

/-! ### A tick with no background work -/

/-- A fold whose every step leaves the state alone leaves it alone. -/
theorem foldl_eq_self {α : Type} {f : State → α → State} {l : List α} {s : State} (h : ∀ a ∈ l, f s a = s) : l.foldl f s = s :=
  List.foldlRecOn (motive := (· = s)) l f rfl fun _ ht a ha => ht ▸ h a ha

theorem startPorts_idle {s : State} (h : ∀ n, n < 12 → (portOf s n).startAt = none) : startPorts s = s :=
  foldl_eq_self fun n hn => by simp [startPort, h n (List.mem_range.mp hn)]

/-- Stacks whose Sinter Engine holds no permit write nothing (R244, R248). -/
theorem sinterTick_idle {s : State} (h : ∀ n, n < 8 → holds s.gov (392 + n) .sinter = false) : sinterTick s = s :=
  foldl_eq_self fun n hn => by
    have hs := nStacks_le s
    have hn := List.mem_range.mp hn
    simp [sinterStack, h n (by omega)]

theorem settleDrains_idle {s : State} (h : ∀ p, p < 8 → (partOf s p).disable = none) : (List.range 8).foldl settleDrain s = s :=
  foldl_eq_self fun p hp => by simp [settleDrain, h p (List.mem_range.mp hp)]

/-- Partitions that span no other member and of which nothing was told tell nothing (log 24). -/
theorem announceAll_idle {s : State} (hs : ∀ p, p < 8 → spans s p = false) (ht : ∀ p, p < 8 → told s s.group.index p .part 0 = none) :
    announceAll s = s :=
  foldl_eq_self fun p hp => by
    have hp := List.mem_range.mp hp
    simp [announcePart, hs p hp, ht p hp]

/-- Where no port waits to start, no Sinter run holds its permit, no partition is being disabled and none spans members or was
told of, a tick is that of the clocks. -/
theorem tick_idle {s : State} (hl : s.boot.pllLocked = true) (hport : ∀ n, n < 12 → (portOf s n).startAt = none)
    (hsinter : ∀ h, h < 8 → holds s.gov (392 + h) .sinter = false)
    (hdrain : ∀ p, p < 8 → (partOf s p).disable = none) (hspan : ∀ p, p < 8 → spans s p = false)
    (htold : ∀ p, p < 8 → told s s.group.index p .part 0 = none) : tick s = clockTick s := by
  by_cases hs : s.flt.pkg = .serving
  · have hports : startPorts (clockTick s) = clockTick s := startPorts_idle hport
    have hruns : sinterTick (clockTick s) = clockTick s := sinterTick_idle hsinter
    have hdrains : (List.range 8).foldl settleDrain (clockTick s) = clockTick s :=
      settleDrains_idle fun p hp => by rw [partOf_clockTick]; exact hdrain p hp
    have hnotices : announceAll (clockTick s) = clockTick s :=
      announceAll_idle (fun p hp => by rw [spans_clockTick]; exact hspan p hp) htold
    rw [tick_serving hl hs, hports, hruns, hdrains, hnotices]
  · exact tick_harmless hl hs

/-- Settles O2: the clocks of a tick unit by unit, and the rest of it by the state of the package. -/
theorem emptyQueueIsOneTick : Obligations.EmptyQueueIsOneTick := by
  unfold Obligations.EmptyQueueIsOneTick
  intro s hq
  rw [step_of_empty_queue hq]
  refine ⟨fun hl => by rw [tick_before_lock hl], fun hl => ⟨⟨rfl, rfl, rfl, ?_, ?_, fun p x hx => ?_, fun i cl hc => ?_⟩, fun hs => ?_,
    fun hs => ?_, fun hport hsinter hpart => ?_⟩⟩
  · simp [clockTick]
  · simp [clockTick]
  · exact ⟨partTick x, clockTick_part hx, rfl, fun k rate burst lv hr hv => partTick_level hr hv⟩
  · obtain ⟨k, hk, hle, hiff⟩ := clusterTick_shift s cl
    exact ⟨k, hk ▸ clockTick_cluster hc, hle, hiff⟩
  · rw [tick_harmless hl hs]
  · rw [tick_serving hl hs]
  · rw [tick_idle hl hport hsinter (fun p hp => (hpart p hp).1) (fun p hp => (hpart p hp).2.1) fun p hp => (hpart p hp).2.2]

end Sys2Proof.Machine
end

section
/-! SUPPORT. UNCONTAINED (R436): a command behind a guard does nothing there, and whatever still acts issues nothing and leaves the
package where it is. -/

namespace Sys2Proof.Machine

/-! ### Commands that do nothing in UNCONTAINED -/

/-- An answer with no next state but s: the command leaves s as it is, or faults. -/
def Inert (s : State) (o : Out) : Prop := ∀ t, o = .next t → t = s

theorem inert_next (s : State) : Inert s (.next s) := fun _ h => (Host.Outcome.next.inj h).symm

theorem inert_fault (s : State) (f : Fault) : Inert s (.fault f) := fun t h => by simp at h

/-- A bound checked before the rest of a command adds no next state. -/
theorem Inert.bound {s : State} {o : Out} (p : Prop) [Decidable p] (h : Inert s o) : Inert s (if p then o else .fault .noSuchUnit) := by
  split
  · exact h
  · exact inert_fault s _

theorem inert_guarded {s : State} (t : State) (h : s.flt.pkg = .uncontained) : Inert s (.next (guarded s t)) := by
  rw [guarded_uncontained t h]
  exact inert_next s

theorem inert_inRange {s : State} (n b : Nat) (t : State) (h : s.flt.pkg = .uncontained) : Inert s (inRange n b (guarded s t)) :=
  (inert_guarded t h).bound (n < b)

theorem inert_bound_inRange {s : State} (p : Prop) [Decidable p] (n b : Nat) (t : State) (h : s.flt.pkg = .uncontained) :
    Inert s (if p then inRange n b (guarded s t) else .fault .noSuchUnit) :=
  (inert_inRange n b t h).bound p

theorem inert_onFrame {s : State} (f : Nat) (t : Nat → State) (h : s.flt.pkg = .uncontained) :
    Inert s (onFrame s f fun k => guarded s (t k)) := by
  unfold onFrame
  split
  · exact inert_guarded _ h
  · exact inert_fault s _

/-- A command about a request acts in SERVING only (R428). -/
theorem inert_reqRow {s : State} (n : Nat) (f : Req → State) (h : s.flt.pkg = .uncontained) : Inert s (reqRow s n f) := by
  rw [reqRow, h]
  exact inert_next s

theorem inert_execReplayStart {s : State} (fn : Nat) (via : Via) (capsule : ReadResult) (h : s.flt.pkg = .uncontained) :
    Inert s (execReplayStart fn via capsule s) := by
  unfold execReplayStart
  split
  · exact inert_inRange fn 16 _ h
  · exact (inert_next s).bound (fn < 16)

theorem inert_execLedgerClose {s : State} (h : s.flt.pkg = .uncontained) : Inert s (execLedgerClose s) := by
  rw [execLedgerClose, h]
  exact inert_next s

/-- A write to BAR2 or to configuration space has no effect in UNCONTAINED (R488). -/
theorem inert_registerWrite {s : State} (fn off : Nat) {bar : BarSel} (bs : Bytes) (hb : bar ≠ .bar0) (h : s.flt.pkg = .uncontained) :
    Inert s (execRegisterWrite fn bar off bs s) := by
  cases bar with
  | bar0 => exact absurd rfl hb
  | cfg | bar2 => exact inert_inRange fn 16 _ h

theorem dtcReset_uncontained {s : State} (t : State) (h : s.flt.pkg = .uncontained) :
    dtcReset s t = { s with host := { s.host with readData := 0 } } := by
  simp [dtcReset, h]

/-- The commands that still act on a package in UNCONTAINED: resets and their pins, the boot that follows a reset, BAR0 writes,
DTC reads, SMBus and boundary scan (R436, R488). -/
inductive ActsUncontained : Instr → Prop
  | coldReset : ActsUncontained .coldReset
  | perstNAssert : ActsUncontained .perstNAssert
  | perstNDeassert : ActsUncontained .perstNDeassert
  | pcieHotReset : ActsUncontained .pcieHotReset
  | pwrGoodRise : ActsUncontained .pwrGoodRise
  | pllLock (dir0 dir1 : ReadResult) : ActsUncontained (.pllLock dir0 dir1)
  | pllLockTimeout : ActsUncontained .pllLockTimeout
  | fwImageLoaded (slotA slotB : ReadResult) : ActsUncontained (.fwImageLoaded slotA slotB)
  | mailboxDoorbell (fn value : Nat) : ActsUncontained (.mailboxDoorbell fn value)
  | registerWrite (fn off : Nat) (bs : Bytes) : ActsUncontained (.registerWrite fn .bar0 off bs)
  | partitionReset (value : Nat) : ActsUncontained (.partitionReset value)
  | dtcLoRead (fn : Nat) : ActsUncontained (.dtcLoRead fn)
  | dtcHiRead (fn : Nat) : ActsUncontained (.dtcHiRead fn)
  | smbusPointer (ptr : Nat) : ActsUncontained (.smbusPointer ptr)
  | smbusRead : ActsUncontained .smbusRead
  | jtagExtest (levels : List Bool) : ActsUncontained (.jtagExtest levels)

/-- Every other command does nothing in UNCONTAINED; the cases are those of Instr.units, by the guard of each command's row. -/
theorem exec_inert_of_uncontained (i : Instr) {s : State} (h : s.flt.pkg = .uncontained) : ActsUncontained i ∨ Inert s (exec i s) := by
  cases i with
  | coldReset | perstNAssert | perstNDeassert | pcieHotReset | pwrGoodRise | pllLock | pllLockTimeout | fwImageLoaded
  | mailboxDoorbell | partitionReset | dtcLoRead | dtcHiRead | smbusPointer | smbusRead | jtagExtest => exact .inl (by constructor)
  | registerWrite fn bar off bs =>
    by_cases hb : bar = .bar0
    · subst hb
      exact .inl (.registerWrite fn off bs)
    · exact .inr (inert_registerWrite fn off bs hb h)
  -- messages and reads of a function
  | queueCreate | queueDelete | partitionCreate | partitionModify | partitionDisableDrain | partitionDisableAbort | modelLoad
  | modelUnload | linkSetGroup | linkSetPortEnable | linkSetPortDisable | linkSetPortRetrain | adapterRegister
  | adapterRetireDefer | adapterRetireForce | tenantSetCreate | tenantSetModify | tenantSetDelete | keyInstall | requestSubmit
  | requestCancel | convPark | convResume | convCondense | convDrop | capsuleExport | replayStatus
  | telemetryRead | accountingRead | pinmuxSet | powerLimitSet | fwActivate | recover | spdmTransport | invalidOpcode
  | sqEntryFetch | flrDmaDrained => exact .inr (inert_inRange _ 16 _ h)
  | replayStart fn via capsule => exact .inr (inert_execReplayStart fn via capsule h)
  -- partitions
  | modelLoadDone | adapterRegisterDone | adapterFetchStart | adapterFetchDone | adapterEvictionDone | idleFreeze | stepSyncPlan
  | stepPlace | stepCommit | stepSyncRelease | stepKill | killComplete | stepSyncAbort | stepSyncTurn | turnPreempt
  | shelveCheapPointClean | shelveDone | shelveTimeout | shelveResume | drainTimeout | streamLayerSealed | streamStalled =>
    exact .inr (inert_inRange _ 8 _ h)
  -- clusters
  | maMac | amMac | vuOp | load | send | bind | semSignal | semWait | semAcquire | semRelease | routeLoad | cheapPoint | kvStage
  | sample | stepEnd | twinShadow | channelDelivery | probeLaunch | probe | noRetire => exact .inr (inert_inRange _ 192 _ h)
  -- ports
  | linkFlitReceived | nakResendTimeout | ackCreditTimer | tensorWrite | placeReturn | xpReduce | semRelay | mgmtForward | ident
  | ping | echo | ledger | ledgerSend | disableReq | disableAck | creditReclaimReq | creditReclaimAck | holdReceived
  | portStateDone | portStateTimeout | portDown | portDisableTimeout | peerLeavesHold => exact .inr (inert_inRange _ 12 _ h)
  -- pins, watchdogs, dies, power domains, requesters, windows and frames
  | pinmuxArmed | hubWatchdog | vcoreHold | vcoreHoldRelease | domainUpDone | permitGranted | windowValidSet | windowValidClear =>
    exact .inr (inert_inRange _ _ _ h)
  | sinterFrameSealed | scrubRead => exact .inr (inert_onFrame _ _ h)
  -- two bounds: a queue or a vector of a function, a partition or another port beside a port, a lane
  | sqTailWrite | cqHeadWrite | msixVectorUnmask | vectorHoldoffEnd | stepSyncReady | portLost | steer | laneFailure
  | laneRecalStart | laneRecalDone => exact .inr (inert_bound_inRange _ _ _ _ h)
  | flrVf => exact .inr ((inert_guarded _ h).bound _)
  -- requests
  | idleAction | parkExpiry | parkComplete | parkAbandon | resumeComplete | resumeFail => exact .inr (inert_reqRow _ _ h)
  -- no unit
  | ledgerClose => exact .inr (inert_execLedgerClose h)
  | fwActivateQuiesced | fwActivateTimeout | recoveryVerifyDone | recoveryTestDone | logClear | jtagDebugUnlock | hbmTrainingDone
  | bistDone | katDone | stageTimeout | pcieLinkDown | pcieLinkUp | flrPf | throttleNAssert | throttleNDeassert | stepSyncArmed
  | stepSyncCandidate | stepSyncMark | stepSyncOutPulse | syncLost | dtcSlew | thermalSample | thermalTripClear
  | vcoreRequestUpdate | powerGovernorTick | cidxPoll | cidxReadDone | ringIrqTicks | dmaReadCompletion | completionBarrierDone
  | doubtContained | doubtUncontained | candidateDiscarded | flashPersistDone => exact .inr (inert_guarded _ h)

/-- A command whose units exist and that has no next state but s answers s. -/
theorem Inert.exec_eq {i : Instr} {s : State} (h : Inert s (exec i s)) (hu : i.unitsExist (nFrames s) = true) : exec i s = .next s := by
  obtain ⟨t, ht⟩ := (commandsStopOnlyOnMissingUnits i s).1 hu
  rw [ht, h t ht]

/-- A DTC read of a function in UNCONTAINED returns the reset value (R436; log 84). -/
theorem exec_dtcRead_uncontained {i : Instr} {s : State} {fn : Nat} (hi : i = .dtcLoRead fn ∨ i = .dtcHiRead fn)
    (h : s.flt.pkg = .uncontained) (hf : fn < 16) : exec i s = .next { s with host := { s.host with readData := 0 } } := by
  obtain rfl | rfl := hi <;> exact (inRange_next _ hf).trans (congrArg _ (dtcReset_uncontained _ h))

theorem lt_of_unitsExist {n b : Nat} {i : Instr} {frames : Nat} (hi : i.units frames = [(n, b)]) (hu : i.unitsExist frames = true) :
    n < b := by
  simpa [Instr.unitsExist, hi] using hu

/-- Settles O4: a command that does not act in UNCONTAINED is inert there, and the others are those listed. -/
theorem uncontainedCommandsDoNothing : Obligations.UncontainedCommandsDoNothing := by
  unfold Obligations.UncontainedCommandsDoNothing
  intro i s h hu
  obtain ha | hi := exec_inert_of_uncontained i h
  · right
    cases ha with
    | dtcLoRead fn => simp [exec_dtcRead_uncontained (.inl rfl) h (lt_of_unitsExist (n := fn) rfl hu)]
    | dtcHiRead fn => simp [exec_dtcRead_uncontained (.inr rfl) h (lt_of_unitsExist (n := fn) rfl hu)]
    | _ => simp
  · exact .inl (hi.exec_eq hu)

/-! ### Nothing is issued in UNCONTAINED -/

/-- From a package in UNCONTAINED to one still there, with the same writes on the bus and held, and the same reads and barriers in
flight (R436). -/
def StaysSilent (s t : State) : Prop :=
  s.flt.pkg = .uncontained → t.flt.pkg = .uncontained ∧ t.host.bus = s.host.bus ∧ t.host.held = s.host.held ∧
    t.host.reads = s.host.reads ∧ t.host.barriers = s.host.barriers

theorem staysSilent_refl (s : State) : StaysSilent s s := fun h => ⟨h, rfl, rfl, rfl, rfl⟩

theorem StaysSilent.trans {s t u : State} (hst : StaysSilent s t) (htu : StaysSilent t u) : StaysSilent s u := by
  intro h
  obtain ⟨ht, hbus, hheld, hreads, hbarriers⟩ := hst h
  obtain ⟨hu, hbus', hheld', hreads', hbarriers'⟩ := htu ht
  exact ⟨hu, hbus'.trans hbus, hheld'.trans hheld, hreads'.trans hreads, hbarriers'.trans hbarriers⟩

/-- What leaves the package state and the whole host side alone is silent. -/
theorem staysSilent_of_host {s t : State} (hp : t.flt.pkg = s.flt.pkg) (hh : t.host = s.host) : StaysSilent s t :=
  fun h => ⟨hp.trans h, by simp [hh]⟩

theorem boot_staysSilent (s : State) (b : Boot) : StaysSilent s { s with boot := b } := staysSilent_of_host rfl rfl

theorem foldl_staysSilent {α : Type} {f : State → α → State} (l : List α) (s : State) (hf : ∀ t a, StaysSilent t (f t a)) :
    StaysSilent s (l.foldl f s) :=
  List.foldlRecOn (motive := StaysSilent s) l f (staysSilent_refl s) fun t ht a _ => ht.trans (hf t a)

theorem updFn_staysSilent (s : State) (n : Nat) (f : Fn → Fn) : StaysSilent s (updFn s n f) := fun h => ⟨h, rfl, rfl, rfl, rfl⟩

theorem signal_uncontained {s : State} (fn v : Nat) (h : s.flt.pkg = .uncontained) : signal s fn v = s := by simp [signal, h]

theorem signal_staysSilent (s : State) (fn v : Nat) : StaysSilent s (signal s fn v) := fun h => by
  rw [signal_uncontained fn v h]
  exact staysSilent_refl s h

theorem stateChanged_staysSilent (s : State) : StaysSilent s (stateChanged s) :=
  foldl_staysSilent _ _ fun t n => by
    split
    · exact (updFn_staysSilent t n _).trans (signal_staysSilent _ n 0)
    · exact staysSilent_refl t

theorem setStage_staysSilent (s : State) (st : BootStage) : StaysSilent s (setStage s st) :=
  (boot_staysSilent s _).trans (stateChanged_staysSilent _)

/-! ### The mailbox front end (R353, R436) -/

theorem mboxRespond_staysSilent (s : State) (fn : Nat) (rsp : Bytes) : StaysSilent s (mboxRespond s fn rsp) :=
  (updFn_staysSilent s fn _).trans (signal_staysSilent _ fn 0)

/-- An answer to a mailbox is its RSP and STATE; the vector is not sent. -/
theorem refuse_mbox_staysSilent (s : State) (fn : Nat) (cmd : Bytes) (accept : Nat) (code : Code) :
    StaysSilent s (refuse s (ctxOf (.mbox fn) cmd accept) code) := by
  simp only [refuse, respond, respondNum, ctxOf]
  split
  · exact staysSilent_refl s
  · exact mboxRespond_staysSilent s fn _

theorem failMailboxes_staysSilent (s : State) : StaysSilent s (failMailboxes s) :=
  foldl_staysSilent _ _ fun t n => by
    dsimp only
    split
    · exact refuse_mbox_staysSilent t n _ 0 _
    · exact staysSilent_refl t

theorem doorbell_staysSilent (s : State) (fn value : Nat) : StaysSilent s (doorbell s fn value) := by
  unfold doorbell
  extract_lets f u
  have hu : StaysSilent s u := updFn_staysSilent s fn _
  split
  · exact staysSilent_refl s
  · split
    · exact updFn_staysSilent s fn _
    · split
      · exact hu.trans (refuse_mbox_staysSilent u fn _ 0 _)
      · exact hu

theorem cmdWrite_staysSilent (s : State) (fn off : Nat) (bs : Bytes) : StaysSilent s (cmdWrite s fn off bs) :=
  updFn_staysSilent s fn _

theorem mboxWord_staysSilent (s : State) (fn off val : Nat) : StaysSilent s (mboxWord s fn off val) := by
  unfold mboxWord
  split
  · exact doorbell_staysSilent s fn val
  · split
    · exact updFn_staysSilent s fn _
    · exact staysSilent_refl s

/-- A partition reset written in UNCONTAINED is counted as ignored (R497). -/
theorem partitionReset_staysSilent (s : State) (value : Nat) : StaysSilent s (partitionReset s value) := fun h => by
  have e : partitionReset s value = { s with flt := { s.flt with resetIgnored := (s.flt.resetIgnored + 1) % 2 ^ 32 } } := by
    simp [partitionReset, h]
  rw [e]
  exact ⟨h, rfl, rfl, rfl, rfl⟩

/-- In UNCONTAINED a word written into BAR0 meets CMD, the rest of the mailbox page, the partition reset register, or nothing (R488). -/
theorem bar0Word_uncontained {s : State} (fn off : Nat) (bs : Bytes) (h : s.flt.pkg = .uncontained) :
    bar0Word s fn off bs = s ∨ bar0Word s fn off bs = cmdWrite s fn (off - (bar0Bases fn).1) bs ∨
      bar0Word s fn off bs = mboxWord s fn (off - (bar0Bases fn).1) (leNat bs) ∨
      bar0Word s fn off bs = partitionReset s (leNat bs) := by
  simp only [bar0Word, h]
  by_cases hcmd : (bar0Bases fn).1 ≤ off ∧ off < (bar0Bases fn).1 + 0x40
  · simp [hcmd]
  by_cases hbell : off = (bar0Bases fn).1 + 0x80
  · simp [hbell]
  by_cases hreset : fn = 0 ∧ off = 0x20030
  · obtain ⟨rfl, rfl⟩ := hreset
    simp [bar0Bases]
  · simp [hcmd, hbell, hreset]

theorem bar0Word_staysSilent (s : State) (fn off : Nat) (bs : Bytes) : StaysSilent s (bar0Word s fn off bs) := fun h => by
  obtain e | e | e | e := bar0Word_uncontained fn off bs h <;> rw [e]
  · exact staysSilent_refl s h
  · exact cmdWrite_staysSilent s fn _ bs h
  · exact mboxWord_staysSilent s fn _ _ h
  · exact partitionReset_staysSilent s _ h

/-! ### The boot that follows a reset (R466, R469, R474) -/

theorem turnOn_staysSilent (s : State) (ds : List Nat) : StaysSilent s (turnOn s ds) := staysSilent_of_host rfl rfl

theorem freeVal_staysSilent (s : State) : StaysSilent s (freeVal s).2 := staysSilent_of_host rfl rfl

theorem logFault_staysSilent (s : State) (source level part unit detail : Nat) :
    StaysSilent s (logFault s source level part unit detail) := staysSilent_of_host rfl rfl

theorem faultPins_staysSilent (s : State) : StaysSilent s { s with flt := { s.flt with faultN := true, quietN := true } } :=
  staysSilent_of_host rfl rfl

theorem bootFail_staysSilent (s : State) (st : BootStage) (unit : Option Nat) : StaysSilent s (bootFail s st unit) := by
  unfold bootFail
  extract_lets l u e
  have hu : StaysSilent s u.2 := (freeVal_staysSilent s).trans (freeVal_staysSilent l.2)
  have he : StaysSilent s e := hu.trans (logFault_staysSilent u.2 _ _ _ _ _)
  exact ((he.trans (faultPins_staysSilent e)).trans (setStage_staysSilent _ st)).trans (failMailboxes_staysSilent _)

theorem startImage_staysSilent (s : State) (slot : Nat) (fallback : Bool) (im : Bytes) :
    StaysSilent s (startImage s slot fallback im) :=
  (boot_staysSilent s _).trans (setStage_staysSilent _ .fwStart)

/-! ### The commands that act -/

/-- A command whose every next state follows s in silence. -/
def Silent (s : State) (o : Out) : Prop := ∀ t, o = .next t → StaysSilent s t

theorem silent_next {s t : State} (h : StaysSilent s t) : Silent s (.next t) := fun _ e => Host.Outcome.next.inj e ▸ h

theorem silent_inRange {s t : State} (n b : Nat) (h : StaysSilent s t) : Silent s (inRange n b t) := by
  unfold inRange
  split
  · exact silent_next h
  · exact fun u e => by simp at e

theorem silent_execPerstNDeassert (s : State) : Silent s (execPerstNDeassert s) := silent_next (boot_staysSilent s _)

theorem silent_execPwrGoodRise (s : State) : Silent s (execPwrGoodRise s) := silent_next <| by
  split
  · exact staysSilent_refl s
  · exact staysSilent_of_host rfl rfl

theorem silent_execPllLock (dir0 dir1 : ReadResult) (s : State) : Silent s (execPllLock dir0 dir1 s) := silent_next <| by
  split
  · exact staysSilent_refl s
  · extract_lets kept b u
    have hu : StaysSilent s u := (boot_staysSilent s b).trans (turnOn_staysSilent _ _)
    split
    · exact (hu.trans (boot_staysSilent u _)).trans (setStage_staysSilent _ .fwLoad)
    · exact hu.trans (bootFail_staysSilent u .noImage none)

theorem silent_execPllLockTimeout (s : State) : Silent s (execPllLockTimeout s) := silent_next <| by
  split
  · exact bootFail_staysSilent s .pllFail none
  · exact staysSilent_refl s

theorem silent_execFwImageLoaded (slotA slotB : ReadResult) (s : State) : Silent s (execFwImageLoaded slotA slotB s) :=
  silent_next <| by
    split
    · exact staysSilent_refl s
    · split
      · exact staysSilent_refl s
      · extract_lets act a o
        split
        · exact startImage_staysSilent s act false _
        · split
          · exact startImage_staysSilent s (1 - act) true _
          · exact bootFail_staysSilent s .noImage none

theorem silent_execRegisterWrite_bar0 (fn off : Nat) (bs : Bytes) (s : State) : Silent s (execRegisterWrite fn .bar0 off bs s) :=
  silent_inRange fn 16 <| by
    dsimp only
    split
    · exact staysSilent_refl s
    · split
      · exact cmdWrite_staysSilent s fn _ bs
      · split
        · exact bar0Word_staysSilent s fn off bs
        · split
          · exact (bar0Word_staysSilent s fn off _).trans (bar0Word_staysSilent _ fn (off + 4) _)
          · exact staysSilent_refl s

/-- An SMBus access changes the pointer and the data read alone (R513). -/
theorem staysSilent_smb (s : State) (ptr : Nat) (data : Bytes) :
    StaysSilent s { s with host := { s.host with smbPtr := ptr, smbData := data } } := fun h => ⟨h, rfl, rfl, rfl, rfl⟩

theorem silent_execSmbusPointer (ptr : Nat) (s : State) : Silent s (execSmbusPointer ptr s) := silent_next <| by
  split
  · exact staysSilent_smb s _ s.host.smbData
  · exact staysSilent_refl s

theorem silent_execSmbusRead (s : State) : Silent s (execSmbusRead s) := silent_next <| by
  split
  · exact staysSilent_smb s _ _
  · exact staysSilent_refl s

theorem silent_execJtagExtest (levels : List Bool) (s : State) : Silent s (execJtagExtest levels s) := silent_next <| by
  split
  · exact boot_staysSilent s _
  · exact staysSilent_refl s

/-- A DTC read changes what the host has read alone (R436). -/
theorem dtcReset_staysSilent (s t : State) : StaysSilent s (dtcReset s t) := fun h => by
  rw [dtcReset_uncontained t h]
  exact ⟨h, rfl, rfl, rfl, rfl⟩

/-- The resets that take a package out of UNCONTAINED (R437, R478). -/
abbrev leavingResets : List Instr := [.coldReset, .perstNAssert, .pcieHotReset]

/-- A command that acts in UNCONTAINED and is not one of its resets is silent. -/
theorem exec_silent_of_acts {i : Instr} (s : State) (ha : ActsUncontained i) : i ∈ leavingResets ∨ Silent s (exec i s) := by
  cases ha with
  | coldReset | perstNAssert | pcieHotReset => exact .inl (by simp)
  | perstNDeassert => exact .inr (silent_execPerstNDeassert s)
  | pwrGoodRise => exact .inr (silent_execPwrGoodRise s)
  | pllLock dir0 dir1 => exact .inr (silent_execPllLock dir0 dir1 s)
  | pllLockTimeout => exact .inr (silent_execPllLockTimeout s)
  | fwImageLoaded slotA slotB => exact .inr (silent_execFwImageLoaded slotA slotB s)
  | mailboxDoorbell fn value => exact .inr (silent_inRange fn 16 (doorbell_staysSilent s fn value))
  | registerWrite fn off bs => exact .inr (silent_execRegisterWrite_bar0 fn off bs s)
  | partitionReset value => exact .inr (silent_next (partitionReset_staysSilent s value))
  | dtcLoRead fn | dtcHiRead fn => exact .inr (silent_inRange fn 16 (dtcReset_staysSilent s _))
  | smbusPointer ptr => exact .inr (silent_execSmbusPointer ptr s)
  | smbusRead => exact .inr (silent_execSmbusRead s)
  | jtagExtest levels => exact .inr (silent_execJtagExtest levels s)

theorem tick_staysSilent (s : State) : StaysSilent s (tick s) := fun h => by
  cases hl : s.boot.pllLocked with
  | false =>
    rw [tick_before_lock hl]
    exact staysSilent_refl s h
  | true =>
    rw [tick_harmless hl (by simp [h])]
    exact staysSilent_of_host rfl rfl h

theorem step_of_front_command {s : State} {c : Instr} {rest : List Instr} (h : s.pending = c :: rest) :
    step s = exec c { s with pending := rest } := by simp [step, h]

/-- Settles O5: a tick is silent; a front command is inert, silent, or one of the resets. -/
theorem onlyResetLeavesUncontained : Obligations.OnlyResetLeavesUncontained := by
  unfold Obligations.OnlyResetLeavesUncontained
  intro s t h hs
  cases hq : s.pending with
  | nil =>
    rw [step_of_empty_queue hq] at hs
    exact .inr (silent_next (tick_staysSilent s) t hs h)
  | cons c rest =>
    rw [step_of_front_command hq] at hs
    have hr : { s with pending := rest }.flt.pkg = .uncontained := h
    obtain ha | hi := exec_inert_of_uncontained c hr
    · obtain hc | hc := exec_silent_of_acts { s with pending := rest } ha
      · exact .inl ⟨c, rest, rfl, hc⟩
      · exact .inr (hc t hs hr)
    · rw [hi t hs]
      exact .inr (staysSilent_refl s h)

end Sys2Proof.Machine
end

section
/-! SUPPORT. The fault log and the DTC words (R496, R499): what a write of LOG_CLEAR does to a package that is not UNCONTAINED,
and the one change that both DTC reads make. -/

namespace Sys2Proof.Machine

theorem bits_upper_half (v : Nat) : bits v 31 16 = v / 65536 % 65536 := rfl

theorem logClear_eq (s : State) (value : Nat) :
    logClear s value =
      if value / 65536 % 65536 = 0xFA17 ∧ s.flt.pkg = .serving then
        { s with flt := { s.flt with log := [], logClearedAt := s.flt.logCount } }
      else s := by
  simp [logClear, bits_upper_half]

theorem exec_logClear {s : State} (value : Nat) (hl : Live s) : exec (.logClear value) s = .next (logClear s value) :=
  congrArg _ (guarded_live _ hl)

theorem dtcReset_live {s : State} (t : State) (hl : Live s) : dtcReset s t = t := by
  simp [dtcReset, show s.flt.pkg ≠ .uncontained from hl]

/-- A DTC word answered: the latch of the reading function is left as given, and the word is what the host has read (R499). -/
def answerDtc (s : State) (fn : Nat) (latch : Option Nat) (word : Nat) : State :=
  let u := updFn s fn fun f => { f with shadow := latch }
  { u with host := { u.host with readData := word } }

/-- What a read of DTC_HI returns: the latched word, and the live bits where none is latched (R499). -/
def dtcHiWord (s : State) (fn : Nat) : Nat :=
  match (fnOf s fn).shadow with
  | some x => x
  | none => s.boot.dtc / 2 ^ 32 % 2 ^ 32

theorem exec_dtcLoRead {s : State} {fn : Nat} (hf : fn < 16) (hl : Live s) :
    exec (.dtcLoRead fn) s = .next (answerDtc s fn (some (s.boot.dtc / 2 ^ 32 % 2 ^ 32)) (s.boot.dtc % 2 ^ 32)) :=
  (inRange_next _ hf).trans (congrArg _ (dtcReset_live _ hl))

theorem exec_dtcHiRead {s : State} {fn : Nat} (hf : fn < 16) (hl : Live s) :
    exec (.dtcHiRead fn) s = .next (answerDtc s fn none (dtcHiWord s fn)) :=
  (inRange_next _ hf).trans (congrArg _ (dtcReset_live _ hl))

section
variable (s : State) {fn : Nat} (latch : Option Nat) (word : Nat)

theorem answerDtc_frame : answerDtc s fn latch word =
    { s with host := { s.host with fns := (answerDtc s fn latch word).host.fns, readData := (answerDtc s fn latch word).host.readData } } :=
  rfl

theorem fnOf_answerDtc_ne {n : Nat} (h : n ≠ fn) : fnOf (answerDtc s fn latch word) n = fnOf s n :=
  fnOf_updFn_ne s _ h.symm

theorem fnOf_answerDtc_same (h : fn < s.host.fns.length) :
    fnOf (answerDtc s fn latch word) fn = { fnOf s fn with shadow := latch } :=
  fnOf_updFn_same s _ h
end

/-- Settles O14: LOG_CLEAR is logClear under its guard; each DTC read is answerDtc, with its own latch and word. -/
theorem faultLogAndDtcRegisters : Obligations.FaultLogAndDtcRegisters := by
  unfold Obligations.FaultLogAndDtcRegisters
  intro s hl
  refine ⟨fun value => ?logClear, fun fn hf hn => ⟨?lo, ?hi⟩⟩
  case logClear => rw [exec_logClear value hl, logClear_eq]
  case lo =>
    have hfn := fnOf_answerDtc_same s (some (s.boot.dtc / 2 ^ 32 % 2 ^ 32)) (s.boot.dtc % 2 ^ 32) hn
    have hwhole : s.boot.dtc % 2 ^ 32 + 2 ^ 32 * (s.boot.dtc / 2 ^ 32) = s.boot.dtc := Nat.mod_add_div ..
    exact ⟨_, exec_dtcLoRead hf hl, rfl, by rw [hfn], hwhole, fun n => fnOf_answerDtc_ne s _ _, by rw [hfn], answerDtc_frame ..⟩
  case hi =>
    have hfn := fnOf_answerDtc_same s none (dtcHiWord s fn) hn
    exact ⟨_, exec_dtcHiRead hf hl, rfl, by rw [hfn], fun n => fnOf_answerDtc_ne s _ _, hfn, answerDtc_frame ..⟩

end Sys2Proof.Machine
end

section
/-! SUPPORT. The state right after cold reset: a kind's units are copies of one unit, so what that one holds they all hold. -/

namespace Sys2Proof.Machine

/-- Every vector of a function is masked, with nothing pending and no holdoff (R492). -/
theorem vecs_reset : ∀ v ∈ Fn.reset.vecs, v.masked = true ∧ v.pending = false ∧ v.holdoff = 0 :=
  List.forall_mem_replicate.2 (.inr ⟨rfl, rfl, rfl⟩)

/-- No cluster is in use, and an idle cluster's store reads 0 everywhere (R208, R270). -/
theorem csGet_clusterOf_reset (c a : Nat) : csGet (clusterOf State.reset c).cs a = 0 := rfl

/-- Settles O59: functions, partitions, ports and pins are copies of one unit each, and the rest is read off the reset state. -/
theorem resetHoldsTheSpecsValues : Obligations.ResetHoldsTheSpecsValues := by
  unfold Obligations.ResetHoldsTheSpecsValues
  intro s
  refine ⟨
    -- boot and package (R489, R479, R401)
    rfl, rfl, rfl, rfl, rfl, rfl, rfl, rfl, rfl, rfl, rfl, rfl, rfl, rfl, rfl,
    -- the endpoint (R492)
    List.length_replicate, List.forall_mem_replicate.2 (.inr ?fn), rfl, rfl,
    -- partitions and what they hold (R479, R297)
    List.length_replicate, List.forall_mem_replicate.2 (.inr ?part), rfl, rfl, rfl, rfl,
    -- ports (R336) and pins (R502)
    List.length_replicate, List.forall_mem_replicate.2 (.inr ?port), List.length_replicate, List.forall_mem_replicate.2 (.inr ?pin), rfl, rfl,
    -- permits, the ledger and the Cluster Stores
    rfl, rfl, rfl, rfl, csGet_clusterOf_reset, reset_wf, rfl⟩
  case fn => exact ⟨rfl, rfl, rfl, rfl, List.length_replicate, vecs_reset, rfl, rfl, rfl, rfl⟩
  case part => exact ⟨rfl, rfl, rfl, rfl, rfl⟩
  case port => exact ⟨rfl, rfl, rfl, rfl, rfl, rfl, rfl, rfl, rfl⟩
  case pin => rfl

end Sys2Proof.Machine
end

section
/-! SUPPORT. What leaves the clusters alone: each operation below changes other parts of the state only. -/

namespace Sys2Proof.Machine

/-! ### Folds and choices -/

theorem foldl_clusters {α : Type} {f : State → α → State} (hf : ∀ t a, (f t a).clusters = t.clusters) (l : List α) (s : State) :
    (l.foldl f s).clusters = s.clusters := by
  induction l generalizing s with
  | nil => rfl
  | cons a l ih => rw [List.foldl_cons, ih, hf]

@[simp] theorem ite_clusters {p : Prop} [Decidable p] (s t : State) :
    (if p then s else t).clusters = if p then s.clusters else t.clusters :=
  apply_ite ..

/-! ### Wire -/

@[simp] theorem pumpState_clusters (s : State) (n : Nat) : (pumpState s n).clusters = s.clusters := by
  unfold pumpState; dsimp only; repeat' split
  all_goals simp

@[simp] theorem portSend_clusters (s : State) (n v : Nat) (msg : Bytes) : (portSend s n v msg).clusters = s.clusters := by
  unfold portSend; simp

@[simp] theorem takeLink_clusters (s : State) (n ty : Nat) (f : LinkMsg → Bool) : (takeLink s n ty f).clusters = s.clusters := rfl

@[simp] theorem sendMember_clusters (s : State) (g k v : Nat) (msg : Bytes) : (sendMember s g k v msg).clusters = s.clusters := by
  unfold sendMember; split <;> simp

@[simp] theorem sendOthers_clusters (s : State) (g v : Nat) (msg : Bytes) : (sendOthers s g v msg).clusters = s.clusters := by
  exact foldl_clusters (fun t a => by simp) _ _

/-! ### Ops -/

@[simp] theorem freeVal_clusters (s : State) : (freeVal s).2.clusters = s.clusters := rfl

@[simp] theorem freeStamp_clusters (s : State) (lo : Nat) : (freeStamp s lo).2.clusters = s.clusters := rfl

@[simp] theorem issue_clusters (s : State) (w : BusWrite) : (issue s w).clusters = s.clusters := by
  unfold issue; repeat' split
  all_goals rfl

@[simp] theorem trySend_clusters (s : State) (fn v : Nat) : (trySend s fn v).clusters = s.clusters := by
  unfold trySend; dsimp only; repeat' split
  all_goals simp

@[simp] theorem signal_clusters (s : State) (fn v : Nat) : (signal s fn v).clusters = s.clusters := by
  unfold signal; split <;> simp

@[simp] theorem stateChanged_clusters (s : State) : (stateChanged s).clusters = s.clusters := by
  exact foldl_clusters (fun t n => by split <;> simp) _ _

@[simp] theorem setStage_clusters (s : State) (st : BootStage) : (setStage s st).clusters = s.clusters := by
  simp [setStage]

@[simp] theorem setPkg_clusters (s : State) (p : PkgState) : (setPkg s p).clusters = s.clusters := by
  unfold setPkg; dsimp only; split <;> simp

@[simp] theorem cqPost_clusters (s : State) (fn cq : Nat) (entry : Nat → Bytes) :
    (cqPost s fn cq entry).clusters = s.clusters := by
  unfold cqPost; split <;> simp

@[simp] theorem mboxRespond_clusters (s : State) (fn : Nat) (rsp : Bytes) : (mboxRespond s fn rsp).clusters = s.clusters := by
  unfold mboxRespond; simp

@[simp] theorem respondNum_clusters (s : State) (ctx : MsgCtx) (code : Nat) (body : Bytes) :
    (respondNum s ctx code body).clusters = s.clusters := by
  unfold respondNum; repeat' split
  all_goals simp

@[simp] theorem respond_clusters (s : State) (ctx : MsgCtx) (code : Code) (body : Bytes) :
    (respond s ctx code body).clusters = s.clusters := by
  unfold respond; simp

@[simp] theorem refuse_clusters (s : State) (ctx : MsgCtx) (code : Code) : (refuse s ctx code).clusters = s.clusters := by
  unfold refuse; simp

theorem openFrame_clusters {s t : State} {p n : Nat} {cls : FrameClass} {o : Owner} (h : openFrame s p cls o = some (n, t)) :
    t.clusters = s.clusters := by
  unfold openFrame at h; dsimp only at h
  split at h
  · split at h
    · obtain ⟨-, rfl⟩ : _ ∧ _ := by simpa only [Option.some.injEq, Prod.mk.injEq] using h
      rfl
    · cases h
  · cases h

theorem openFrames_clusters {s t : State} {p k : Nat} {cls : FrameClass} {o : Owner} {ns : List Nat}
    (h : openFrames s p cls o k = some (ns, t)) : t.clusters = s.clusters := by
  induction k generalizing s ns with
  | zero =>
    simp only [openFrames, Option.some.injEq, Prod.mk.injEq] at h
    rw [h.2]
  | succ k ih =>
    unfold openFrames at h
    split at h
    · simp at h
    next n u hu =>
      split at h
      · simp at h
      next hv =>
        obtain ⟨-, rfl⟩ : _ ∧ _ := by simpa using h
        rw [ih hv, openFrame_clusters hu]

@[simp] theorem sealFrame_clusters (s : State) (n : Nat) (cls : FrameClass) (bs : Bytes) :
    (sealFrame s n cls bs).clusters = s.clusters := rfl

@[simp] theorem reopenFrame_clusters (s : State) (n k : Nat) (cls : FrameClass) :
    (reopenFrame s n k cls).clusters = s.clusters := rfl

@[simp] theorem freeFrame_clusters (s : State) (n : Nat) : (freeFrame s n).clusters = s.clusters := by
  unfold freeFrame; repeat' split
  all_goals rfl

@[simp] theorem runEnds_clusters (s : State) (h : Nat) : (runEnds s h).clusters = s.clusters := by
  unfold runEnds; split <;> rfl

@[simp] theorem endRuns_clusters (s : State) (ns : List Nat) : (endRuns s ns).clusters = s.clusters := by
  exact foldl_clusters (fun t a => by simp) _ _

@[simp] theorem freeFrames_clusters (s : State) (ns : List Nat) : (freeFrames s ns).clusters = s.clusters := by
  unfold freeFrames; simp [foldl_clusters]

@[simp] theorem askSinter_clusters (s : State) (f : Nat) : (askSinter s f).clusters = s.clusters := by
  unfold askSinter; split <;> rfl

@[simp] theorem askStacks_clusters (s : State) : (askStacks s).clusters = s.clusters := by
  exact foldl_clusters (fun t a => by simp) _ _

@[simp] theorem handRuns_clusters (s : State) (p : Nat) (rs : List Run) : (handRuns s p rs).clusters = s.clusters := by
  exact foldl_clusters (fun t a => by simp) _ _

@[simp] theorem freeOwner_clusters (s : State) (p : Nat) (o : Owner) : (freeOwner s p o).clusters = s.clusters := by
  unfold freeOwner; simp

@[simp] theorem reapModels_clusters (s : State) (p : Nat) : (reapModels s p).clusters = s.clusters := by
  refine foldl_clusters (fun t i => ?_) _ _
  repeat' split
  all_goals simp

/-! ### Notices -/

@[simp] theorem tell_clusters (s : State) (p g : Nat) (k : NoticeKind) (key : Nat) (body : Bytes) :
    (tell s p g k key body).clusters = s.clusters := by
  unfold tell; simp

@[simp] theorem hear_clusters (s : State) (n : Notice) : (hear s n).clusters = s.clusters := rfl

@[simp] theorem announce_clusters (s : State) (p g : Nat) (k : NoticeKind) (key : Nat) (body : Bytes) :
    (announce s p g k key body).clusters = s.clusters := by
  unfold announce; repeat' split
  all_goals simp

@[simp] theorem announcePart_clusters (s : State) (p : Nat) : (announcePart s p).clusters = s.clusters := by
  unfold announcePart; dsimp only; repeat' split
  all_goals simp [foldl_clusters]

@[simp] theorem announceAll_clusters (s : State) : (announceAll s).clusters = s.clusters := by
  exact foldl_clusters announcePart_clusters _ _

@[simp] theorem forgetMember_clusters (s : State) (i : Nat) : (forgetMember s i).clusters = s.clusters := rfl

@[simp] theorem retell_clusters (s : State) : (retell s).clusters = s.clusters := rfl

/-! ### Geyser -/

@[simp] theorem issueFor_clusters (s : State) (q : Req) (w : BusWrite) : (issueFor s q w).clusters = s.clusters := by
  unfold issueFor; split <;> simp

@[simp] theorem jrnWrite_clusters (s : State) (h ty len : Nat) (body : Bytes) :
    (jrnWrite s h ty len body).clusters = s.clusters := by
  unfold jrnWrite; repeat' split
  all_goals simp

@[simp] theorem jrnSeal_clusters (s : State) (h dtc : Nat) : (jrnSeal s h dtc).clusters = s.clusters := by
  unfold jrnSeal; split <;> simp

@[simp] theorem jrnPidx_clusters (s : State) (h : Nat) : (jrnPidx s h).clusters = s.clusters := by
  unfold jrnPidx; repeat' split
  all_goals simp

@[simp] theorem answerExports_clusters (s : State) (h : Nat) : (answerExports s h).clusters = s.clusters := by
  unfold answerExports; split <;> simp [foldl_clusters]

@[simp] theorem freeWithin_clusters (s : State) (lo w : Nat) : (freeWithin s lo w).2.clusters = s.clusters := rfl

@[simp] theorem writeStamp_clusters (s : State) : (writeStamp s).2.clusters = s.clusters := by
  unfold writeStamp; split <;> rfl

@[simp] theorem drainOne_clusters (s : State) (h : Nat) (w : WaitEntry) : (drainOne s h w).clusters = s.clusters := by
  unfold drainOne; split <;> simp

@[simp] theorem drainFuel_clusters (a0 : Nat) (s : State) (a2 : Nat) : (drainFuel a0 s a2).clusters = s.clusters := by
  induction a0 generalizing s with
  | zero => rfl
  | succ n ih =>
    unfold drainFuel; repeat' split
    all_goals simp [ih]

@[simp] theorem jrnDrain_clusters (s : State) (h : Nat) : (jrnDrain s h).clusters = s.clusters := by
  unfold jrnDrain; split <;> simp

@[simp] theorem jrnOut_clusters (s : State) (h : Nat) (ws : List WaitEntry) : (jrnOut s h ws).clusters = s.clusters := by
  unfold jrnOut; simp

@[simp] theorem ringIrq_clusters (s : State) (h : Nat) (urgent : Bool) : (ringIrq s h urgent).clusters = s.clusters := by
  unfold ringIrq; repeat' split
  all_goals simp

@[simp] theorem ringWrite_clusters (s : State) (h : Nat) (f : RecFlags) (token stamp detail cancel : Nat) :
    (ringWrite s h f token stamp detail cancel).clusters = s.clusters := by
  unfold ringWrite; repeat' split
  all_goals simp

@[simp] theorem jrnEnd_clusters (s : State) (h : Nat) (t : Term) (detail stamp cancel sealDtc : Nat) (sat : Bool) :
    (jrnEnd s h t detail stamp cancel sealDtc sat).clusters = s.clusters := by
  unfold jrnEnd; split <;> simp

@[simp] theorem stopWant_clusters (s : State) (h : Nat) : (stopWant s h).clusters = s.clusters := by
  unfold stopWant; repeat' split
  all_goals simp

@[simp] theorem retain_clusters (s : State) (h : Nat) (t : Term) (detail : Nat) :
    (retain s h t detail).clusters = s.clusters := by
  unfold retain; split <;> rfl

@[simp] theorem countEnd_clusters (s : State) (q : Req) : (countEnd s q).clusters = s.clusters := rfl

@[simp] theorem fixOutcome_clusters (s : State) (h : Nat) (t : Term) (detail : Nat) :
    (fixOutcome s h t detail).clusters = s.clusters := by
  unfold fixOutcome; repeat' split
  all_goals simp

@[simp] theorem endOut_clusters (s : State) (h : Nat) (t : Term) (detail : Nat) :
    (endOut s h t detail).clusters = s.clusters := by
  unfold endOut; repeat' split
  all_goals simp

@[simp] theorem endSilent_clusters (s : State) (h : Nat) : (endSilent s h).clusters = s.clusters := by
  unfold endSilent; repeat' split
  all_goals simp

@[simp] theorem endHere_clusters (s : State) (h : Nat) (t : Term) (detail : Nat) :
    (endHere s h t detail).clusters = s.clusters := by
  unfold endHere; repeat' split
  all_goals simp

@[simp] theorem tellEnd_clusters (s : State) (h : Nat) (t : Term) (detail : Nat) :
    (tellEnd s h t detail).clusters = s.clusters := by
  unfold tellEnd; repeat' split
  all_goals simp

@[simp] theorem endTold_clusters (s : State) (h : Nat) (t : Term) (detail : Nat) :
    (endTold s h t detail).clusters = s.clusters := by
  unfold endTold; simp

/-! ### Plan -/

@[simp] theorem swapIn_clusters (s : State) (p : Nat) : (swapIn s p).clusters = s.clusters := by
  unfold swapIn; repeat' split
  all_goals simp

@[simp] theorem atFreeze_clusters (s : State) (p f : Nat) : (atFreeze s p f).clusters = s.clusters := by
  unfold atFreeze; simp

@[simp] theorem expireNew_clusters (s : State) (p f : Nat) : (expireNew s p f).clusters = s.clusters := by
  exact foldl_clusters (fun t a => by simp) _ _

@[simp] theorem memberDemands_clusters (s : State) (p : Nat) (rows : List PlanRow) :
    (memberDemands s p rows).clusters = s.clusters := by
  unfold memberDemands; split <;> rfl

@[simp] theorem addPins_clusters (s : State) (q : Req) (k : Int) : (addPins s q k).clusters = s.clusters := by
  exact foldl_clusters (fun t a => by simp) _ _

@[simp] theorem takePins_clusters (s : State) (rows : List PlanRow) : (takePins s rows).clusters = s.clusters := by
  refine foldl_clusters (fun t i => ?_) _ _
  repeat' split
  all_goals simp

@[simp] theorem sendPlan_clusters (s : State) (p : Nat) (a : Attempt) : (sendPlan s p a).clusters = s.clusters := by
  exact foldl_clusters (fun t a => by simp) _ _

@[simp] theorem reserveAll_clusters (s : State) (rs : List (Nat × Nat)) (k : Int) :
    (reserveAll s rs k).clusters = s.clusters := by
  exact foldl_clusters (fun t a => by simp) _ _

@[simp] theorem wake_clusters (s : State) (p t : Nat) : (wake s p t).clusters = s.clusters := by
  unfold wake; dsimp only; repeat' split
  all_goals simp

/-! ### Conv -/

@[simp] theorem settleRetiring_clusters (s : State) (p : Nat) : (settleRetiring s p).clusters = s.clusters := rfl

@[simp] theorem dropPins_clusters (s : State) (h : Nat) : (dropPins s h).clusters = s.clusters := by
  unfold dropPins; repeat' split
  all_goals simp

@[simp] theorem charge_clusters (s : State) (p i b : Nat) : (charge s p i b).clusters = s.clusters := rfl

@[simp] theorem growStream_clusters (s : State) (h : Nat) (fb : Bool) (g : KvGeom) (a b : Nat) :
    (growStream s h fb g a b).clusters = s.clusters := by
  unfold growStream; dsimp only; split
  · rfl
  · split
    · simp
    next h =>
      rw [handRuns_clusters, foldl_clusters (fun t e => by split <;> simp), updReq_clusters, openFrames_clusters h, updReq_clusters]

@[simp] theorem appendKv_clusters (s : State) (h : Nat) (fb : Bool) (rows : List Bytes) :
    (appendKv s h fb rows).clusters = s.clusters := by
  unfold appendKv; split <;> simp

@[simp] theorem dropKv_clusters (s : State) (h : Nat) : (dropKv s h).clusters = s.clusters := by
  unfold dropKv; split <;> simp

@[simp] theorem dropCond_clusters (s : State) (h : Nat) : (dropCond s h).clusters = s.clusters := by
  unfold dropCond; repeat' split
  all_goals simp

@[simp] theorem releaseReq_clusters (s : State) (h : Nat) : (releaseReq s h).clusters = s.clusters := by
  unfold releaseReq; split <;> simp

@[simp] theorem releaseEnded_clusters (s : State) (p : Nat) : (releaseEnded s p).clusters = s.clusters := by
  exact foldl_clusters (fun t a => by simp) _ _

@[simp] theorem issueBarrier_clusters (s : State) (fn : Nat) (why : BarrierFor) :
    (issueBarrier s fn why).clusters = s.clusters := rfl

@[simp] theorem writePart_clusters (s : State) (p : Nat) (w : Win) (off : Nat) (b : Bytes) :
    (writePart s p w off b).clusters = s.clusters := by
  unfold writePart; split <;> simp [foldl_clusters]

@[simp] theorem writeParts_clusters (a0 : Nat) (s : State) (a2 : Nat) : (writeParts a0 s a2).clusters = s.clusters := by
  induction a0 generalizing s with
  | zero => rfl
  | succ n ih =>
    unfold writeParts; dsimp only; repeat' split
    all_goals simp [ih]

@[simp] theorem parkWrites_clusters (s : State) (h : Nat) : (parkWrites s h).clusters = s.clusters := by
  unfold parkWrites; repeat' split
  all_goals simp

@[simp] theorem rewritePart_clusters (s : State) (h n : Nat) : (rewritePart s h n).clusters = s.clusters := by
  unfold rewritePart; repeat' split
  all_goals simp

@[simp] theorem pauseFails_clusters (s : State) (h : Nat) : (pauseFails s h).clusters = s.clusters := rfl

@[simp] theorem kvClass_clusters (s : State) (q : Req) (a b : FrameClass) : (kvClass s q a b).clusters = s.clusters := by
  exact foldl_clusters (fun t a => by simp) _ _

@[simp] theorem pauseRefused_clusters (s : State) (h : Nat) (c : Code) : (pauseRefused s h c).clusters = s.clusters := by
  unfold pauseRefused; repeat' split
  all_goals simp

@[simp] theorem report_clusters (s : State) (p h : Nat) (c : WorkCode) : (report s p h c).clusters = s.clusters := by
  unfold report; simp

@[simp] theorem clearWork_clusters (s : State) (h : Nat) : (clearWork s h).clusters = s.clusters := rfl

@[simp] theorem sealStreams_clusters (s : State) (q : Req) : (sealStreams s q).clusters = s.clusters := by
  unfold sealStreams; simp

@[simp] theorem reopenStream_clusters (s : State) (fs : List Nat) (n : Nat) : (reopenStream s fs n).clusters = s.clusters := by
  unfold reopenStream; dsimp only; repeat' split
  all_goals simp

@[simp] theorem unsealStreams_clusters (s : State) (q : Req) : (unsealStreams s q).clusters = s.clusters := by
  unfold unsealStreams; rw [foldl_clusters (fun t a => by simp)]; try simp

@[simp] theorem beginPark_clusters (s : State) (h offset stride ttl keyGen : Nat) :
    (beginPark s h offset stride ttl keyGen).clusters = s.clusters := by
  unfold beginPark; dsimp only; repeat' split
  all_goals simp

@[simp] theorem abandonPark_clusters (s : State) (h : Nat) : (abandonPark s h).clusters = s.clusters := by
  unfold abandonPark; repeat' split
  all_goals simp

@[simp] theorem finishPark_clusters (s : State) (h : Nat) : (finishPark s h).clusters = s.clusters := by
  unfold finishPark; repeat' split
  all_goals simp

@[simp] theorem settlePark_clusters (s : State) (h : Nat) : (settlePark s h).clusters = s.clusters := by
  unfold settlePark; dsimp only; repeat' split
  all_goals simp

@[simp] theorem ownPark_clusters (s : State) (h : Nat) (ok : Bool) : (ownPark s h ok).clusters = s.clusters := by
  unfold ownPark; repeat' split
  all_goals simp

@[simp] theorem dropFb_clusters (s : State) (h : Nat) : (dropFb s h).clusters = s.clusters := by
  unfold dropFb; split <;> simp

@[simp] theorem setFall_clusters (s : State) (h : Nat) : (setFall s h).clusters = s.clusters := by
  unfold setFall; repeat' split
  all_goals simp

@[simp] theorem goLive_clusters (s : State) (h : Nat) (app : List Nat) (fdl tdl acc : Nat) :
    (goLive s h app fdl tdl acc).clusters = s.clusters := by
  unfold goLive; split <;> simp

@[simp] theorem backToParked_clusters (s : State) (h : Nat) : (backToParked s h).clusters = s.clusters := by
  unfold backToParked; simp

theorem enterCondense_clusters {s t : State} {h : Nat} (e : enterCondense s h = some t) : t.clusters = s.clusters := by
  unfold enterCondense at e; dsimp only at e
  repeat' split at e
  all_goals simp at e
  next hf =>
    subst e
    simp [openFrames_clusters hf]

@[simp] theorem beginCondense_clusters (s : State) (h : Nat) : (beginCondense s h).clusters = s.clusters := by
  unfold beginCondense; split
  next t h => exact enterCondense_clusters h
  next => split <;> simp

@[simp] theorem applyWant_clusters (s : State) (h : Nat) : (applyWant s h).clusters = s.clusters := by
  unfold applyWant; repeat' split
  all_goals simp

/-! ### Kill -/

@[simp] theorem dropClusterPermits_clusters (s : State) (c : Nat) : (dropClusterPermits s c).clusters = s.clusters := rfl

@[simp] theorem dropProvisional_clusters (s : State) (p : Nat) (hs : List Nat) :
    (dropProvisional s p hs).clusters = s.clusters := by
  refine foldl_clusters (fun t i => ?_) _ _
  repeat' split
  all_goals simp

@[simp] theorem countPreempt_clusters (s : State) (p : Nat) (a : Attempt) (kill : Bool) :
    (countPreempt s p a kill).clusters = s.clusters := by
  unfold countPreempt; split
  · rfl
  · exact foldl_clusters (by simp) _ _

@[simp] theorem breakSems_clusters (s : State) (p : Nat) : (breakSems s p).clusters = s.clusters := by
  exact foldl_clusters (fun t a => by simp) _ _

@[simp] theorem reclaimPort_clusters (s : State) (p tag member port : Nat) :
    (reclaimPort s p tag member port).clusters = s.clusters := by
  unfold reclaimPort; simp

@[simp] theorem openReclaim_clusters (s : State) (p tag port : Nat) : (openReclaim s p tag port).clusters = s.clusters := rfl

@[simp] theorem closeInterval_clusters (s : State) (p : Nat) (a : Attempt) : (closeInterval s p a).clusters = s.clusters := rfl

@[simp] theorem promote_clusters (s : State) (p tensor : Nat) (key : Bytes) :
    (promote s p tensor key).clusters = s.clusters := rfl

@[simp] theorem markIdlePorts_clusters (s : State) : (markIdlePorts s).clusters = s.clusters := rfl

@[simp] theorem plannedPauses_clusters (s : State) (hs : List Nat) : (plannedPauses s hs).clusters = s.clusters := by
  exact foldl_clusters (fun t a => by simp) _ _

@[simp] theorem endCancelled_clusters (s : State) (p : Nat) : (endCancelled s p).clusters = s.clusters := by
  exact foldl_clusters (fun t a => by split <;> simp) _ _

@[simp] theorem stopTransfer_clusters (s : State) (h : Nat) : (stopTransfer s h).clusters = s.clusters := by
  unfold stopTransfer; repeat' split
  all_goals simp

@[simp] theorem cancelReq_clusters (s : State) (h st d : Nat) : (cancelReq s h st d).clusters = s.clusters := by
  unfold cancelReq; dsimp only; repeat' split
  all_goals simp

/-! ### Fault -/

@[simp] theorem logFault_clusters (s : State) (source level part unit detail : Nat) :
    (logFault s source level part unit detail).clusters = s.clusters := rfl

@[simp] theorem orderTick_clusters (s : State) : (orderTick s).clusters = s.clusters := by
  unfold orderTick; dsimp only; repeat' split
  all_goals simp

@[simp] theorem noteDoubt_clusters (s : State) (source level part unit detail : Nat) :
    (noteDoubt s source level part unit detail).clusters = s.clusters := by
  unfold noteDoubt; dsimp only; repeat' split
  all_goals simp

@[simp] theorem portPermits_clusters (s : State) (n : Nat) : (portPermits s n).clusters = s.clusters := rfl

@[simp] theorem holdPorts_clusters (s : State) : (holdPorts s).clusters = s.clusters := by
  exact foldl_clusters (fun t n => by dsimp only; split <;> simp) _ _

@[simp] theorem forgetCtxs_clusters (s : State) : (forgetCtxs s).clusters = s.clusters := rfl

@[simp] theorem failPending_clusters (s : State) : (failPending s).clusters = s.clusters := by
  exact foldl_clusters (fun t a => by simp) _ _

@[simp] theorem endSessions_clusters (s : State) : (endSessions s).clusters = s.clusters := rfl

@[simp] theorem winUse_clusters (s : State) (d : Nat) (k : Int) : (winUse s d k).clusters = s.clusters := by
  unfold winUse; split <;> rfl

@[simp] theorem dropFetch_clusters (s : State) (a : Adapter) : (dropFetch s a).clusters = s.clusters := by
  unfold dropFetch; simp

@[simp] theorem dropReg_clusters (s : State) (r : PendReg) : (dropReg s r).clusters = s.clusters := by
  unfold dropReg; simp

@[simp] theorem dropLoad_clusters (s : State) (p : Nat) (l : Load) : (dropLoad s p l).clusters = s.clusters := by
  unfold dropLoad; split <;> simp

@[simp] theorem dropTransfers_clusters (s : State) : (dropTransfers s).clusters = s.clusters := by
  unfold dropTransfers
  rw [foldl_clusters (by simp), foldl_clusters (fun t p => by split <;> simp), foldl_clusters (by simp), foldl_clusters (by simp)]

@[simp] theorem endReplay_clusters (s : State) (h st : Nat) : (endReplay s h st).clusters = s.clusters := by
  unfold endReplay; repeat' split
  all_goals rfl

@[simp] theorem faultEnd_clusters (s : State) (rows : List Nat) (q : Req) : (faultEnd s rows q).clusters = s.clusters := by
  unfold faultEnd; repeat' split
  all_goals simp

@[simp] theorem faultEndAll_clusters (s : State) (rows : List Nat) (p : Nat) : (faultEndAll s rows p).clusters = s.clusters := by
  unfold faultEndAll; simp [foldl_clusters]

@[simp] theorem goQuiet_clusters (s : State) : (goQuiet s).clusters = s.clusters := by
  simp [goQuiet]

@[simp] theorem recoveryFails_clusters (s : State) : (recoveryFails s).clusters = s.clusters := by
  unfold recoveryFails; dsimp only; repeat' split
  all_goals simp

@[simp] theorem failMailboxes_clusters (s : State) : (failMailboxes s).clusters = s.clusters := by
  exact foldl_clusters (fun t n => by dsimp only; split <;> simp) _ _

@[simp] theorem doubtUncontained_clusters (s : State) (source part unit detail : Nat) :
    (doubtUncontained s source part unit detail).clusters = s.clusters := by
  unfold doubtUncontained; dsimp only; repeat' split
  all_goals simp

@[simp] theorem holdEndAll_clusters (s : State) (p : Nat) : (holdEndAll s p).clusters = s.clusters := by
  unfold holdEndAll; dsimp only
  rw [foldl_clusters, foldl_clusters (by simp)]
  intro t q
  repeat' split
  all_goals simp

/-! ### Ledger -/

@[simp] theorem snapshot_clusters (s : State) (ps : List Nat) (r : Option (Nat × Nat)) :
    (snapshot s ps r).clusters = s.clusters := rfl

@[simp] theorem settleBalances_clusters (s : State) (ps : List Nat) : (settleBalances s ps).clusters = s.clusters := rfl

@[simp] theorem domainsOff_clusters (s : State) : (domainsOff s).clusters = s.clusters := rfl

@[simp] theorem stopPart_clusters (s : State) (p : Nat) : (stopPart s p).clusters = s.clusters := by
  unfold stopPart
  rw [foldl_clusters (by simp), foldl_clusters (by simp), foldl_clusters (by simp)]
  split <;> simp

@[simp] theorem stopExports_clusters (s : State) (h : Nat) : (stopExports s h).clusters = s.clusters := by
  unfold stopExports; split <;> simp [foldl_clusters]

@[simp] theorem emptyPart_clusters (s : State) (p : Nat) : (emptyPart s p).clusters = s.clusters := by
  unfold emptyPart; simp

@[simp] theorem abortRequests_clusters (s : State) (p st : Nat) : (abortRequests s p st).clusters = s.clusters := by
  exact foldl_clusters (fun t a => by simp) _ _

@[simp] theorem leaveDisable_clusters (s : State) (p : Nat) : (leaveDisable s p).clusters = s.clusters := by
  unfold leaveDisable; dsimp only; repeat' split
  all_goals simp [foldl_clusters]

@[simp] theorem endDisable_clusters (s : State) (p : Nat) : (endDisable s p).clusters = s.clusters := by
  simp [endDisable]

@[simp] theorem settleDrain_clusters (s : State) (p : Nat) : (settleDrain s p).clusters = s.clusters := by
  unfold settleDrain; repeat' split
  all_goals simp

@[simp] theorem finishDisable_clusters (s : State) (p : Nat) : (finishDisable s p).clusters = s.clusters := by
  unfold finishDisable; repeat' split
  all_goals simp

@[simp] theorem clearPool_clusters (s : State) (p : Nat) : (clearPool s p).clusters = s.clusters := by
  exact foldl_clusters (fun t a => by simp) _ _

@[simp] theorem wipeReq_clusters (s : State) (q : Req) : (wipeReq s q).clusters = s.clusters := by
  unfold wipeReq; split <;> simp

@[simp] theorem finishReset_clusters (s : State) (p : Nat) : (finishReset s p).clusters = s.clusters := by
  unfold finishReset; split <;> rfl

@[simp] theorem retryStreams_clusters (s : State) : (retryStreams s).clusters = s.clusters := rfl

/-! ### Commit -/

@[simp] theorem commitKv_clusters (s : State) (a : Attempt) (h : Nat) : (commitKv s a h).clusters = s.clusters := by
  unfold commitKv; dsimp only; repeat' split
  all_goals simp

@[simp] theorem commitCond_clusters (s : State) (a : Attempt) (h c : Nat) : (commitCond s a h c).1.clusters = s.clusters := by
  unfold commitCond; dsimp only; split
  · rfl
  · split
    · rfl
    · split_ifs
      · simp
      · rw [updReq_clusters, handRuns_clusters, foldl_clusters (by simp)]; simp

@[simp] theorem commitReq_clusters (s : State) (a : Attempt) (c : Nat) (cut : List Nat) (h : Nat) :
    (commitReq s a c cut h).1.clusters = s.clusters := by
  unfold commitReq; dsimp only; repeat' split
  all_goals simp

@[simp] theorem settleBudgets_clusters (s : State) (a : Attempt) (cut : List Nat) :
    (settleBudgets s a cut).clusters = s.clusters := by
  unfold settleBudgets; dsimp only; split
  · simp
  · rw [foldl_clusters (by simp)]; simp

@[simp] theorem accountStep_clusters (s : State) (p : Nat) (a : Attempt) (c : Nat) (outs : List StepOut) :
    (accountStep s p a c outs).clusters = s.clusters := rfl

@[simp] theorem countWait_clusters (s : State) (p c : Nat) (h : Nat) : (countWait s p c h).clusters = s.clusters := by
  unfold countWait; dsimp only; repeat' split
  all_goals simp

@[simp] theorem admitRows_clusters (s : State) (p c : Nat) (segs : List Seg) (hs : List Nat) :
    (admitRows s p c segs hs).clusters = s.clusters := rfl

@[simp] theorem updReplay_clusters (s : State) (q : Req) (f : ReplayStat → ReplayStat) :
    (updReplay s q f).clusters = s.clusters := rfl

@[simp] theorem diverge_clusters (s : State) (h kind t n : Nat) (obs : Nat × Nat × Bytes) :
    (diverge s h kind t n obs).clusters = s.clusters := by
  unfold diverge; split <;> simp

@[simp] theorem endMatch_clusters (s : State) (q : Req) (n : Nat) (term : Bool) :
    (endMatch s q n term).clusters = s.clusters := by
  unfold endMatch; simp

@[simp] theorem compareEnd_clusters (s : State) (h n : Nat) (own : Option Term) :
    (compareEnd s h n own).clusters = s.clusters := by
  unfold compareEnd; dsimp only; repeat' split
  all_goals simp

@[simp] theorem replayCondense_clusters (s : State) (h p : Nat) (d : Digest) :
    (replayCondense s h p d).clusters = s.clusters := by
  unfold replayCondense; dsimp only; split
  · rfl
  · split
    · simp
    · split
      · simp
      · split
        · simp
        next h => simp [openFrames_clusters h]

@[simp] theorem replayResume_clusters (s : State) (h : Nat) (app : List Nat) : (replayResume s h app).clusters = s.clusters := by
  unfold replayResume; dsimp only; repeat' split
  all_goals simp

@[simp] theorem replayAdvance_clusters (a0 : Nat) (s : State) (a2 : Nat) : (replayAdvance a0 s a2).clusters = s.clusters := by
  induction a0 generalizing s with
  | zero => rfl
  | succ n ih =>
    unfold replayAdvance; dsimp only; repeat' split
    all_goals simp [ih]

@[simp] theorem replayCompare_clusters (s : State) (o : StepOut) (cond : Bool) :
    (replayCompare s o cond).clusters = s.clusters := by
  unfold replayCompare; dsimp only; repeat' split
  all_goals simp

@[simp] theorem writeOut_clusters (s : State) (c : Nat) (o : StepOut) : (writeOut s c o).clusters = s.clusters := by
  unfold writeOut; dsimp only; repeat' split
  all_goals simp [foldl_clusters]

@[simp] theorem afterOut_clusters (s : State) (c : Nat) (o : StepOut) : (afterOut s c o).clusters = s.clusters := by
  unfold afterOut; dsimp only; repeat' split
  all_goals simp

/-! ### Cluster -/

@[simp] theorem updAtt_clusters (s : State) (p : Nat) (f : Attempt → Attempt) : (updAtt s p f).clusters = s.clusters := rfl

@[simp] theorem askArray_clusters (s : State) (c : Nat) (k : PClass) : (askArray s c k).clusters = s.clusters := by
  unfold askArray; split <;> rfl

@[simp] theorem askPermit_clusters (s : State) (req : Nat) (k : PClass) : (askPermit s req k).clusters = s.clusters := by
  unfold askPermit; split <;> rfl

@[simp] theorem lowerClass_clusters (s : State) (c : Nat) (k : PClass) : (lowerClass s c k).clusters = s.clusters := by
  unfold lowerClass; dsimp only; repeat' split
  all_goals simp

@[simp] theorem layerEnd_clusters (s : State) (c : Nat) (x : Cx) (k : QCmd) : (layerEnd s c x k).clusters = s.clusters := by
  unfold layerEnd; repeat' split
  all_goals simp

@[simp] theorem noteEcc_clusters (s : State) (p : Nat) (e : Ecc) : (noteEcc s p e).clusters = s.clusters := rfl

@[simp] theorem markSat_clusters (s : State) (p : Nat) (rows : List Nat) : (markSat s p rows).clusters = s.clusters := rfl

/-! ### Move -/

@[simp] theorem freeHalf_clusters (s : State) (p slot : Nat) (m : Model) (half : Nat) :
    (freeHalf s p slot m half).clusters = s.clusters := by
  exact foldl_clusters (fun t a => by simp) _ _

@[simp] theorem releaseHalf_clusters (s : State) (x : Cx) (t : Tensor) : (releaseHalf s x t).clusters = s.clusters := by
  unfold releaseHalf; repeat' split
  all_goals simp

@[simp] theorem sendDone_clusters (s : State) (x : Cx) (k : QCmd) (r : Route) : (sendDone s x k r).1.clusters = s.clusters := by
  unfold sendDone; dsimp only; repeat' split
  all_goals simp

@[simp] theorem returnPlaces_clusters (s : State) (x : Cx) (g : ChanMsg) : (returnPlaces s x g).clusters = s.clusters := by
  unfold returnPlaces; dsimp only; repeat' split
  all_goals simp

@[simp] theorem sendProbe_clusters (s : State) (x : Cx) (r : Route) (origin och hops : Nat) :
    (sendProbe s x r origin och hops).clusters = s.clusters := by
  unfold sendProbe; dsimp only; repeat' split
  all_goals simp

theorem takeProbe_clusters {s t : State} {p : Nat} {b : Probe} (h : takeProbe s p b = some t) : t.clusters = s.clusters := by
  unfold takeProbe at h
  split at h
  · cases h; rfl
  · split at h
    · cases h; simp
    · cases h

/-! ### Phy -/

@[simp] theorem askSteer_clusters (s : State) (n l : Nat) (a : SteerAct) : (askSteer s n l a).clusters = s.clusters := by
  unfold askSteer; simp

/-! ### Sems -/

@[simp] theorem putSem_clusters (s : State) (p : Nat) (m : Sem) : (putSem s p m).clusters = s.clusters := rfl

@[simp] theorem freeSem_clusters (s : State) (p id : Nat) : (freeSem s p id).clusters = s.clusters := rfl

@[simp] theorem relaySem_clusters (s : State) (p member kind id rank tag arg : Nat) :
    (relaySem s p member kind id rank tag arg).clusters = s.clusters := by
  unfold relaySem; simp

@[simp] theorem semPass_clusters (s : State) (p : Nat) (m : Sem) : (semPass s p m).clusters = s.clusters := by
  unfold semPass; dsimp only; repeat' split
  all_goals simp

@[simp] theorem addWaiter_clusters (s : State) (p : Nat) (m : Sem) (w : SemWaiter) :
    (addWaiter s p m w).clusters = s.clusters := by
  unfold addWaiter; split <;> rfl

/-! ### Turns -/

@[simp] theorem countGrant_clusters (s : State) (p : Nat) (a : Attempt) : (countGrant s p a).clusters = s.clusters := rfl

@[simp] theorem rewindRings_clusters (s : State) (p : Nat) (slots : List Nat) :
    (rewindRings s p slots).clusters = s.clusters := by
  refine foldl_clusters (fun t i => ?_) _ _
  repeat' split
  all_goals simp

@[simp] theorem sendTurn_clusters (s : State) (p method point : Nat) : (sendTurn s p method point).clusters = s.clusters := by
  unfold sendTurn; repeat' split
  all_goals simp

@[simp] theorem tellCheap_clusters (s : State) (p : Nat) (a : Attempt) : (tellCheap s p a).clusters = s.clusters := by
  unfold tellCheap; split <;> simp

@[simp] theorem clearCheap_clusters (s : State) (p : Nat) : (clearCheap s p).clusters = s.clusters := rfl

/-! ### Steps -/

@[simp] theorem takeCidx_clusters (s : State) (es : List Bytes) : (takeCidx s es).clusters = s.clusters := by
  exact foldl_clusters (fun t a => by simp) _ _

@[simp] theorem rearm_clusters (s : State) : (rearm s).clusters = s.clusters := by
  exact foldl_clusters (fun t n => by split <;> simp) _ _

/-! ### Link -/

@[simp] theorem portPowerOff_clusters (s : State) (n : Nat) : (portPowerOff s n).clusters = s.clusters := rfl

@[simp] theorem forgetPort_clusters (s : State) (n : Nat) : (forgetPort s n).clusters = s.clusters := rfl

@[simp] theorem sendPortLost_clusters (s : State) (n via : Nat) : (sendPortLost s n via).clusters = s.clusters := by
  unfold sendPortLost; simp

@[simp] theorem finishLeaving_clusters (s : State) (n : Nat) : (finishLeaving s n).clusters = s.clusters := by
  unfold finishLeaving; split <;> simp

@[simp] theorem inState_clusters (s : State) (n : Nat) (st : PortState) : (inState s n st).clusters = s.clusters := rfl

@[simp] theorem leaveStep_clusters (s : State) (n : Nat) : (leaveStep s n).clusters = s.clusters := by
  unfold leaveStep; dsimp only; repeat' split
  all_goals simp

/-! ### Ports -/

@[simp] theorem setGroup_clusters (s : State) (m : Taken) : (setGroup s m).clusters = s.clusters := by
  unfold setGroup; repeat' split
  all_goals simp

@[simp] theorem beginInit_clusters (s : State) (n : Nat) (info : TrainInfo) : (beginInit s n info).clusters = s.clusters := by
  unfold beginInit; simp

@[simp] theorem sendPing_clusters (s : State) (n : Nat) : (sendPing s n).clusters = s.clusters := by
  unfold sendPing; simp

@[simp] theorem coarseSet_clusters (s : State) (n dtc rtt : Nat) : (coarseSet s n dtc rtt).clusters = s.clusters := by
  unfold coarseSet; split <;> rfl

/-! ### Resets -/

@[simp] theorem muteFn_clusters (s : State) (n : Nat) : (muteFn s n).clusters = s.clusters := rfl

@[simp] theorem flrEnd_clusters (s : State) (st : Nat) (q : Req) : (flrEnd s st q).clusters = s.clusters := by
  unfold flrEnd; split <;> simp

@[simp] theorem flrStart_clusters (s : State) (n : Nat) : (flrStart s n).clusters = s.clusters := by
  unfold flrStart; split <;> simp [foldl_clusters]

/-! ### Queues -/

@[simp] theorem addQueue_clusters (s : State) (fn : Nat) (c : Bytes) : (addQueue s fn c).clusters = s.clusters := by
  unfold addQueue; split <;> rfl

@[simp] theorem dropSq_clusters (s : State) (fn : Nat) (x : Sq) : (dropSq s fn x).clusters = s.clusters := rfl

@[simp] theorem doorbell_clusters (s : State) (fn value : Nat) : (doorbell s fn value).clusters = s.clusters := by
  unfold doorbell; dsimp only; repeat' split
  all_goals simp

@[simp] theorem sqTail_clusters (s : State) (fn q value : Nat) : (sqTail s fn q value).clusters = s.clusters := by
  unfold sqTail; repeat' split
  all_goals rfl

@[simp] theorem cqHead_clusters (s : State) (fn q value : Nat) : (cqHead s fn q value).clusters = s.clusters := by
  unfold cqHead; repeat' split
  all_goals rfl

@[simp] theorem issueRead_clusters (s : State) (fn : Nat) (why : ReadFor) : (issueRead s fn why).clusters = s.clusters := rfl

@[simp] theorem stopSq_clusters (s : State) (fn q : Nat) : (stopSq s fn q).clusters = s.clusters := by
  unfold stopSq; split <;> simp

@[simp] theorem entryRead_clusters (s : State) (fn q tries : Nat) (data : ReadResult) :
    (entryRead s fn q tries data).clusters = s.clusters := by
  unfold entryRead; repeat' split
  all_goals simp

@[simp] theorem cidxValue_clusters (s : State) (h : Nat) (journal : Bool) (v : Nat) :
    (cidxValue s h journal v).clusters = s.clusters := by
  unfold cidxValue; dsimp only; repeat' split
  all_goals simp

@[simp] theorem dropCidxRead_clusters (s : State) (h : Nat) (journal : Bool) :
    (dropCidxRead s h journal).clusters = s.clusters := rfl

/-! ### Registers -/

@[simp] theorem winSet_clusters (s : State) (d : Nat) : (winSet s d).clusters = s.clusters := by
  unfold winSet; dsimp only; repeat' split
  all_goals simp

@[simp] theorem winClear_clusters (s : State) (d : Nat) : (winClear s d).clusters = s.clusters := rfl

@[simp] theorem bar2Word_clusters (s : State) (off : Nat) (bs : Bytes) : (bar2Word s off bs).clusters = s.clusters := by
  unfold bar2Word; dsimp only; repeat' split
  all_goals simp

@[simp] theorem msixWord_clusters (s : State) (fn off val : Nat) : (msixWord s fn off val).clusters = s.clusters := by
  unfold msixWord; repeat' split
  all_goals simp

@[simp] theorem intWord_clusters (s : State) (fn off val : Nat) : (intWord s fn off val).clusters = s.clusters := by
  unfold intWord; repeat' split
  all_goals simp

@[simp] theorem logClear_clusters (s : State) (val : Nat) : (logClear s val).clusters = s.clusters := by
  unfold logClear; split <;> rfl

@[simp] theorem cmdWrite_clusters (s : State) (fn off : Nat) (bs : Bytes) : (cmdWrite s fn off bs).clusters = s.clusters := rfl

@[simp] theorem mboxWord_clusters (s : State) (fn off val : Nat) : (mboxWord s fn off val).clusters = s.clusters := by
  unfold mboxWord; repeat' split
  all_goals simp

@[simp] theorem bellWord_clusters (s : State) (fn off val : Nat) : (bellWord s fn off val).clusters = s.clusters := by
  unfold bellWord; repeat' split
  all_goals simp

@[simp] theorem vfWrite_clusters (s : State) (n : Nat) : (vfWrite s n).clusters = s.clusters := by
  exact foldl_clusters (fun t a => by simp) _ _

/-! ### Tick -/

@[simp] theorem writeRun_clusters (s : State) (p : Nat) (r : Run) : (writeRun s p r).clusters = s.clusters := by
  unfold writeRun; dsimp only; repeat' split
  all_goals simp

@[simp] theorem sinterStack_clusters (s : State) (h : Nat) : (sinterStack s h).clusters = s.clusters := by
  unfold sinterStack; repeat' split
  all_goals simp

@[simp] theorem sinterTick_clusters (s : State) : (sinterTick s).clusters = s.clusters := by
  exact foldl_clusters (fun t a => by simp) _ _

/-! ### Board -/

@[simp] theorem updPin_clusters (s : State) (n : Nat) (f : MfPin → MfPin) : (updPin s n f).clusters = s.clusters := rfl

@[simp] theorem filterReset_clusters (s : State) : (filterReset s).clusters = s.clusters := rfl

@[simp] theorem pinSwitch_clusters (s : State) (pin : Nat) (f : PinFn) (arg : Nat) (c : MsgCtx) :
    (pinSwitch s pin f arg c).clusters = s.clusters := by
  unfold pinSwitch; dsimp only; repeat' split
  all_goals simp

@[simp] theorem pinmux_clusters (s : State) (c : MsgCtx) (cmd : Bytes) : (pinmux s c cmd).clusters = s.clusters := by
  unfold pinmux; dsimp only; repeat' split
  all_goals simp

@[simp] theorem pinArmed_clusters (s : State) (pin : Nat) : (pinArmed s pin).clusters = s.clusters := by
  unfold pinArmed; dsimp only; repeat' split
  all_goals simp

@[simp] theorem takeMark_clusters (s : State) (edge : Nat) : (takeMark s edge).clusters = s.clusters := by
  unfold takeMark; dsimp only; repeat' split
  all_goals simp

@[simp] theorem enterDebug_clusters (s : State) : (enterDebug s).clusters = s.clusters := rfl

/-! ### Boot -/

@[simp] theorem bootFail_clusters (s : State) (st : BootStage) (unit : Option Nat) :
    (bootFail s st unit).clusters = s.clusters := by
  simp [bootFail]

@[simp] theorem turnOn_clusters (s : State) (ds : List Nat) : (turnOn s ds).clusters = s.clusters := rfl

@[simp] theorem startImage_clusters (s : State) (slot : Nat) (fallback : Bool) (im : Bytes) :
    (startImage s slot fallback im).clusters = s.clusters := by
  simp [startImage]

@[simp] theorem badFrame_clusters (s : State) (n : Nat) : (badFrame s n).clusters = s.clusters := by
  unfold badFrame; repeat' split
  all_goals simp

@[simp] theorem idleQuantities_clusters (s : State) : (idleQuantities s).clusters = s.clusters := rfl

/-! ### Forward -/

@[simp] theorem forwardMsg_clusters (s : State) (m : Taken) (desc : Bytes) : (forwardMsg s m desc).clusters = s.clusters := by
  exact foldl_clusters (fun t a => by simp) _ _

@[simp] theorem relay_clusters (s : State) (m : Taken) (id : Nat) (desc : Bytes) : (relay s m id desc).clusters = s.clusters := by
  unfold relay; dsimp only; repeat' split
  all_goals simp [foldl_clusters]

@[simp] theorem cancelTold_clusters (s : State) (q : Req) (st d : Nat) : (cancelTold s q st d).clusters = s.clusters := by
  unfold cancelTold; simp

/-! ### Partitions -/

@[simp] theorem modifyPart_clusters (s : State) (m : Taken) (d : Bytes) : (modifyPart s m d).clusters = s.clusters := by
  unfold modifyPart; dsimp only; repeat' split
  all_goals simp

@[simp] theorem startDrain_clusters (s : State) (p st ticks : Nat) (cs : List MsgCtx) :
    (startDrain s p st ticks cs).clusters = s.clusters := rfl

@[simp] theorem drainMsg_clusters (s : State) (m : Taken) : (drainMsg s m).clusters = s.clusters := by
  unfold drainMsg; dsimp only; repeat' split
  all_goals simp

/-! ### Sinter -/

@[simp] theorem afterSeal_clusters (s : State) (a0 : Owner) : (afterSeal s a0).clusters = s.clusters := by
  unfold afterSeal; split <;> simp

@[simp] theorem streamRead_clusters (s : State) (p slot : Nat) (m : Model) (half : Nat) (data : ReadResult) :
    (streamRead s p slot m half data).clusters = s.clusters := by
  unfold streamRead; dsimp only; split
  · simp only [endRuns_clusters, updModel_clusters]
    rw [foldl_clusters (by simp)]; simp
  · rw [updModel_clusters, foldl_clusters (by simp)]; simp

@[simp] theorem scrubNote_clusters (s : State) (n : Nat) : (scrubNote s n).clusters = s.clusters := by
  unfold scrubNote; dsimp only; repeat' split
  all_goals simp

/-! ### Models -/

@[simp] theorem startLoad_clusters (s : State) (m : Taken) (d : Bytes) : (startLoad s m d).clusters = s.clusters := by
  unfold startLoad; dsimp only; repeat' split
  all_goals simp

@[simp] theorem sealLoad_clusters (s : State) (p : Nat) (l : Load) (m : Model) (prog : Bytes) :
    (sealLoad s p l m prog).clusters = s.clusters := by
  unfold sealLoad; dsimp only; split
  · simp
  next ns t h =>
    have hf : ((ns.zip (loadBytes m prog)).foldl (fun t e => sealFrame t e.1 .model e.2) t).clusters = s.clusters := by
      rw [foldl_clusters (by simp), openFrames_clusters h]
    split <;> simp [hf]

@[simp] theorem allRunsEnd_clusters (s : State) : (allRunsEnd s).clusters = s.clusters := by
  exact foldl_clusters (fun t a => by simp) _ _

@[simp] theorem endLoad_clusters (s : State) (p : Nat) (l : Load) (weights program : ReadResult) :
    (endLoad s p l weights program).clusters = s.clusters := by
  unfold endLoad; dsimp only; repeat' split
  all_goals simp

@[simp] theorem unloadModel_clusters (s : State) (m : Taken) : (unloadModel s m).clusters = s.clusters := by
  unfold unloadModel; dsimp only; repeat' split
  all_goals simp

/-! ### Adapters -/

theorem openPool_clusters {s : State} {p i n : Nat} {t : List Nat × State} (h : openPool s p i n = some t) :
    t.2.clusters = s.clusters := by
  unfold openPool at h
  split at h
  · cases h
  next hf =>
    cases h
    exact (foldl_clusters (by simp) _ _).trans (openFrames_clusters hf)

@[simp] theorem sealPool_clusters (s : State) (ns : List Nat) (im : Bytes) : (sealPool s ns im).clusters = s.clusters := by
  rw [sealPool, endRuns_clusters]
  exact foldl_clusters (by simp) _ _

@[simp] theorem registerAdapter_clusters (s : State) (m : Taken) : (registerAdapter s m).clusters = s.clusters := by
  unfold registerAdapter; dsimp only; split
  · simp
  · split
    · simp
    · split
      · simp
      · split
        · simp
        · split
          · split
            next h => simp [openPool_clusters h]
            · simp
          · simp

@[simp] theorem endReg_clusters (s : State) (r : PendReg) (home : ReadResult) : (endReg s r home).clusters = s.clusters := by
  unfold endReg; dsimp only; repeat' split
  all_goals simp

@[simp] theorem endForAdapter_clusters (s : State) (t : Term) (d st h : Nat) :
    (endForAdapter s t d st h).clusters = s.clusters := by
  unfold endForAdapter; repeat' split
  all_goals simp

@[simp] theorem endAwaiting_clusters (s : State) (p i : Nat) (t : Term) (d st : Nat) :
    (endAwaiting s p i t d st).clusters = s.clusters := by
  unfold endAwaiting; split
  · rfl
  · exact foldl_clusters (fun t q => by split <;> simp) _ _

@[simp] theorem retireUsers_clusters (s : State) (p i st : Nat) (force : Bool) :
    (retireUsers s p i st force).clusters = s.clusters := by
  have hu : ((usersOf s p i).foldl (fun t q => updReq t q.h fun x => { x with adGone := true }) s).clusters = s.clusters :=
    foldl_clusters (by simp) _ _
  unfold retireUsers; dsimp only; split
  · simp [hu]
  · rw [foldl_clusters, endAwaiting_clusters, hu]
    intro t q
    repeat' split
    all_goals simp

@[simp] theorem retireAdapter_clusters (force : Bool) (s : State) (m : Taken) :
    (retireAdapter force s m).clusters = s.clusters := by
  unfold retireAdapter; dsimp only; repeat' split
  all_goals simp

@[simp] theorem beginFetch_clusters (s : State) (p : Nat) (a : Adapter) (plan : Bool) :
    (beginFetch s p a plan).clusters = s.clusters := by
  unfold beginFetch; split
  · rfl
  next h => simpa using openPool_clusters h

@[simp] theorem pump_clusters (s : State) (p : Nat) (a0 : Nat) (a1 : List (Nat × Bool)) :
    (pump s p a0 a1).clusters = s.clusters := by
  induction a0 generalizing s a1 with
  | zero => simp [pump]
  | succ f ih =>
    cases a1 with
    | nil => simp [pump]
    | cons e q =>
      unfold pump; dsimp only; split
      · exact ih ..
      · simp
      · rw [updPart_clusters, updPart_clusters, foldl_clusters (by simp)]
      · simp

@[simp] theorem goBad_clusters (s : State) (p i : Nat) : (goBad s p i).clusters = s.clusters := by
  unfold goBad; simp

@[simp] theorem endIfBad_clusters (s : State) (h : Nat) : (endIfBad s h).clusters = s.clusters := by
  unfold endIfBad; repeat' split
  all_goals simp

@[simp] theorem failFetch_clusters (s : State) (a : Adapter) : (failFetch s a).clusters = s.clusters := by
  unfold failFetch; simp

@[simp] theorem retryFetch_clusters (s : State) (a : Adapter) : (retryFetch s a).clusters = s.clusters := by
  unfold retryFetch; split <;> simp

@[simp] theorem endFetch_clusters (s : State) (a : Adapter) (home : ReadResult) : (endFetch s a home).clusters = s.clusters := by
  unfold endFetch; dsimp only; repeat' split
  all_goals simp

/-! ### Requests -/

@[simp] theorem acceptReq_clusters (s : State) (q : Req) : (acceptReq s q).clusters = s.clusters := by
  unfold acceptReq; simp

@[simp] theorem submitReq_clusters (s : State) (m : Taken) (d : Bytes) (t : Tenant) :
    (submitReq s m d t).clusters = s.clusters := by
  unfold submitReq; dsimp only; repeat' split
  all_goals simp

@[simp] theorem submitMsg_clusters (n : Nat) (s : State) (m : Taken) (d : Bytes) : (submitMsg n s m d).clusters = s.clusters := by
  unfold submitMsg; repeat' split
  all_goals simp

@[simp] theorem idlePark_clusters (s : State) (h : Nat) (t : Tenant) : (idlePark s h t).clusters = s.clusters := by
  unfold idlePark; simp

@[simp] theorem idleCondense_clusters (s : State) (q : Req) : (idleCondense s q).clusters = s.clusters := by
  unfold idleCondense; split <;> simp

@[simp] theorem idleAct_clusters (s : State) (q : Req) (t : Tenant) (i : Nat) : (idleAct s q t i).clusters = s.clusters := by
  unfold idleAct; split <;> simp

@[simp] theorem idleBy_clusters (s : State) (t h : Nat) : (idleBy s t h).clusters = s.clusters := by
  unfold idleBy; repeat' split
  all_goals simp

@[simp] theorem expireBy_clusters (s : State) (t h : Nat) : (expireBy s t h).clusters = s.clusters := by
  unfold expireBy; repeat' split
  all_goals simp

@[simp] theorem alreadyEnded_clusters (s : State) (m : Taken) (e : Option Ended) :
    (alreadyEnded s m e).clusters = s.clusters := by
  unfold alreadyEnded; simp

@[simp] theorem cancelBy_clusters (s : State) (h st : Nat) : (cancelBy s h st).clusters = s.clusters := by
  unfold cancelBy; simp

@[simp] theorem cancelMsg_clusters (s : State) (m : Taken) (q : Req) : (cancelMsg s m q).clusters = s.clusters := by
  unfold cancelMsg; simp

@[simp] theorem cancelGone_clusters (s : State) (m : Taken) (e : Option Ended) : (cancelGone s m e).clusters = s.clusters := by
  unfold cancelGone; split <;> simp

/-! ### Conversations -/

@[simp] theorem acceptPause_clusters (s : State) (h : Nat) (w : ConvMsg) (c : Option MsgCtx) :
    (acceptPause s h w c).clusters = s.clusters := by
  unfold acceptPause; repeat' split
  all_goals simp

@[simp] theorem parkMsg_clusters (s : State) (m : Taken) (q : Req) : (parkMsg s m q).clusters = s.clusters := by
  unfold parkMsg; split <;> simp

@[simp] theorem condenseMsg_clusters (s : State) (m : Taken) (q : Req) : (condenseMsg s m q).clusters = s.clusters := by
  unfold condenseMsg; split <;> simp

@[simp] theorem dropMsg_clusters (s : State) (m : Taken) (q : Req) : (dropMsg s m q).clusters = s.clusters := by
  unfold dropMsg; split <;> simp

@[simp] theorem acceptResume_clusters (s : State) (h : Nat) (app : List Nat) (fdl tdl accept : Nat) (c : Option MsgCtx) :
    (acceptResume s h app fdl tdl accept c).clusters = s.clusters := by
  unfold acceptResume; repeat' split
  all_goals simp

@[simp] theorem resumeMsg_clusters (desc : Bytes) (s : State) (m : Taken) (q : Req) :
    (resumeMsg desc s m q).clusters = s.clusters := by
  unfold resumeMsg; dsimp only; repeat' split
  all_goals simp

@[simp] theorem resumeGone_clusters (s : State) (m : Taken) (e : Option Ended) : (resumeGone s m e).clusters = s.clusters := by
  unfold resumeGone; repeat' split
  all_goals simp

@[simp] theorem retryPark_clusters (s : State) (h : Nat) : (retryPark s h).clusters = s.clusters := by
  refine foldl_clusters (fun t i => ?_) _ _
  repeat' split
  all_goals simp

@[simp] theorem restoreStream_clusters (s : State) (h : Nat) (fb : Bool) (kv : List Bytes) :
    (restoreStream s h fb kv).clusters = s.clusters := by
  unfold restoreStream; dsimp only; split
  · rfl
  · split
    · rfl
    next h =>
      rw [foldl_clusters (fun t e => by split <;> simp), charge_clusters, updReq_clusters, openFrames_clusters h, updReq_clusters]

@[simp] theorem chargeEntry_clusters (s : State) (q : Req) : (chargeEntry s q).clusters = s.clusters := by
  unfold chargeEntry; split <;> rfl

@[simp] theorem answerWant_clusters (s : State) (q : Req) (c : Code) : (answerWant s q c).clusters = s.clusters := by
  unfold answerWant; split <;> simp

@[simp] theorem resumeDone_clusters (s : State) (h : Nat) : (resumeDone s h).clusters = s.clusters := by
  unfold resumeDone; repeat' split
  all_goals simp

@[simp] theorem failResume_clusters (s : State) (q : Req) (c : Code) : (failResume s q c).clusters = s.clusters := by
  unfold failResume; simp

@[simp] theorem resumeEnd_clusters (s : State) (h : Nat) (c : WorkCode) : (resumeEnd s h c).clusters = s.clusters := by
  unfold resumeEnd; repeat' split
  all_goals simp

@[simp] theorem settleResume_clusters (s : State) (h : Nat) : (settleResume s h).clusters = s.clusters := by
  unfold settleResume; dsimp only; repeat' split
  all_goals simp

@[simp] theorem ownResume_clusters (s : State) (q : Req) (c : WorkCode) : (ownResume s q c).clusters = s.clusters := by
  unfold ownResume; split <;> simp

@[simp] theorem resumeReadFails_clusters (s : State) (q : Req) : (resumeReadFails s q).clusters = s.clusters := by
  unfold resumeReadFails; split <;> simp

/-! ### Replay -/

@[simp] theorem exportMsg_clusters (s : State) (m : Taken) (q : Req) : (exportMsg s m q).clusters = s.clusters := by
  unfold exportMsg; repeat' split
  all_goals simp

@[simp] theorem exportGone_clusters (s : State) (m : Taken) (e : Option Ended) : (exportGone s m e).clusters = s.clusters := by
  unfold exportGone; repeat' split
  all_goals simp

@[simp] theorem acceptReplay_clusters (s : State) (q : Req) (o : Opening) (serial : Nat) :
    (acceptReplay s q o serial).clusters = s.clusters := by
  unfold acceptReplay; simp

@[simp] theorem startReplay_clusters (capsule : ReadResult) (s : State) (m : Taken) :
    (startReplay capsule s m).clusters = s.clusters := by
  unfold startReplay; dsimp only; repeat' split
  all_goals simp

@[simp] theorem statusMsg_clusters (s : State) (m : Taken) : (statusMsg s m).clusters = s.clusters := by
  unfold statusMsg; dsimp only; repeat' split
  all_goals simp

/-! ### Mgmt -/

@[simp] theorem memberSubmit_clusters (s : State) (m : Taken) (own : Bool) (h : Nat) (d : Bytes) :
    (memberSubmit s m own h d).clusters = s.clusters := by
  unfold memberSubmit; split <;> simp

@[simp] theorem memberReplay_clusters (s : State) (m : Taken) (h : Nat) (d : Bytes) :
    (memberReplay s m h d).clusters = s.clusters := by
  unfold memberReplay; repeat' split
  all_goals simp

@[simp] theorem memberPark_clusters (s : State) (m : Taken) (h : Nat) : (memberPark s m h).clusters = s.clusters := by
  unfold memberPark; repeat' split
  all_goals simp

@[simp] theorem memberCondense_clusters (s : State) (m : Taken) (h : Nat) : (memberCondense s m h).clusters = s.clusters := by
  unfold memberCondense; repeat' split
  all_goals simp

@[simp] theorem responseIn_clusters (s : State) (fn : Nat) (rsp : Bytes) : (responseIn s fn rsp).clusters = s.clusters := by
  unfold responseIn; split <;> simp

@[simp] theorem endedIn_clusters (s : State) (h : Nat) (t : Term) (d : Nat) : (endedIn s h t d).clusters = s.clusters := by
  unfold endedIn; repeat' split
  all_goals simp

@[simp] theorem workIn_clusters (s : State) (p h c : Nat) : (workIn s p h c).clusters = s.clusters := by
  unfold workIn; repeat' split
  all_goals simp

@[simp] theorem takeForward_clusters (s : State) (port : Nat) (m : LinkMsg) : (takeForward s port m).clusters = s.clusters := by
  exact foldl_clusters (fun t a => by simp) _ _

/-! ### Telemetry -/

@[simp] theorem output_clusters (s : State) (m : Taken) (data : Bytes) (addr len : Nat) :
    (output s m data addr len).clusters = s.clusters := by
  unfold output; dsimp only; repeat' split
  all_goals simp

@[simp] theorem telemetryMsg_clusters (s : State) (m : Taken) : (telemetryMsg s m).clusters = s.clusters := by
  unfold telemetryMsg; dsimp only; repeat' split
  all_goals simp

@[simp] theorem accountingMsg_clusters (s : State) (m : Taken) : (accountingMsg s m).clusters = s.clusters := by
  unfold accountingMsg; dsimp only; repeat' split
  all_goals simp

/-! ### Tenants -/

@[simp] theorem tenantDone_clusters (s : State) (m : Taken) : (tenantDone s m).clusters = s.clusters := by
  unfold tenantDone; simp

@[simp] theorem createTenant_clusters (s : State) (m : Taken) (b : TenantBody) : (createTenant s m b).clusters = s.clusters := by
  unfold createTenant; repeat' split
  all_goals simp

@[simp] theorem idleTenant_clusters (s : State) (id t : Nat) : (idleTenant s id t).clusters = s.clusters := by
  refine foldl_clusters (fun t i => ?_) _ _
  repeat' split
  all_goals simp

@[simp] theorem modifyTenant_clusters (s : State) (m : Taken) (b : TenantBody) : (modifyTenant s m b).clusters = s.clusters := by
  unfold modifyTenant; repeat' split
  all_goals simp [foldl_clusters]

@[simp] theorem deleteTenant_clusters (s : State) (m : Taken) (b : TenantBody) : (deleteTenant s m b).clusters = s.clusters := by
  unfold deleteTenant; repeat' split
  all_goals simp

@[simp] theorem installKey_clusters (s : State) (m : Taken) (d : Bytes) : (installKey s m d).clusters = s.clusters := by
  unfold installKey; dsimp only; repeat' split
  all_goals simp

@[simp] theorem spdm_clusters (req : ReadResult) (s : State) (m : Taken) : (spdm req s m).clusters = s.clusters := by
  unfold spdm; dsimp only; repeat' split
  all_goals simp

end Sys2Proof.Machine
end

section
/-! SUPPORT. What writes a cluster keeps its Cluster Store in canonical form (R208, R270). -/

namespace Sys2Proof.Machine

/-! ### Cluster Stores in canonical form -/

/-- Every Cluster Store of a list of clusters lists its non-zero bytes once, in ascending address (R208, R270). -/
def StoresCanonical (cls : List Cluster) : Prop := ∀ cl ∈ cls, cellsOk cl.cs = true

theorem wf_iff_storesCanonical (s : State) : Memory.wf s = true ↔ StoresCanonical s.clusters := by
  simp [Memory.wf, StoresCanonical]

@[simp] theorem cellsOk_nil : cellsOk [] = true := rfl

@[simp] theorem idleCluster_cs (c : Nat) : (idleCluster c).cs = [] := rfl

@[simp] theorem storesCanonical_nil : StoresCanonical [] := by simp [StoresCanonical]

@[simp] theorem storesCanonical_ite {p : Prop} [Decidable p] (l m : List Cluster) :
    StoresCanonical (if p then l else m) ↔ (p → StoresCanonical l) ∧ (¬ p → StoresCanonical m) := by
  split <;> simp [*]

theorem stores_ite {p : Prop} [Decidable p] {s t : State} (hs : StoresCanonical s.clusters) (ht : StoresCanonical t.clusters) :
    StoresCanonical (if p then s else t).clusters := by
  split
  · exact hs
  · exact ht

theorem mem_insertBy {α : Type} {key : α → Nat} {x y : α} {l : List α} (h : y ∈ insertBy key x l) : y = x ∨ y ∈ l := by
  induction l with
  | nil => simpa [insertBy] using h
  | cons a l ih =>
    unfold insertBy at h
    split at h
    · simpa using h
    · rcases List.mem_cons.mp h with rfl | h
      · simp
      · rcases ih h with h | h <;> simp [h]

theorem foldl_stores {α : Type} {f : State → α → State} (hf : ∀ t a, StoresCanonical t.clusters → StoresCanonical
    (f t a).clusters)
    (l : List α) {s : State} (h : StoresCanonical s.clusters) : StoresCanonical (l.foldl f s).clusters := by
  induction l generalizing s with
  | nil => exact h
  | cons a l ih => exact ih (hf s a h)

/-! ### One cluster -/

@[simp] theorem clusterOf_cs {s : State} (c : Nat) (h : StoresCanonical s.clusters) : cellsOk (clusterOf s c).cs = true := by
  unfold clusterOf
  cases e : s.clusters.find? fun x => x.no == c with
  | none => rfl
  | some cl => exact h cl (List.mem_of_find?_eq_some e)

theorem cxOf_cl {s : State} {c : Nat} {x : Cx} (h : cxOf s c = some x) : x.cl = clusterOf s c := by
  unfold cxOf at h
  dsimp only at h
  repeat' split at h
  all_goals cases h
  rfl

theorem cxOf_cs {s : State} {c : Nat} {x : Cx} (hx : cxOf s c = some x) (h : StoresCanonical s.clusters) :
    cellsOk x.cl.cs = true :=
  cxOf_cl hx ▸ clusterOf_cs c h

@[simp] theorem putCluster_stores {s : State} {x : Cluster} (h : StoresCanonical s.clusters) (hx : cellsOk x.cs = true) :
    StoresCanonical (putCluster s x).clusters := by
  intro cl hcl
  rcases mem_insertBy hcl with rfl | hcl
  · exact hx
  · exact h cl (List.mem_of_mem_filter hcl)

@[simp] theorem updCluster_stores {s : State} {c : Nat} {f : Cluster → Cluster} (h : StoresCanonical s.clusters)
    (hf : cellsOk (f (clusterOf s c)).cs = true) : StoresCanonical (updCluster s c f).clusters :=
  putCluster_stores h hf

@[simp] theorem dropCluster_stores {s : State} {c : Nat} (h : StoresCanonical s.clusters) :
    StoresCanonical (dropCluster s c).clusters := fun cl hcl => h cl (List.mem_of_mem_filter hcl)

/-! ### What changes a cluster and not its store -/

@[simp] theorem takeTag_cs (cl : Cluster) (k : QCmd) : (takeTag cl k).cs = cl.cs := by
  unfold takeTag; split <;> rfl

@[simp] theorem raiseTag_cs (cl : Cluster) (t n : Nat) : (raiseTag cl t n).cs = cl.cs := by
  unfold raiseTag; split <;> rfl

@[simp] theorem refill_cs (n : Nat) (cl : Cluster) : (refill n cl).cs = cl.cs := by
  induction n generalizing cl with
  | zero => rfl
  | succ n ih =>
    unfold refill; split
    · rfl
    · split <;> simp [ih]

@[simp] theorem retireHead_cs (now q : Nat) (cl : Cluster) (k : QCmd) : (retireHead now q cl k).cs = cl.cs := by simp [retireHead]

@[simp] theorem issueOnly_cs (q : Nat) (cl : Cluster) (k : QCmd) (f : QCmd → QCmd) : (issueOnly q cl k f).cs = cl.cs := by
  simp [issueOnly]

@[simp] theorem updChan_cs (cl : Cluster) (ch : Nat) (f : Chan → Chan) : (updChan cl ch f).cs = cl.cs := rfl

@[simp] theorem dropEar_cs (cl : Cluster) (d : Nat) : (dropEar cl d).cs = cl.cs := rfl

@[simp] theorem putEar_cs (cl : Cluster) (e : Ear) : (putEar cl e).cs = cl.cs := rfl

@[simp] theorem reduceInto_cs (cl : Cluster) (d : Nat) (g : ChanMsg) : (reduceInto cl d g).cs = cl.cs := by
  unfold reduceInto; dsimp only; repeat' split
  all_goals simp

@[simp] theorem returnedPlaces_cs (cl : Cluster) (ch n : Nat) : (returnedPlaces cl ch n).cs = cl.cs := rfl

@[simp] theorem operandBytes_cs (cl : Cluster) (port unit n : Nat) : (operandBytes cl port unit n).2.cs = cl.cs := by
  unfold operandBytes; split <;> rfl

@[simp] theorem clusterTick_cs (s : State) (cl : Cluster) : (clusterTick s cl).cs = cl.cs := by
  unfold clusterTick; repeat' split
  all_goals rfl

@[simp] theorem sendDone_cs (s : State) (x : Cx) (k : QCmd) (r : Route) : (sendDone s x k r).2.cs = x.cl.cs := by
  unfold sendDone; dsimp only; repeat' split
  all_goals simp

/-! ### What writes a store -/

@[simp] theorem csPut_cs {cl : Cluster} (unit : Nat) (bs : Bytes) (h : cellsOk cl.cs = true) : cellsOk
    (csPut cl unit bs).cs = true :=
  csWrite_cellsOk _ bs h

@[simp] theorem deliverInto_cs {cl : Cluster} (b : Binding) (g : ChanMsg) (h : cellsOk cl.cs = true) :
    cellsOk (deliverInto cl b g).cs = true := by
  unfold deliverInto; split
  · simpa using h
  · split
    · exact csWrite_cellsOk _ _ h
    · exact h

/-- A cluster restored from a shelf has the store that the shelf frames give it (R295). -/
@[simp] theorem resumeCluster_cs (s : State) (l : Layout) (a : Attempt) (c : CheapPt) (rank : Nat) (cl : Cluster) :
    cellsOk (resumeCluster s l a c rank cl).cs = true := by
  simp only [resumeCluster, refill_cs, raiseTag_cs]
  have key : ∀ (rs : List (CpRange × Bytes)) (m : List Host.Cell), cellsOk m = true →
      cellsOk (rs.foldl (fun m e => if e.1.rank == rank then csWrite m (512 * e.1.off) e.2 else m) m) = true := by
    intro rs
    induction rs with
    | nil => exact fun m h => h
    | cons e rs ih =>
      intro m h
      refine ih _ ?_
      dsimp only
      split
      · exact csWrite_cellsOk _ _ h
      · exact h
  exact key _ [] rfl

@[simp] theorem guarded_stores {s t : State} (hs : StoresCanonical s.clusters) (ht : StoresCanonical t.clusters) :
    StoresCanonical (guarded s t).clusters := by
  unfold guarded; split <;> simp [hs, ht]

theorem withMsg_stores {s : State} {fn : Nat} {via : Via} {isRow : Bytes → Bool} {core : State → Taken → State}
    (hc : ∀ t m, StoresCanonical t.clusters → StoresCanonical (core t m).clusters) (hs : StoresCanonical s.clusters) :
    StoresCanonical (withMsg s fn via isRow core).clusters := by
  have ht : ∀ cmd, StoresCanonical (takeMsg s fn via cmd).1.clusters := fun cmd => by
    rw [← took, took_clusters]; exact hs
  unfold withMsg
  split
  · exact hs
  · split
    · exact hs
    · dsimp only
      split
      · simpa using ht _
      · exact hc _ _ (ht _)

/-! ### Plan -/

@[simp] theorem freeze_stores {s : State} {p f no : Nat} (hs : StoresCanonical s.clusters) :
    StoresCanonical (freeze s p f no).clusters := by
  simp [freeze, hs]

/-! ### Kill -/

@[simp] theorem releaseAttempt_stores {s : State} {p : Nat} {a : Attempt} (hs : StoresCanonical s.clusters) :
    StoresCanonical (releaseAttempt s p a).clusters := by
  simp only [releaseAttempt, dropProvisional_clusters, reserveAll_clusters, freeFrames_clusters]
  exact foldl_stores (fun t c ht => putCluster_stores (by simpa using ht) (by simp)) _ hs

@[simp] theorem killStart_stores {s : State} {p reason : Nat} {rr : Rerun} {tell : Bool} (hs : StoresCanonical s.clusters) :
    StoresCanonical (killStart s p reason rr tell).clusters := by
  unfold killStart; dsimp only; split
  · exact hs
  · split
    · simpa using hs
    next a _ _ =>
      have hb : StoresCanonical (if a.phase == .claim || a.phase == .shelved then closeInterval s p a else s).clusters := by simp [hs]
      simp only [ite_clusters, sendOthers_clusters, ite_self, updPart_clusters]
      rw [foldl_clusters (by simp), foldl_clusters (by simp), breakSems_clusters, countPreempt_clusters]
      exact releaseAttempt_stores hb

@[simp] theorem freeClusters_stores {s : State} {cs : List Nat} (hs : StoresCanonical s.clusters) :
    StoresCanonical (freeClusters s cs).clusters := by
  refine foldl_stores (fun t a ht => ?_) _ hs
  simp [ht]

@[simp] theorem completeKill_stores {s : State} {p : Nat} (hs : StoresCanonical s.clusters) :
    StoresCanonical (completeKill s p).clusters := by
  unfold completeKill; dsimp only; split
  · exact hs
  next a _ =>
    have hb : StoresCanonical (if a.clusters.isEmpty then s else closeInterval s p a).clusters := by simp [hs]
    have hc := freeClusters_stores (cs := a.clusters) hb
    split
    · simpa only [updPart_clusters, takePins_clusters, reserveAll_clusters, markIdlePorts_clusters] using hc
    · simpa only [updPart_clusters, takePins_clusters, reserveAll_clusters, markIdlePorts_clusters] using hc
    · simpa only [endCancelled_clusters, settleRetiring_clusters, plannedPauses_clusters, updPart_clusters, markIdlePorts_clusters] using hc
    · have hd : StoresCanonical (endCancelled (settleRetiring (plannedPauses (markIdlePorts (updPart (freeClusters
          (if a.clusters.isEmpty then s else closeInterval s p a) a.clusters) p fun x => { x with sems := [], probes := [], attempt := none }))
          (planHandles a)) p) p).clusters := by
        simpa only [endCancelled_clusters, settleRetiring_clusters, plannedPauses_clusters, updPart_clusters, markIdlePorts_clusters] using hc
      exact stores_ite hd (stores_ite (by simpa only [updPart_clusters] using hd) (freeze_stores hd))

@[simp] theorem dropAttempt_stores {s : State} {p : Nat} (hs : StoresCanonical s.clusters) :
    StoresCanonical (dropAttempt s p).clusters := by
  unfold dropAttempt; dsimp only; split
  · exact hs
  next a _ =>
    simp only [markIdlePorts_clusters, updPart_clusters]
    refine freeClusters_stores ?_
    split
    · exact hs
    · simp only [breakSems_clusters, countPreempt_clusters]
      exact releaseAttempt_stores (by simpa using hs)

/-! ### Fault -/

@[simp] theorem enterQuarantine_stores {s : State} (hs : StoresCanonical s.clusters) :
    StoresCanonical (enterQuarantine s).clusters := by
  unfold enterQuarantine; dsimp only
  have hd : StoresCanonical ((List.range 8).foldl dropAttempt
      (endSessions (holdPorts (setPkg { s with flt := { s.flt with faultN := true, quietN := true } } .entering)))).clusters :=
    foldl_stores (fun t p ht => dropAttempt_stores ht) _ (by simpa only [endSessions_clusters, holdPorts_clusters, setPkg_clusters] using hs)
  split
  · rw [goQuiet_clusters, foldl_clusters (by simp), failPending_clusters, dropTransfers_clusters]
    exact hd
  · rw [foldl_clusters (by simp), foldl_clusters (by simp), failPending_clusters, dropTransfers_clusters]
    exact hd

@[simp] theorem doubt_stores {s : State} {source part unit detail : Nat} (hs : StoresCanonical s.clusters) :
    StoresCanonical (doubt s source part unit detail).clusters := by
  unfold doubt; split <;> simp [hs]

/-! ### Ledger -/

@[simp] theorem closeLedger_stores {s : State} {ps : List Nat} (hs : StoresCanonical s.clusters) :
    StoresCanonical (closeLedger s ps).clusters := by
  have hc : (settleBalances (snapshot (ps.foldl releaseEnded s) ps (imbalance (ps.foldl releaseEnded s) ps)) ps).clusters = s.clusters := by
    rw [settleBalances_clusters, snapshot_clusters, foldl_clusters (by simp)]
  unfold closeLedger; dsimp only; split
  · exact hc ▸ hs
  · exact doubt_stores (hc ▸ hs)

@[simp] theorem domainUp_stores {s : State} {d : Nat} (hs : StoresCanonical s.clusters) :
    StoresCanonical (domainUp s d).clusters := by
  simp [domainUp, hs]

@[simp] theorem domainsUp_stores {s : State} {p : Nat} (hs : StoresCanonical s.clusters) :
    StoresCanonical (domainsUp s p).clusters := by
  refine foldl_stores (fun t a ht => ?_) _ hs
  simp [ht]

@[simp] theorem abortPart_stores {s : State} {p st : Nat} (hs : StoresCanonical s.clusters) :
    StoresCanonical (abortPart s p st).clusters := by
  simp only [abortPart, emptyPart_clusters, stopPart_clusters, abortRequests_clusters]
  exact stores_ite (dropAttempt_stores (by simpa using hs)) (killStart_stores (by simpa using hs))

@[simp] theorem wipePart_stores {s : State} {p : Nat} (hs : StoresCanonical s.clusters) :
    StoresCanonical (wipePart s p).clusters := by
  unfold wipePart; dsimp only
  simp only [clearPool_clusters]
  rw [foldl_clusters (by simp), updPart_clusters, stopPart_clusters, foldl_clusters (by simp)]
  exact stores_ite (dropAttempt_stores (by simpa using hs)) (killStart_stores (by simpa using hs))

@[simp] theorem startReset_stores {s : State} {p : Nat} (hs : StoresCanonical s.clusters) :
    StoresCanonical (startReset s p).clusters := by
  unfold startReset; dsimp only; split
  · simpa using hs
  · exact wipePart_stores (by simpa using hs)

@[simp] theorem leaderReset_stores {s : State} {p : Nat} (hs : StoresCanonical s.clusters) :
    StoresCanonical (leaderReset s p).clusters := by
  simp [leaderReset, hs]

@[simp] theorem resetPart_stores {s : State} {p : Nat} (hs : StoresCanonical s.clusters) :
    StoresCanonical (resetPart s p).clusters := by
  simp [resetPart, hs]

@[simp] theorem resetIn_stores {s : State} {p key : Nat} (hs : StoresCanonical s.clusters) :
    StoresCanonical (resetIn s p key).clusters := by
  simp [resetIn, hs]

@[simp] theorem waitedResets_stores {s : State} (hs : StoresCanonical s.clusters) :
    StoresCanonical (waitedResets s).clusters := by
  refine foldl_stores (fun t a ht => ?_) _ hs; split <;> simp [ht]

@[simp] theorem packageClose_stores {s : State} (hs : StoresCanonical s.clusters) :
    StoresCanonical (packageClose s).clusters := by
  have hc : StoresCanonical (closeLedger s (List.range 8)).clusters := closeLedger_stores hs
  unfold packageClose; dsimp only; split
  · exact hc
  · rw [foldl_clusters (by simp), retryStreams_clusters]
    exact hc

/-! ### Commit -/

@[simp] theorem commitItems_stores {s : State} {p c : Nat} {cut : List Nat} (hs : StoresCanonical s.clusters) :
    StoresCanonical (commitItems s p c cut).clusters := by
  unfold commitItems; dsimp only; split
  · exact hs
  next a _ =>
    have hr : ∀ (l : List Nat) (acc : State × List StepOut), (l.foldl (fun acc q =>
        ((commitReq acc.1 a c cut q).1, acc.2 ++ [(commitReq acc.1 a c cut q).2])) acc).1.clusters = acc.1.clusters := by
      intro l
      induction l with
      | nil => exact fun acc => rfl
      | cons q l ih => exact fun acc => (ih _).trans (commitReq_clusters ..)
    refine closeLedger_stores ?_
    rw [reapModels_clusters, settleRetiring_clusters, foldl_clusters (by simp), foldl_clusters]
    · simp only [markIdlePorts_clusters, updPart_clusters]
      refine freeClusters_stores ?_
      rw [foldl_clusters (by simp), admitRows_clusters, foldl_clusters (by simp), accountStep_clusters, settleBudgets_clusters, hr]
      exact hs
    · intro t o
      repeat' split
      all_goals simp

@[simp] theorem nextPlan_stores {s : State} {p c : Nat} (hs : StoresCanonical s.clusters) :
    StoresCanonical (nextPlan s p c).clusters := by
  simp [nextPlan, hs]

@[simp] theorem memberReady_stores {s : State} {p : Nat} (hs : StoresCanonical s.clusters) :
    StoresCanonical (memberReady s p).clusters := by
  unfold memberReady; dsimp only; repeat' split
  all_goals simp [hs]

/-! ### Cluster -/

@[simp] theorem withArray_stores {s t : State} {c : Nat} {k : PClass} (hs : StoresCanonical s.clusters)
    (ht : StoresCanonical t.clusters) : StoresCanonical (withArray s c k t).clusters := by
  unfold withArray; split <;> simp [hs, ht]

@[simp] theorem withAmvu_stores {s t : State} {c : Nat} (hs : StoresCanonical s.clusters) (ht : StoresCanonical t.clusters) :
    StoresCanonical (withAmvu s c t).clusters := by
  unfold withAmvu; split <;> simp [hs, ht]

@[simp] theorem twinPut_stores {s : State} {x : Cx} {k : QCmd} {out : Bytes} {inputs : List (Nat × Nat)}
    (hs : StoresCanonical s.clusters) :
    StoresCanonical (twinPut s x k out inputs).clusters := by
  unfold twinPut; dsimp only; split
  · simp only [updPart_clusters]
    exact updCluster_stores (by simpa using hs) (clusterOf_cs _ (by simpa using hs))
  · exact hs

theorem withCmd_stores {s : State} {c op : Nat} {f : Cx → QCmd → State} (hs : StoresCanonical s.clusters)
    (hf : ∀ x k, cellsOk x.cl.cs = true → StoresCanonical (f x k).clusters) : StoresCanonical (withCmd s c op f).clusters := by
  unfold withCmd
  split
  · exact hs
  next hx =>
    split
    · exact hs
    · split
      · exact hs
      · split
        · exact hf _ _ (cxOf_cs hx hs)
        · exact hs

@[simp] theorem completeOut_stores {s : State} {c : Nat} {x : Cx} {k : QCmd} {cl : Cluster} {out : Bytes} {inputs : List
    (Nat × Nat)} (hs : StoresCanonical s.clusters) (hcl : cellsOk cl.cs = true) :
    StoresCanonical (completeOut s c x k cl out inputs).clusters := by
  simp only [completeOut, layerEnd_clusters]
  refine twinPut_stores (putCluster_stores hs ?_)
  simp only [retireHead_cs]
  split <;> exact hcl

@[simp] theorem complete_stores {s : State} {c : Nat} {x : Cx} {k : QCmd} {cl : Cluster} (hs : StoresCanonical s.clusters)
    (hcl : cellsOk cl.cs = true) :
    StoresCanonical (complete s c x k cl).clusters := by
  simp [complete, hs, hcl]

@[simp] theorem withStore_stores {s t : State} {c : Nat} {x : Cx} {reads writes : List (Nat × Nat)}
    (hs : StoresCanonical s.clusters)
    (ht : StoresCanonical t.clusters) : StoresCanonical (withStore s c x reads writes t).clusters := by
  unfold withStore; repeat' split
  all_goals simp [hs, ht]

@[simp] theorem finishEar_stores {s : State} {c : Nat} {x : Cx} {k : QCmd} {cl : Cluster} {a : Anchor} {ear : Ear} {rows :
    List Nat} {reads : List (Nat × Nat)} (hs : StoresCanonical s.clusters) (hcl : cellsOk cl.cs = true) :
    StoresCanonical (finishEar s c x k cl a ear rows reads).clusters := by
  unfold finishEar; dsimp only
  split
  · split
    · exact hs
    · exact withStore_stores hs (completeOut_stores (by simp [hs]) (csPut_cs _ _ (by simpa using hcl)))
  · exact withStore_stores hs (completeOut_stores hs (by simpa using hcl))

@[simp] theorem startInvocation_stores {s : State} {p : Nat} {left : List Nat} (hs : StoresCanonical s.clusters) :
    StoresCanonical (startInvocation s p left).clusters := by
  unfold startInvocation; dsimp only; split
  · split
    · exact hs
    · split
      · exact hs
      · refine foldl_stores (fun t e ht => updCluster_stores ht ?_) _ (by simpa using hs)
        simp [ht]
  · exact hs

/-! ### Move -/

@[simp] theorem chanPut_stores {s : State} {c ch : Nat} {m : ChanMsg} (hs : StoresCanonical s.clusters) :
    StoresCanonical (chanPut s c ch m).clusters := by
  simp [chanPut, hs]

@[simp] theorem placeMsg_stores {s : State} {c : Nat} {x : Cx} {k : QCmd} {r : Route} {ch n : Nat}
    (hs : StoresCanonical s.clusters) :
    StoresCanonical (placeMsg s c x k r ch n).clusters := by
  simp [placeMsg, hs]

@[simp] theorem xpKill_stores {s : State} {x : Cx} {tensor : Nat} (hs : StoresCanonical s.clusters) :
    StoresCanonical (xpKill s x tensor).clusters := by
  simp [xpKill, hs]

@[simp] theorem sendLoop_stores {c f : Nat} {s : State} (hs : StoresCanonical s.clusters) :
    StoresCanonical (sendLoop c f s).clusters := by
  induction f generalizing s with
  | zero => exact hs
  | succ f ih =>
    unfold sendLoop
    split
    · exact hs
    next x hx =>
      have hcl := cxOf_cs hx hs
      split
      · exact hs
      next k _ =>
        split
        · exact hs
        next r _ =>
          dsimp only
          split
          · exact complete_stores (by simpa using hs) (by simpa using hcl)
          · have hb : StoresCanonical (putCluster s (issueOnly 3 x.cl k fun j => j)).clusters := putCluster_stores hs (by simpa using hcl)
            split
            · exact hb
            · split
              · exact xpKill_stores hs
              · split
                · exact hb
                · have hp := placeMsg_stores (c := c) (x := x) (k := k) (r := r) (ch := k.cmd.aux % 16) (n := k.sent) hs
                  exact ih (updCluster_stores hp (by simp [hp]))

@[simp] theorem deliverHead_stores {s : State} {c ch : Nat} (hs : StoresCanonical s.clusters) :
    StoresCanonical (deliverHead s c ch).clusters := by
  unfold deliverHead
  split
  · exact hs
  next x hx =>
    have hcl := cxOf_cs hx hs
    dsimp only
    split
    next g gs b bs _ _ =>
      have hd : ∀ f, cellsOk (deliverInto (updChan x.cl ch f) b g).cs = true := fun f => deliverInto_cs b g hcl
      have hp : ∀ cl, cellsOk (Cluster.cs cl) = true → StoresCanonical (returnPlaces (putCluster s cl) x g).clusters :=
        fun cl h => by simpa using putCluster_stores hs h
      have hc : ∀ (f : Chan → Chan) (l : Bool), cellsOk (Cluster.cs (if l then raiseTag (deliverInto (updChan x.cl ch f) b g) b.signal 1
          else deliverInto (updChan x.cl ch f) b g)) = true := fun f l => by cases l <;> simpa using hd f
      split
      · exact withStore_stores hs (hp _ (hc _ _))
      · exact hp _ (hc _ _)
    next => exact hs

@[simp] theorem deadlock_stores {s : State} {x : Cx} {c : Nat} (hs : StoresCanonical s.clusters) :
    StoresCanonical (deadlock s x c).clusters := by
  unfold deadlock; split
  · simp [hs]
  · exact killStart_stores (by simpa using hs)

/-! ### Sems -/

@[simp] theorem semAdd_stores {s : State} {p : Nat} {m : Sem} {n : Nat} (hs : StoresCanonical s.clusters) :
    StoresCanonical (semAdd s p m n).clusters := by
  unfold semAdd; dsimp only; repeat' split
  all_goals simp [hs, foldl_clusters]

@[simp] theorem brokenKill_stores {s : State} {p : Nat} (hs : StoresCanonical s.clusters) :
    StoresCanonical (brokenKill s p).clusters := by
  simp [brokenKill, hs]

@[simp] theorem issueWait_stores {s : State} {x : Cx} {k : QCmd} (hs : StoresCanonical s.clusters) (hx : cellsOk x.cl.cs = true) :
    StoresCanonical (issueWait s x k).clusters := by
  exact putCluster_stores hs (by simpa using hx)

@[simp] theorem semRelayIn_stores {s : State} {m : LinkMsg} (hs : StoresCanonical s.clusters) :
    StoresCanonical (semRelayIn s m).clusters := by
  unfold semRelayIn; dsimp only; repeat' split
  all_goals simp [hs]

/-! ### Stage -/

@[simp] theorem stageKv_stores {s : State} {c : Nat} {x : Cx} {k : QCmd} (hs : StoresCanonical s.clusters)
    (hx : cellsOk x.cl.cs = true) :
    StoresCanonical (stageKv s c x k).clusters := by
  unfold stageKv; dsimp only; split
  · exact complete_stores hs hx
  · exact withStore_stores hs (complete_stores (by simpa using hs) hx)

@[simp] theorem stageVec_stores {s : State} {c : Nat} {x : Cx} {k : QCmd} (hs : StoresCanonical s.clusters)
    (hx : cellsOk x.cl.cs = true) :
    StoresCanonical (stageVec s c x k).clusters := by
  unfold stageVec
  exact withStore_stores hs (complete_stores (by simpa using hs) hx)

@[simp] theorem downgrade_stores {s : State} {p : Nat} (hs : StoresCanonical s.clusters) :
    StoresCanonical (downgrade s p).clusters := by
  simp [downgrade, hs]

@[simp] theorem bindClusters_stores {s : State} {p : Nat} {cs : List Nat} (hs : StoresCanonical s.clusters) :
    StoresCanonical (bindClusters s p cs).clusters := by
  exact foldl_stores (fun t e ht => putCluster_stores ht (by simp)) _ hs

@[simp] theorem grantFresh_stores {s : State} {p : Nat} {a : Attempt} (hs : StoresCanonical s.clusters) :
    StoresCanonical (grantFresh s p a).clusters := by
  unfold grantFresh
  refine startInvocation_stores ?_
  simp only [updAtt_clusters]
  exact bindClusters_stores (by simpa using hs)

@[simp] theorem grantClaim_stores {s : State} {p : Nat} (hs : StoresCanonical s.clusters) :
    StoresCanonical (grantClaim s p).clusters := by
  unfold grantClaim; split
  · exact hs
  · split
    · exact hs
    · split
      · have hf : ∀ f no, StoresCanonical (freeze (updPart s p fun x => { x with attempt := none }) p f no).clusters :=
          fun f no => freeze_stores (by simpa using hs)
        dsimp only; split
        · exact grantFresh_stores (hf _ _)
        · simpa using hf _ _
      · exact grantFresh_stores hs

@[simp] theorem preemptKill_stores {s : State} {p : Nat} {turn told : Bool} (hs : StoresCanonical s.clusters) :
    StoresCanonical (preemptKill s p turn told).clusters := by
  simp [preemptKill, hs]

@[simp] theorem beginShelve_stores {s : State} {p : Nat} {point : Option Nat} (hs : StoresCanonical s.clusters) :
    StoresCanonical (beginShelve s p point).clusters := by
  unfold beginShelve; dsimp only; repeat' split
  all_goals simp [hs]

@[simp] theorem preempt_stores {s : State} {p : Nat} {turn : Bool} (hs : StoresCanonical s.clusters) :
    StoresCanonical (preempt s p turn).clusters := by
  unfold preempt; split <;> simp [hs]

@[simp] theorem preemptAsked_stores {s : State} {p : Nat} (hs : StoresCanonical s.clusters) :
    StoresCanonical (preemptAsked s p).clusters := by
  unfold preemptAsked; split <;> simp [hs]

@[simp] theorem requeueTwins_stores {s : State} {a : Attempt} (hs : StoresCanonical s.clusters) :
    StoresCanonical (requeueTwins s a).clusters := by
  refine foldl_stores (fun t a ht => ?_) _ hs
  simp [ht]

@[simp] theorem grantShelved_stores {s : State} {p : Nat} (hs : StoresCanonical s.clusters) :
    StoresCanonical (grantShelved s p).clusters := by
  unfold grantShelved
  split
  · exact hs
  next a _ =>
    split
    · simp [hs]
    · repeat (split; · exact hs)
      simp only [updAtt_clusters, freeFrames_clusters]
      refine requeueTwins_stores (foldl_stores (fun t e ht => updCluster_stores ht (by simp)) _ (bindClusters_stores ?_))
      simpa using hs

/-! ### Steps -/

@[simp] theorem planWhole_stores {s : State} {p : Nat} {a : Attempt} (hs : StoresCanonical s.clusters) :
    StoresCanonical (planWhole s p a).clusters := by
  simp [planWhole, hs]

@[simp] theorem planPiece_stores {s : State} {p : Nat} {m : Nat × Nat × Bytes} (hs : StoresCanonical s.clusters) :
    StoresCanonical (planPiece s p m).clusters := by
  unfold planPiece; dsimp only; split
  · exact hs
  · split
    · exact hs
    · split
      · exact planWhole_stores (by simpa using hs)
      · simpa using hs

@[simp] theorem killBond_stores {s : State} {n : Nat} (hs : StoresCanonical s.clusters) :
    StoresCanonical (killBond s n).clusters := by
  refine foldl_stores (fun t a ht => ?_) _ hs; split <;> simp [ht]

@[simp] theorem portDown_stores {s : State} {n : Nat} {r : DownReason} (hs : StoresCanonical s.clusters) :
    StoresCanonical (portDown s n r).clusters := by
  unfold portDown; dsimp only; split
  · exact hs
  · split
    · simpa using hs
    · split
      · simp only [finishLeaving_clusters, sendPortLost_clusters]
        exact killBond_stores (by simpa using hs)
      · split
        · exact doubt_stores (by simpa using hs)
        · simpa using hs

@[simp] theorem enterRecovery_stores {s : State} {n : Nat} (hs : StoresCanonical s.clusters) :
    StoresCanonical (enterRecovery s n).clusters := by
  unfold enterRecovery; dsimp only; split
  · exact portDown_stores (by simpa using hs)
  · simpa using hs

@[simp] theorem takePayload_stores {s : State} {n v : Nat} {payload : Bytes} (hs : StoresCanonical s.clusters) :
    StoresCanonical (takePayload s n v payload).clusters := by
  unfold takePayload; dsimp only; split
  · exact doubt_stores (by simpa using hs)
  · simpa using hs

@[simp] theorem nakIn_stores {s : State} {n : Nat} (hs : StoresCanonical s.clusters) :
    StoresCanonical (nakIn s n).clusters := by
  unfold nakIn; dsimp only; split
  · exact enterRecovery_stores (by simpa using hs)
  · simpa using hs

@[simp] theorem dataIn_stores {s : State} {n v : Nat} {payload : Bytes} (hs : StoresCanonical s.clusters) :
    StoresCanonical (dataIn s n v payload).clusters := by
  unfold dataIn; dsimp only; split
  · simp [hs]
  · simp only [updPort_clusters]
    exact takePayload_stores (by simpa using hs)

/-! ### Ports -/

@[simp] theorem detectPort_stores {s : State} {n : Nat} (hs : StoresCanonical s.clusters) :
    StoresCanonical (detectPort s n).clusters := by
  exact domainUp_stores (by simpa using hs)

@[simp] theorem enablePorts_stores {s : State} {mask : Nat} (hs : StoresCanonical s.clusters) :
    StoresCanonical (enablePorts s mask).clusters := by
  refine foldl_stores (fun t a ht => ?_) _ hs
  simp [ht]

@[simp] theorem startPort_stores {s : State} {n : Nat} (hs : StoresCanonical s.clusters) :
    StoresCanonical (startPort s n).clusters := by
  unfold startPort; split <;> simp [hs]

@[simp] theorem startPorts_stores {s : State} (hs : StoresCanonical s.clusters) :
    StoresCanonical (startPorts s).clusters := by
  refine foldl_stores (fun t a ht => ?_) _ hs
  simp [ht]

@[simp] theorem finishRtt_stores {s : State} {n : Nat} (hs : StoresCanonical s.clusters) :
    StoresCanonical (finishRtt s n).clusters := by
  simp [finishRtt, hs]

@[simp] theorem finishRecovery_stores {s : State} {n : Nat} {info : TrainInfo} (hs : StoresCanonical s.clusters) :
    StoresCanonical (finishRecovery s n info).clusters := by
  simp [finishRecovery, hs]

/-! ### Resets -/

@[simp] theorem resetTo_stores {s : State} {b : Boot} (hs : StoresCanonical s.clusters) :
    StoresCanonical (resetTo s b).clusters := by
  simp [resetTo, State.reset]

@[simp] theorem warmReset_stores {s : State} (hs : StoresCanonical s.clusters) :
    StoresCanonical (warmReset s).clusters := by
  simp [warmReset, hs]

@[simp] theorem partitionReset_stores {s : State} {value : Nat} (hs : StoresCanonical s.clusters) :
    StoresCanonical (partitionReset s value).clusters := by
  simp [partitionReset, hs]

/-! ### Registers -/

@[simp] theorem dtcReset_stores {s t : State} (hs : StoresCanonical s.clusters) (ht : StoresCanonical t.clusters) :
    StoresCanonical (dtcReset s t).clusters := by
  unfold dtcReset; split <;> simp [hs, ht]

@[simp] theorem bar0Word_stores {s : State} {fn off : Nat} {bs : Bytes} (hs : StoresCanonical s.clusters) :
    StoresCanonical (bar0Word s fn off bs).clusters := by
  simp [bar0Word, hs]

@[simp] theorem resetView_stores {s : State} (hs : StoresCanonical s.clusters) :
    StoresCanonical (resetView s).clusters := by
  simp [resetView, State.reset]

@[simp] theorem shown_stores {s : State} (hs : StoresCanonical s.clusters) :
    StoresCanonical (shown s).clusters := by
  simp [shown, hs]

/-! ### Tick -/

@[simp] theorem clockTick_stores {s : State} (hs : StoresCanonical s.clusters) :
    StoresCanonical (clockTick s).clusters := by
  intro cl hcl
  obtain ⟨y, hy, rfl⟩ := List.mem_map.mp hcl
  simpa using hs y hy

@[simp] theorem tick_stores {s : State} (hs : StoresCanonical s.clusters) :
    StoresCanonical (tick s).clusters := by
  unfold tick; dsimp only; repeat' split
  all_goals simp [hs, foldl_clusters]

/-! ### Boot -/

@[simp] theorem applyCfg_stores {s : State} {cfg : Bytes} (hs : StoresCanonical s.clusters) :
    StoresCanonical (applyCfg s cfg).clusters := by
  unfold applyCfg; dsimp only; repeat' split
  all_goals simp [hs, foldl_clusters]

@[simp] theorem boardConfig_stores {s : State} {r : ReadResult} (hs : StoresCanonical s.clusters) :
    StoresCanonical (boardConfig s r).clusters := by
  unfold boardConfig; repeat' split
  all_goals simp [hs]

@[simp] theorem preemptForFw_stores {s : State} {p : Nat} (hs : StoresCanonical s.clusters) :
    StoresCanonical (preemptForFw s p).clusters := by
  unfold preemptForFw; split <;> simp [hs]

@[simp] theorem beginQuiesce_stores {s : State} (hs : StoresCanonical s.clusters) :
    StoresCanonical (beginQuiesce s).clusters := by
  exact foldl_stores (fun t p ht => preemptForFw_stores ht) _ (by simpa using hs)

@[simp] theorem fwActivate_stores {s : State} {m : Taken} {image : ReadResult} (hs : StoresCanonical s.clusters) :
    StoresCanonical (fwActivate s m image).clusters := by
  unfold fwActivate; repeat' split
  all_goals simp [hs]

@[simp] theorem leaveHold_stores {s : State} (hs : StoresCanonical s.clusters) :
    StoresCanonical (leaveHold s).clusters := by
  refine foldl_stores (fun t a ht => ?_) _ hs; split <;> simp [ht]

@[simp] theorem resumeServing_stores {s : State} (hs : StoresCanonical s.clusters) :
    StoresCanonical (resumeServing s).clusters := by
  unfold resumeServing; dsimp only; repeat' split
  all_goals simp [hs]

/-! ### Forward -/

@[simp] theorem classF_stores {core : State → Taken → State} {s : State} {m : Taken}
    (hc : StoresCanonical (core s m).clusters) (hs : StoresCanonical s.clusters) : StoresCanonical (classF core s m).clusters := by
  unfold classF; split <;> simp [hs, hc]

@[simp] theorem withDesc_stores {core : State → Taken → Bytes → State} {s : State} {addr n : Nat} {desc : ReadResult} {isF : Bool}
    {m : Taken} (hc : ∀ d, StoresCanonical (core s m d).clusters) (hs : StoresCanonical s.clusters) :
    StoresCanonical (withDesc addr n desc isF core s m).clusters := by
  unfold withDesc; repeat' split
  all_goals simp [hs, hc]

/-! ### Partitions -/

@[simp] theorem createPart_stores {s : State} {m : Taken} {d : Bytes} (hs : StoresCanonical s.clusters) :
    StoresCanonical (createPart s m d).clusters := by
  have hd : ∀ f, StoresCanonical (domainsUp (updPart s m.ctx.part f) m.ctx.part).clusters := fun f => domainsUp_stores (by simpa using hs)
  unfold createPart; dsimp only; repeat' split
  all_goals simp [hs, hd]

@[simp] theorem startAbort_stores {s : State} {p st : Nat} {cs : List MsgCtx} (hs : StoresCanonical s.clusters) :
    StoresCanonical (startAbort s p st cs).clusters := by
  exact abortPart_stores (by simpa using hs)

@[simp] theorem abortMsg_stores {s : State} {m : Taken} (hs : StoresCanonical s.clusters) :
    StoresCanonical (abortMsg s m).clusters := by
  simp [abortMsg, hs]

/-! ### Sinter -/

@[simp] theorem frameSealed_stores {s : State} {n : Nat} {lanesEqual : Bool} (hs : StoresCanonical s.clusters) :
    StoresCanonical (frameSealed s n lanesEqual).clusters := by
  unfold frameSealed; split <;> simp [hs]

@[simp] theorem scrubFrame_stores {s : State} {n : Nat} {ecc : EccRead} {digestEqual : Bool} (hs : StoresCanonical s.clusters) :
    StoresCanonical (scrubFrame s n ecc digestEqual).clusters := by
  unfold scrubFrame; dsimp only; split
  · split <;> simp [hs]
  · split
    · exact doubt_stores (by simpa using hs)
    · simpa using hs
  · split <;> simp [hs]

/-! ### Requests -/

@[simp] theorem submitDesc_stores {desc : ReadResult} {s : State} {m : Taken} (hs : StoresCanonical s.clusters) :
    StoresCanonical (submitDesc desc s m).clusters := by
  simp [submitDesc, hs]

@[simp] theorem freezeBy_stores {s : State} {t p : Nat} (hs : StoresCanonical s.clusters) :
    StoresCanonical (freezeBy s t p).clusters := by
  unfold freezeBy; split <;> simp [hs]

@[simp] theorem lapse_stores {expires : Bool} {s : State} {t p h : Nat} (hs : StoresCanonical s.clusters) :
    StoresCanonical (lapse expires s t p h).clusters := by
  simp [lapse, hs]

theorem withHandle_stores {core : State → Taken → Req → State} {gone : State → Taken → Option Ended → State} {s : State}
    {expires : Bool} {fields : List (Nat × Nat)} {okIn : PartState → Bool} {m : Taken}
    (hc : ∀ t q, StoresCanonical t.clusters → StoresCanonical (core t m q).clusters)
    (hg : ∀ t e, StoresCanonical t.clusters → StoresCanonical (gone t m e).clusters) (hs : StoresCanonical s.clusters) :
    StoresCanonical (withHandle expires fields okIn core gone s m).clusters := by
  have hl := lapse_stores (expires := expires) (t := m.ctx.accept) (p := m.ctx.part) (h := rd m.cmd 8 8) hs
  unfold withHandle; split
  · simp [hs]
  · split
    · simp [hs]
    · dsimp only; split
      · simp [hl]
      · exact hg _ _ hl
      · exact hc _ _ hl

@[simp] theorem cancelCore_stores {s : State} {a1 : Taken} (hs : StoresCanonical s.clusters) :
    StoresCanonical (cancelCore s a1).clusters := by
  exact withHandle_stores (by simp) (by simp) hs

/-! ### Conversations -/

@[simp] theorem parkCore_stores {s : State} {a1 : Taken} (hs : StoresCanonical s.clusters) :
    StoresCanonical (parkCore s a1).clusters := by
  exact withHandle_stores (by simp) (by simp) hs

@[simp] theorem condenseCore_stores {s : State} {a1 : Taken} (hs : StoresCanonical s.clusters) :
    StoresCanonical (condenseCore s a1).clusters := by
  exact withHandle_stores (by simp) (by simp) hs

@[simp] theorem dropCore_stores {s : State} {a1 : Taken} (hs : StoresCanonical s.clusters) :
    StoresCanonical (dropCore s a1).clusters := by
  exact withHandle_stores (by simp) (by simp) hs

@[simp] theorem resumeCore_stores {s : State} {m : Taken} {d : Bytes} (hs : StoresCanonical s.clusters) :
    StoresCanonical (resumeCore s m d).clusters := by
  exact withHandle_stores (by simp) (by simp) hs

@[simp] theorem resumeDesc_stores {desc : ReadResult} {s : State} {m : Taken} (hs : StoresCanonical s.clusters) :
    StoresCanonical (resumeDesc desc s m).clusters := by
  simp [resumeDesc, hs]

/-! ### Mac -/

@[simp] theorem macRun_stores {s : State} {c : Nat} {x : Cx} {k : QCmd} {a : Anchor} {fa fb : Fmt} {rows : List Nat}
    (hs : StoresCanonical s.clusters) (hx : cellsOk x.cl.cs = true) :
    StoresCanonical (macRun s c x k a fa fb rows).clusters := by
  simp [macRun, hs, hx]

@[simp] theorem readShares_stores {s : State} {c : Nat} {x : Cx} {point : Nat} {pt : AdaptPoint} {ads : List
    (Nat × Nat × Nat × Nat)} (hs : StoresCanonical s.clusters) :
    StoresCanonical (readShares s c x point pt ads).clusters := by
  simp only [readShares, charge_clusters]
  exact updCluster_stores (by simpa using hs) (clusterOf_cs _ (by simpa using hs))

@[simp] theorem amA_stores {s : State} {c : Nat} {x : Cx} {k : QCmd} {pt : AdaptPoint} {a : Anchor} {fa : Fmt} {base : Nat}
    {rows : List Nat} (hs : StoresCanonical s.clusters) (hx : cellsOk x.cl.cs = true) :
    StoresCanonical (amA s c x k pt a fa base rows).clusters := by
  unfold amA; dsimp only
  refine withStore_stores hs ?_
  have hr := readShares_stores (c := c) (x := x) (point := k.cmd.aux) (pt := pt) (ads := tileAds x rows) hs
  split
  · exact completeOut_stores (by simpa using hr) (by simpa using hx)
  · exact completeOut_stores hr (by simpa using hx)

@[simp] theorem amB_stores {s : State} {c : Nat} {x : Cx} {k : QCmd} {pt : AdaptPoint} {pa a : Anchor} {fa fb : Fmt} {base :
    Nat} {rows : List Nat} (hs : StoresCanonical s.clusters) (hx : cellsOk x.cl.cs = true) :
    StoresCanonical (amB s c x k pt pa a fa fb base rows).clusters := by
  unfold amB; dsimp only
  have hr := readShares_stores (c := c) (x := x) (point := k.cmd.aux) (pt := pt) (ads := tileAds x rows) hs
  exact finishEar_stores (by simp [hr]) hx

@[simp] theorem vuFinish_stores {s : State} {c : Nat} {x : Cx} {k : QCmd} {cl : Cluster} {f : Fmt} {cols : Nat} {os :
    List VuOut} {rows : List Nat} {reads : List (Nat × Nat)} (hs : StoresCanonical s.clusters) (hcl : cellsOk cl.cs = true) :
    StoresCanonical (vuFinish s c x k cl f cols os rows reads).clusters := by
  unfold vuFinish; dsimp only
  exact withStore_stores hs (completeOut_stores (by simp [hs]) (csPut_cs _ _ hcl))

@[simp] theorem vuGo_stores {s : State} {c : Nat} {x : Cx} {k : QCmd} {fa fb : Fmt} {work : VuWork} {rows : List Nat}
    (hs : StoresCanonical s.clusters) (hx : cellsOk x.cl.cs = true) :
    StoresCanonical (vuGo s c x k fa fb work rows).clusters := by
  have hc : ∀ p u n, cellsOk (operandBytes x.cl p u n).2.cs = true := fun p u n => by simpa using hx
  unfold vuGo; dsimp only; split
  · exact vuFinish_stores hs (hc _ _ _)
  · split
    · split
      · exact hs
      · exact vuFinish_stores (by simpa using hs) (hc _ _ _)
    · simp [hs]
  · split
    · exact vuFinish_stores hs (hc _ _ _)
    · simp [hs]

@[simp] theorem twinCompare_stores {s : State} {p : Nat} {t : TwinPair} {a : Attempt} {output : Bytes}
    (hs : StoresCanonical s.clusters) :
    StoresCanonical (twinCompare s p t a output).clusters := by
  simp [twinCompare, hs]

@[simp] theorem twinRun_stores {s : State} {c p : Nat} {a : Attempt} {t : TwinPair} {q : Nat} {faulty : Option Bytes}
    (hs : StoresCanonical s.clusters) :
    StoresCanonical (twinRun s c p a t q faulty).clusters := by
  unfold twinRun
  exact memberReady_stores (twinCompare_stores (updCluster_stores hs (clusterOf_cs _ hs)))

/-! ### Peers -/

@[simp] theorem linkDoubt_stores {s : State} {n : Nat} (hs : StoresCanonical s.clusters) :
    StoresCanonical (linkDoubt s n).clusters := by
  simp [linkDoubt, hs]

@[simp] theorem putBodies_stores {s : State} {c : Nat} {x : Cx} {m : LinkMsg} (hs : StoresCanonical s.clusters) :
    StoresCanonical (putBodies s c x m).clusters := by
  refine foldl_stores (fun t a ht => ?_) _ hs
  simp [ht]

theorem tensorMsg_stores {s : State} {n ty v : Nat} {m : LinkMsg} {f : State → Nat → Cx → State}
    (hf : ∀ t c x, StoresCanonical t.clusters → cellsOk x.cl.cs = true → StoresCanonical (f t c x).clusters)
    (hs : StoresCanonical s.clusters) : StoresCanonical (tensorMsg s n ty v m f).clusters := by
  unfold tensorMsg
  split
  · simp [hs]
  · split
    · exact hs
    · simp [hs]
    · simp [hs]
    · split
      · simp [hs]
      · split
        · simp [hs]
        next hx => exact hf _ _ _ (by simp [hs]) (cxOf_cs hx hs)

@[simp] theorem endSpanning_stores {s : State} {i : Nat} (hs : StoresCanonical s.clusters) :
    StoresCanonical (endSpanning s i).clusters := by
  refine foldl_stores (fun t a ht => ?_) _ hs; split <;> simp [ht]

/-! ### Mgmt -/

@[simp] theorem coreF_stores {desc : ReadResult} {s : State} {m : Taken} (hs : StoresCanonical s.clusters) :
    StoresCanonical (coreF desc s m).clusters := by
  unfold coreF; dsimp only; repeat' split
  all_goals simp [hs]

@[simp] theorem leaderTakes_stores {s : State} {port fn : Nat} {cmd : Bytes} {desc : ReadResult}
    (hs : StoresCanonical s.clusters) :
    StoresCanonical (leaderTakes s port fn cmd desc).clusters := by
  simp [leaderTakes, hs]

@[simp] theorem memberTakes_stores {s : State} {m : Taken} {own : Bool} {h : Nat} {d : Bytes} (hs : StoresCanonical s.clusters) :
    StoresCanonical (memberTakes s m own h d).clusters := by
  unfold memberTakes; split <;> simp [hs]

@[simp] theorem relayIn_stores {s : State} {body : Bytes} {desc : ReadResult} (hs : StoresCanonical s.clusters) :
    StoresCanonical (relayIn s body desc).clusters := by
  unfold relayIn; dsimp only; split
  · exact hs
  · exact memberTakes_stores hs

@[simp] theorem noticeActs_stores {s : State} {p kind key : Nat} {b : Bytes} (hs : StoresCanonical s.clusters) :
    StoresCanonical (noticeActs s p kind key b).clusters := by
  unfold noticeActs; split <;> simp [hs]

@[simp] theorem noticeIn_stores {s : State} {port p : Nat} {body : Bytes} (hs : StoresCanonical s.clusters) :
    StoresCanonical (noticeIn s port p body).clusters := by
  unfold noticeIn; dsimp only; split
  · exact hs
  · split
    · exact noticeActs_stores (by simpa using hs)
    · simpa using hs

/-! ### Tenants -/

theorem withTenant_stores {core : State → Taken → TenantBody → State} {s : State} {m : Taken}
    (hc : ∀ b, StoresCanonical (core s m b).clusters) (hs : StoresCanonical s.clusters) :
    StoresCanonical (withTenant core s m).clusters := by
  unfold withTenant; dsimp only; repeat' split
  all_goals simp [hs, hc]

end Sys2Proof.Machine
end

section
/-! Every command keeps every Cluster Store in canonical form. -/

namespace Sys2Proof.Machine

/-! ### Commands -/

/-- An outcome of a command leaves every Cluster Store in canonical form, where it answers a next state. -/
def OutStores (o : Out) : Prop := ∀ t, o = .next t → StoresCanonical t.clusters

theorem outStores_next {t : State} (ht : StoresCanonical t.clusters) : OutStores (.next t) := by
  intro u hu
  cases hu
  exact ht

theorem outStores_fault (f : Fault) : OutStores (.fault f) := by
  intro u hu
  cases hu

theorem inRange_stores {n bound : Nat} {t : State} (ht : StoresCanonical t.clusters) : OutStores (inRange n bound t) := by
  unfold inRange
  split
  · exact outStores_next ht
  · exact outStores_fault _

theorem clusterRow_stores {s t : State} {c : Nat} (hs : StoresCanonical s.clusters) (ht : StoresCanonical t.clusters) :
    OutStores (clusterRow s c t) := inRange_stores (guarded_stores hs ht)

theorem partRow_stores {s t : State} {p : Nat} (hs : StoresCanonical s.clusters) (ht : StoresCanonical t.clusters) :
    OutStores (partRow s p t) := inRange_stores (guarded_stores hs ht)

theorem portRow_stores {s t : State} {n : Nat} (hs : StoresCanonical s.clusters) (ht : StoresCanonical t.clusters) :
    OutStores (portRow s n t) := inRange_stores (guarded_stores hs ht)

theorem guardedRow_stores {s t : State} (hs : StoresCanonical s.clusters) (ht : StoresCanonical t.clusters) :
    OutStores (.next (guarded s t)) := outStores_next (guarded_stores hs ht)

theorem onFrame_stores {s : State} {f : Nat} {t : Nat → State} (ht : ∀ h, StoresCanonical (t h).clusters) :
    OutStores (onFrame s f t) := by
  unfold onFrame
  split
  · exact outStores_next (ht _)
  · exact outStores_fault _

theorem msgRow_stores {s : State} {fn : Nat} {via : Via} {isRow : Bytes → Bool} {core : State → Taken → State}
    (hs : StoresCanonical s.clusters) (hc : ∀ t m, StoresCanonical t.clusters → StoresCanonical (core t m).clusters) :
    OutStores (msgRow s fn via isRow core) := inRange_stores (guarded_stores hs (withMsg_stores hc hs))

theorem cmdRow_stores {s : State} {c op : Nat} {f : Cx → QCmd → State} (hs : StoresCanonical s.clusters)
    (hf : ∀ x k, cellsOk x.cl.cs = true → StoresCanonical (f x k).clusters) : OutStores (clusterRow s c (withCmd s c op f)) :=
  clusterRow_stores hs (withCmd_stores hs hf)

theorem reqRow_stores {s : State} {h : Nat} {f : Req → State} (hs : StoresCanonical s.clusters)
    (hf : ∀ q, StoresCanonical (f q).clusters) : OutStores (reqRow s h f) := by
  refine outStores_next (stores_ite hs ?_)
  split
  · exact stores_ite (hf _) hs
  · exact hs

theorem execLoad_stores {r : Sys2Proof.Reader} {s : State} (hs : StoresCanonical s.clusters) :
    OutStores (execLoad r s) := by
  refine cmdRow_stores hs fun x k hx => ?_
  dsimp only
  split
  · simp [hs]
  · refine stores_ite (by simp [hs]) (stores_ite hs (stores_ite (by simp [hs]) ?_))
    exact withStore_stores hs (by simpa using complete_stores (by simpa using hs) (csPut_cs _ _ hx))

theorem execSend_stores {c : Nat} {s : State} (hs : StoresCanonical s.clusters) :
    OutStores (execSend c s) := by
  refine cmdRow_stores hs fun x k hx => ?_
  repeat' split
  all_goals simp [hs, hx]

theorem execBind_stores {c : Nat} {s : State} (hs : StoresCanonical s.clusters) :
    OutStores (execBind c s) := by
  refine cmdRow_stores hs fun x k hx => ?_
  repeat' split
  all_goals simp [hs, hx]

theorem execChannelDelivery_stores {c ch : Nat} {s : State} (hs : StoresCanonical s.clusters) :
    OutStores (execChannelDelivery c ch s) := by
  refine clusterRow_stores hs ?_
  simp [hs]

theorem execRouteLoad_stores {c : Nat} {s : State} (hs : StoresCanonical s.clusters) :
    OutStores (execRouteLoad c s) := by
  refine cmdRow_stores hs fun x k hx => ?_
  simp [hs, hx]

theorem execProbeLaunch_stores {c ch : Nat} {s : State} (hs : StoresCanonical s.clusters) :
    OutStores (execProbeLaunch c ch s) := by
  refine clusterRow_stores hs ?_
  repeat' split
  all_goals simp [hs]

theorem execProbe_stores {c ch origin originCh hops : Nat} {s : State} (hs : StoresCanonical s.clusters) :
    OutStores (execProbe c ch origin originCh hops s) := by
  refine clusterRow_stores hs ?_
  split
  · exact hs
  · split
    · exact hs
    next u hu =>
      have hu : StoresCanonical u.clusters := by simpa [takeProbe_clusters hu] using hs
      repeat' split
      all_goals simp [hu]

theorem execNoRetire_stores {c : Nat} {s : State} (hs : StoresCanonical s.clusters) :
    OutStores (execNoRetire c s) := by
  refine clusterRow_stores hs ?_
  repeat' split
  all_goals simp [hs]

theorem execSemSignal_stores {c : Nat} {s : State} (hs : StoresCanonical s.clusters) :
    OutStores (execSemSignal c s) := by
  refine cmdRow_stores hs fun x k hx => ?_
  dsimp only
  repeat' split
  all_goals simp [hs, hx]

theorem execSemWait_stores {c : Nat} {s : State} (hs : StoresCanonical s.clusters) :
    OutStores (execSemWait c s) := by
  refine cmdRow_stores hs fun x k hx => ?_
  dsimp only
  split
  · refine stores_ite (by simp [hs]) (stores_ite (complete_stores (by simpa using hs) hx) ?_)
    simpa using issueWait_stores hs hx
  · exact issueWait_stores hs hx

theorem execSemAcquire_stores {c : Nat} {s : State} (hs : StoresCanonical s.clusters) :
    OutStores (execSemAcquire c s) := by
  refine cmdRow_stores hs fun x k hx => ?_
  have hw := issueWait_stores (k := k) hs hx
  have hd := complete_stores (c := c) (x := x) (k := k) hs hx
  dsimp only
  split
  · refine stores_ite (by simp [hs]) (stores_ite (stores_ite hd hs) (stores_ite ?_ ?_))
    · simpa using hw
    · simpa using hw
  · exact stores_ite (complete_stores (by simpa using hs) hx) (stores_ite hs (by simpa using hw))

theorem execSemRelease_stores {c : Nat} {s : State} (hs : StoresCanonical s.clusters) :
    OutStores (execSemRelease c s) := by
  refine cmdRow_stores hs fun x k hx => ?_
  dsimp only
  repeat' split
  all_goals simp [hs, hx]

theorem execKvStage_stores {c : Nat} {s : State} (hs : StoresCanonical s.clusters) :
    OutStores (execKvStage c s) := by
  refine cmdRow_stores hs fun x k hx => ?_
  simp [hs, hx]

theorem execSample_stores {c first : Nat} {s : State} (hs : StoresCanonical s.clusters) :
    OutStores (execSample c first s) := by
  refine cmdRow_stores hs fun x k hx => ?_
  exact withAmvu_stores hs (withStore_stores hs (complete_stores (by simpa using hs) hx))

theorem execCheapPoint_stores {c : Nat} {s : State} (hs : StoresCanonical s.clusters) :
    OutStores (execCheapPoint c s) := by
  refine cmdRow_stores hs fun x k hx => ?_
  dsimp only
  repeat' split
  all_goals simp [hs, hx]

theorem execStepEnd_stores {c : Nat} {s : State} (hs : StoresCanonical s.clusters) :
    OutStores (execStepEnd c s) := by
  refine cmdRow_stores hs fun x k hx => ?_
  have hd : StoresCanonical (complete s c x k { x.cl with finished := true }).clusters := complete_stores hs hx
  dsimp only
  refine stores_ite hs (stores_ite (by simpa using hd) ?_)
  split
  · exact memberReady_stores (by simpa using hd)
  · exact startInvocation_stores (by simpa using hd)

theorem execStepPlace_stores {p : Nat} {s : State} (hs : StoresCanonical s.clusters) :
    OutStores (execStepPlace p s) := by
  refine partRow_stores hs ?_
  repeat' split
  all_goals simp [hs]

theorem execTurnPreempt_stores {p : Nat} {s : State} (hs : StoresCanonical s.clusters) :
    OutStores (execTurnPreempt p s) := by
  refine partRow_stores hs ?_
  repeat' split
  all_goals simp [hs]

theorem execShelveCheapPointClean_stores {p : Nat} {s : State} (hs : StoresCanonical s.clusters) :
    OutStores (execShelveCheapPointClean p s) := by
  refine partRow_stores hs ?_
  split
  · exact hs
  · have ht : ∀ (b : Bool) (a : Attempt), StoresCanonical (if b then tellCheap s p a else s).clusters :=
      fun b a => stores_ite (by simpa using hs) hs
    dsimp only
    refine stores_ite (ht _ _) ?_
    split
    · exact ht _ _
    · split
      · exact ht _ _
      · have hd : ∀ (l : List Nat) (t : State), (l.foldl dropClusterPermits t).clusters = t.clusters :=
          fun l t => foldl_clusters (fun _ _ => dropClusterPermits_clusters _ _) l t
        refine stores_ite (downgrade_stores (by rw [hd]; exact ht _ _)) ?_
        split
        · exact downgrade_stores (by rw [hd]; exact ht _ _)
        next hf =>
          rw [updAtt_clusters, handRuns_clusters, openFrames_clusters hf, hd]
          exact ht _ _

theorem execShelveDone_stores {p : Nat} {s : State} (hs : StoresCanonical s.clusters) :
    OutStores (execShelveDone p s) := by
  refine partRow_stores hs ?_
  repeat' split
  all_goals simp [hs]

theorem execShelveTimeout_stores {p : Nat} {s : State} (hs : StoresCanonical s.clusters) :
    OutStores (execShelveTimeout p s) := by
  refine partRow_stores hs ?_
  repeat' split
  all_goals simp [hs]

theorem execShelveResume_stores {p : Nat} {s : State} (hs : StoresCanonical s.clusters) :
    OutStores (execShelveResume p s) := by
  refine partRow_stores hs ?_
  repeat' split
  all_goals simp [hs]

theorem execStepSyncTurn_stores {p arg : Nat} {s : State} (hs : StoresCanonical s.clusters) :
    OutStores (execStepSyncTurn p arg s) := by
  refine partRow_stores hs ?_
  refine stores_ite hs ?_
  split
  · dsimp only
    split
    · exact stores_ite hs (stores_ite (grantShelved_stores hs) (grantClaim_stores hs))
    · exact hs
  · split
    · exact stores_ite (by simp [hs]) hs
    · exact hs
  · split
    · exact stores_ite (by simp [hs]) hs
    · exact hs

theorem execIdleFreeze_stores {p : Nat} {s : State} (hs : StoresCanonical s.clusters) :
    OutStores (execIdleFreeze p s) := by
  refine partRow_stores hs ?_
  repeat' split
  all_goals simp [hs]

theorem execStepSyncPlan_stores {p : Nat} {pieces : Bytes} {s : State} (hs : StoresCanonical s.clusters) :
    OutStores (execStepSyncPlan p pieces s) := by
  refine partRow_stores hs ?_
  dsimp only
  refine stores_ite hs (foldl_stores (fun t m ht => planPiece_stores ht) _ ?_)
  split
  · exact stores_ite (completeKill_stores hs) hs
  · exact hs

theorem execStepSyncReady_stores {port p member : Nat} {entries : Bytes} {s : State} (hs : StoresCanonical s.clusters) :
    OutStores (execStepSyncReady port p member entries s) := by
  unfold execStepSyncReady
  split
  rotate_left
  · exact outStores_fault _
  refine partRow_stores hs ?_
  repeat' split
  all_goals simp [hs]

theorem execStepCommit_stores {p : Nat} {s : State} (hs : StoresCanonical s.clusters) :
    OutStores (execStepCommit p s) := by
  refine partRow_stores hs ?_
  repeat' split
  all_goals simp [hs]

theorem execStepSyncRelease_stores {p : Nat} {body : Bytes} {s : State} (hs : StoresCanonical s.clusters) :
    OutStores (execStepSyncRelease p body s) := by
  refine partRow_stores hs ?_
  repeat' split
  all_goals simp [hs]

theorem execStepKill_stores {p cause : Nat} {s : State} (hs : StoresCanonical s.clusters) :
    OutStores (execStepKill p cause s) := by
  refine partRow_stores hs ?_
  simp [hs]

theorem execKillComplete_stores {p : Nat} {s : State} (hs : StoresCanonical s.clusters) :
    OutStores (execKillComplete p s) := by
  refine partRow_stores hs ?_
  repeat' split
  all_goals simp [hs]

theorem execStepSyncAbort_stores {p reason tag : Nat} {s : State} (hs : StoresCanonical s.clusters) :
    OutStores (execStepSyncAbort p reason tag s) := by
  refine partRow_stores hs ?_
  repeat' split
  all_goals simp [hs]

theorem execDrainTimeout_stores {p : Nat} {s : State} (hs : StoresCanonical s.clusters) :
    OutStores (execDrainTimeout p s) := by
  refine partRow_stores hs ?_
  split
  · exact hs
  · split
    · exact hs
    · exact stores_ite (abortPart_stores hs) hs

theorem execLedgerClose_stores {s : State} (hs : StoresCanonical s.clusters) :
    OutStores (execLedgerClose s) := by
  unfold execLedgerClose
  split
  · exact outStores_next (by simpa using packageClose_stores hs)
  · refine outStores_next (foldl_stores (fun t p ht => ?_) _ hs)
    simpa using ht
  · exact outStores_next hs

theorem execPortDown_stores {port reason : Nat} {s : State} (hs : StoresCanonical s.clusters) :
    OutStores (execPortDown port reason s) := by
  refine portRow_stores hs ?_
  simp [hs]

theorem execLinkFlitReceived_stores {port : Nat} {flit : Bytes} {fec : FecInfo} {s : State} (hs : StoresCanonical s.clusters) :
    OutStores (execLinkFlitReceived port flit fec s) := by
  refine portRow_stores hs ?_
  dsimp only
  refine stores_ite hs ?_
  simp only [leaveStep_clusters, pumpState_clusters]
  refine stores_ite (by simpa using hs) (stores_ite (stores_ite (dataIn_stores (by simpa using hs)) (by simpa using hs)) ?_)
  exact stores_ite (by simpa using hs) (stores_ite (nakIn_stores (by simpa using hs)) (by simpa using hs))

theorem execNakResendTimeout_stores {port : Nat} {s : State} (hs : StoresCanonical s.clusters) :
    OutStores (execNakResendTimeout port s) := by
  refine portRow_stores hs ?_
  simp [hs]

theorem execAckCreditTimer_stores {port : Nat} {s : State} (hs : StoresCanonical s.clusters) :
    OutStores (execAckCreditTimer port s) := by
  refine portRow_stores hs ?_
  simp [hs]

theorem execLedgerSend_stores {port : Nat} {s : State} (hs : StoresCanonical s.clusters) :
    OutStores (execLedgerSend port s) := by
  refine portRow_stores hs ?_
  simp [hs]

theorem execLedger_stores {port : Nat} {txFlits txCredits : List Nat} {s : State} (hs : StoresCanonical s.clusters) :
    OutStores (execLedger port txFlits txCredits s) := by
  refine portRow_stores hs (stores_ite hs ?_)
  exact stores_ite (by simpa using hs) (doubt_stores (by simpa using hs))

theorem execLinkSetGroup_stores {fn : Nat} {via : Via} {s : State} (hs : StoresCanonical s.clusters) :
    OutStores (execLinkSetGroup fn via s) := by
  refine msgRow_stores hs fun t m ht => ?_
  simp [ht]

theorem execLinkSetPortEnable_stores {fn : Nat} {via : Via} {s : State} (hs : StoresCanonical s.clusters) :
    OutStores (execLinkSetPortEnable fn via s) := by
  refine msgRow_stores hs fun t m ht => ?_
  simp [ht]

theorem execLinkSetPortRetrain_stores {fn : Nat} {via : Via} {s : State} (hs : StoresCanonical s.clusters) :
    OutStores (execLinkSetPortRetrain fn via s) := by
  refine msgRow_stores hs fun t m ht => stores_ite (by simpa using ht) ?_
  rw [respond_clusters]
  refine foldl_stores (fun u n hu => ?_) _ ht
  split
  · exact enterRecovery_stores hu
  · exact detectPort_stores hu
  · exact hu

theorem execLinkSetPortDisable_stores {fn : Nat} {via : Via} {s : State} (hs : StoresCanonical s.clusters) :
    OutStores (execLinkSetPortDisable fn via s) := by
  refine msgRow_stores hs fun t m ht => ?_
  repeat' split
  all_goals simp [ht]

theorem execPortDisableTimeout_stores {port : Nat} {s : State} (hs : StoresCanonical s.clusters) :
    OutStores (execPortDisableTimeout port s) := by
  have ht : StoresCanonical (markIdlePorts s).clusters := by simpa using hs
  refine portRow_stores hs ?_
  dsimp only
  split
  · refine stores_ite ht (stores_ite (by simpa using ht) (stores_ite (doubt_stores ht) ?_))
    simpa using ht
  · exact ht

theorem execDisableReq_stores {port : Nat} {s : State} (hs : StoresCanonical s.clusters) :
    OutStores (execDisableReq port s) := by
  refine portRow_stores hs ?_
  simp [hs]

theorem execDisableAck_stores {port : Nat} {s : State} (hs : StoresCanonical s.clusters) :
    OutStores (execDisableAck port s) := by
  refine portRow_stores hs ?_
  simp [hs]

theorem execPortStateDone_stores {port : Nat} {info : TrainInfo} {s : State} (hs : StoresCanonical s.clusters) :
    OutStores (execPortStateDone port info s) := by
  refine portRow_stores hs ?_
  dsimp only
  repeat' split
  all_goals simp [hs]

theorem execPortStateTimeout_stores {port : Nat} {s : State} (hs : StoresCanonical s.clusters) :
    OutStores (execPortStateTimeout port s) := by
  refine portRow_stores hs ?_
  repeat' split
  all_goals simp [hs]

theorem execIdent_stores {port : Nat} {info : IdentInfo} {s : State} (hs : StoresCanonical s.clusters) :
    OutStores (execIdent port info s) := by
  refine portRow_stores hs (stores_ite hs ?_)
  exact stores_ite (portDown_stores (by simpa using hs)) (by simpa using hs)

theorem execPing_stores {port : Nat} {s : State} (hs : StoresCanonical s.clusters) :
    OutStores (execPing port s) := by
  refine portRow_stores hs ?_
  simp [hs]

theorem execEcho_stores {port dtc : Nat} {s : State} (hs : StoresCanonical s.clusters) :
    OutStores (execEcho port dtc s) := by
  refine portRow_stores hs ?_
  dsimp only
  repeat' split
  all_goals simp [hs]

theorem execPeerLeavesHold_stores {port : Nat} {s : State} (hs : StoresCanonical s.clusters) :
    OutStores (execPeerLeavesHold port s) := by
  refine portRow_stores hs ?_
  simp [hs]

theorem execSteer_stores {port : Nat} {r : SteerTold} {s : State} (hs : StoresCanonical s.clusters) :
    OutStores (execSteer port r s) := by
  unfold execSteer
  split
  rotate_left
  · exact outStores_fault _
  refine portRow_stores hs ?_
  simp [hs]

theorem execLaneFailure_stores {port : Nat} {r : LaneLoss} {s : State} (hs : StoresCanonical s.clusters) :
    OutStores (execLaneFailure port r s) := by
  unfold execLaneFailure
  split
  rotate_left
  · exact outStores_fault _
  refine portRow_stores hs ?_
  dsimp only
  refine stores_ite hs (stores_ite (by simpa using hs) (stores_ite ?_ (enterRecovery_stores (by simpa using hs))))
  split
  · exact stores_ite (by simpa using hs) (by simpa using hs)
  · simpa using hs

theorem execLaneRecalStart_stores {port lane : Nat} {s : State} (hs : StoresCanonical s.clusters) :
    OutStores (execLaneRecalStart port lane s) := by
  unfold execLaneRecalStart
  split
  rotate_left
  · exact outStores_fault _
  refine portRow_stores hs ?_
  simp [hs]

theorem execLaneRecalDone_stores {port lane : Nat} {good : Bool} {s : State} (hs : StoresCanonical s.clusters) :
    OutStores (execLaneRecalDone port lane good s) := by
  unfold execLaneRecalDone
  split
  rotate_left
  · exact outStores_fault _
  refine portRow_stores hs ?_
  simp [hs]

theorem execFlrVf_stores {n : Nat} {s : State} (hs : StoresCanonical s.clusters) :
    OutStores (execFlrVf n s) := by
  unfold execFlrVf
  split
  rotate_left
  · exact outStores_fault _
  refine guardedRow_stores hs ?_
  simp [hs]

theorem execFlrPf_stores {s : State} (hs : StoresCanonical s.clusters) :
    OutStores (execFlrPf s) := by
  refine guardedRow_stores hs ?_
  simp [hs, foldl_clusters]

theorem execFlrDmaDrained_stores {fn : Nat} {s : State} (hs : StoresCanonical s.clusters) :
    OutStores (execFlrDmaDrained fn s) := by
  refine inRange_stores (guarded_stores hs ?_)
  simp [hs]

theorem execPcieLinkDown_stores {s : State} (hs : StoresCanonical s.clusters) :
    OutStores (execPcieLinkDown s) := by
  refine guardedRow_stores hs ?_
  simp [hs]

theorem execPcieLinkUp_stores {s : State} (hs : StoresCanonical s.clusters) :
    OutStores (execPcieLinkUp s) := by
  refine guardedRow_stores hs ?_
  simp [hs]

theorem execColdReset_stores {s : State} (hs : StoresCanonical s.clusters) :
    OutStores (execColdReset s) := by
  refine outStores_next ?_
  simp [hs]

theorem execPerstNAssert_stores {s : State} (hs : StoresCanonical s.clusters) :
    OutStores (execPerstNAssert s) := by
  exact outStores_next (stores_ite hs (warmReset_stores hs))

theorem execPerstNDeassert_stores {s : State} (hs : StoresCanonical s.clusters) :
    OutStores (execPerstNDeassert s) := by
  refine outStores_next ?_
  simp [hs]

theorem execPcieHotReset_stores {s : State} (hs : StoresCanonical s.clusters) :
    OutStores (execPcieHotReset s) := by
  refine outStores_next ?_
  simp [hs]

theorem execPartitionReset_stores {value : Nat} {s : State} (hs : StoresCanonical s.clusters) :
    OutStores (execPartitionReset value s) := by
  refine outStores_next ?_
  simp [hs]

theorem execQueueCreate_stores {fn : Nat} {via : Via} {s : State} (hs : StoresCanonical s.clusters) :
    OutStores (execQueueCreate fn via s) := by
  refine msgRow_stores hs fun t m ht => ?_
  simp [ht]

theorem execQueueDelete_stores {fn : Nat} {via : Via} {s : State} (hs : StoresCanonical s.clusters) :
    OutStores (execQueueDelete fn via s) := by
  refine msgRow_stores hs fun t m ht => ?_
  dsimp only
  repeat' split
  all_goals simp [ht]

theorem execInvalidOpcode_stores {fn : Nat} {via : Via} {s : State} (hs : StoresCanonical s.clusters) :
    OutStores (execInvalidOpcode fn via s) := by
  refine msgRow_stores hs fun t m ht => ?_
  simp [ht]

theorem execMailboxDoorbell_stores {fn value : Nat} {s : State} (hs : StoresCanonical s.clusters) :
    OutStores (execMailboxDoorbell fn value s) := by
  refine inRange_stores ?_
  simp [hs]

theorem execSqTailWrite_stores {fn q value : Nat} {s : State} (hs : StoresCanonical s.clusters) :
    OutStores (execSqTailWrite fn q value s) := by
  unfold execSqTailWrite
  split
  rotate_left
  · exact outStores_fault _
  refine inRange_stores (guarded_stores hs ?_)
  simp [hs]

theorem execCqHeadWrite_stores {fn q value : Nat} {s : State} (hs : StoresCanonical s.clusters) :
    OutStores (execCqHeadWrite fn q value s) := by
  unfold execCqHeadWrite
  split
  rotate_left
  · exact outStores_fault _
  refine inRange_stores (guarded_stores hs ?_)
  simp [hs]

theorem execSqEntryFetch_stores {fn q : Nat} {s : State} (hs : StoresCanonical s.clusters) :
    OutStores (execSqEntryFetch fn q s) := by
  refine inRange_stores (guarded_stores hs ?_)
  repeat' split
  all_goals simp [hs]

theorem execCidxPoll_stores {h : Nat} {journal : Bool} {s : State} (hs : StoresCanonical s.clusters) :
    OutStores (execCidxPoll h journal s) := by
  refine guardedRow_stores hs ?_
  repeat' split
  all_goals simp [hs]

theorem execCidxReadDone_stores {h : Nat} {journal : Bool} {value : Option Nat} {s : State} (hs : StoresCanonical s.clusters) :
    OutStores (execCidxReadDone h journal value s) := by
  refine guardedRow_stores hs ?_
  repeat' split
  all_goals simp [hs]

theorem execDmaReadCompletion_stores {tag : Nat} {data : ReadResult} {s : State} (hs : StoresCanonical s.clusters) :
    OutStores (execDmaReadCompletion tag data s) := by
  refine guardedRow_stores hs ?_
  repeat' split
  all_goals simp [hs]

theorem execCompletionBarrierDone_stores {tag : Nat} {ok : Bool} {s : State} (hs : StoresCanonical s.clusters) :
    OutStores (execCompletionBarrierDone tag ok s) := by
  refine guardedRow_stores hs ?_
  dsimp only
  repeat' split
  all_goals simp [hs]

theorem execRingIrqTicks_stores {h : Nat} {s : State} (hs : StoresCanonical s.clusters) :
    OutStores (execRingIrqTicks h s) := by
  refine guardedRow_stores hs ?_
  repeat' split
  all_goals simp [hs]

theorem execVectorHoldoffEnd_stores {fn v : Nat} {s : State} (hs : StoresCanonical s.clusters) :
    OutStores (execVectorHoldoffEnd fn v s) := by
  unfold execVectorHoldoffEnd
  split
  rotate_left
  · exact outStores_fault _
  refine inRange_stores (guarded_stores hs ?_)
  repeat' split
  all_goals simp [hs]

theorem execPowerLimitSet_stores {fn : Nat} {via : Via} {s : State} (hs : StoresCanonical s.clusters) :
    OutStores (execPowerLimitSet fn via s) := by
  refine msgRow_stores hs fun t m ht => ?_
  simp [ht]

theorem execPowerGovernorTick_stores {s : State} (hs : StoresCanonical s.clusters) :
    OutStores (execPowerGovernorTick s) := by
  refine guardedRow_stores hs ?_
  simp [hs]

theorem execPermitGranted_stores {req : Nat} {s : State} (hs : StoresCanonical s.clusters) :
    OutStores (execPermitGranted req s) := by
  refine inRange_stores (guarded_stores hs ?_)
  simp [hs]

theorem execDomainUpDone_stores {dom : Nat} {s : State} (hs : StoresCanonical s.clusters) :
    OutStores (execDomainUpDone dom s) := by
  refine inRange_stores (guarded_stores hs ?_)
  simp [hs]

theorem execThrottleNAssert_stores {s : State} (hs : StoresCanonical s.clusters) :
    OutStores (execThrottleNAssert s) := by
  refine guardedRow_stores hs ?_
  simp [hs]

theorem execThrottleNDeassert_stores {s : State} (hs : StoresCanonical s.clusters) :
    OutStores (execThrottleNDeassert s) := by
  refine guardedRow_stores hs ?_
  simp [hs]

theorem execThermalSample_stores {cd hub : List Int} {s : State} (hs : StoresCanonical s.clusters) :
    OutStores (execThermalSample cd hub s) := by
  refine guardedRow_stores hs ?_
  repeat' split
  all_goals simp [hs]

theorem execThermalTripClear_stores {s : State} (hs : StoresCanonical s.clusters) :
    OutStores (execThermalTripClear s) := by
  refine guardedRow_stores hs ?_
  repeat' split
  all_goals simp [hs]

theorem execVcoreRequestUpdate_stores {s : State} (hs : StoresCanonical s.clusters) :
    OutStores (execVcoreRequestUpdate s) := by
  refine guardedRow_stores hs ?_
  simp [hs]

theorem execVcoreHold_stores {die : Nat} {s : State} (hs : StoresCanonical s.clusters) :
    OutStores (execVcoreHold die s) := by
  refine inRange_stores (guarded_stores hs ?_)
  simp [hs]

theorem execVcoreHoldRelease_stores {die : Nat} {s : State} (hs : StoresCanonical s.clusters) :
    OutStores (execVcoreHoldRelease die s) := by
  refine inRange_stores (guarded_stores hs ?_)
  simp [hs]

theorem execWindowValidSet_stores {d : Nat} {s : State} (hs : StoresCanonical s.clusters) :
    OutStores (execWindowValidSet d s) := by
  refine inRange_stores (guarded_stores hs ?_)
  simp [hs]

theorem execWindowValidClear_stores {d : Nat} {s : State} (hs : StoresCanonical s.clusters) :
    OutStores (execWindowValidClear d s) := by
  refine inRange_stores (guarded_stores hs ?_)
  simp [hs]

theorem execMsixVectorUnmask_stores {fn v : Nat} {s : State} (hs : StoresCanonical s.clusters) :
    OutStores (execMsixVectorUnmask fn v s) := by
  unfold execMsixVectorUnmask
  split
  rotate_left
  · exact outStores_fault _
  refine inRange_stores (guarded_stores hs ?_)
  simp [hs]

theorem execLogClear_stores {value : Nat} {s : State} (hs : StoresCanonical s.clusters) :
    OutStores (execLogClear value s) := by
  refine guardedRow_stores hs ?_
  simp [hs]

theorem execDtcLoRead_stores {fn : Nat} {s : State} (hs : StoresCanonical s.clusters) :
    OutStores (execDtcLoRead fn s) := by
  refine inRange_stores ?_
  simp [hs]

theorem execDtcHiRead_stores {fn : Nat} {s : State} (hs : StoresCanonical s.clusters) :
    OutStores (execDtcHiRead fn s) := by
  refine inRange_stores ?_
  simp [hs]

theorem execRegisterWrite_stores {fn : Nat} {bar : BarSel} {offset : Nat} {data : Bytes} {s : State}
    (hs : StoresCanonical s.clusters) :
    OutStores (execRegisterWrite fn bar offset data s) := by
  refine inRange_stores ?_
  repeat' split
  all_goals simp [hs]

theorem execSmbusPointer_stores {ptr : Nat} {s : State} (hs : StoresCanonical s.clusters) :
    OutStores (execSmbusPointer ptr s) := by
  refine outStores_next ?_
  simp [hs]

theorem execSmbusRead_stores {s : State} (hs : StoresCanonical s.clusters) :
    OutStores (execSmbusRead s) := by
  refine outStores_next ?_
  simp [hs]

theorem execPinmuxSet_stores {fn : Nat} {via : Via} {s : State} (hs : StoresCanonical s.clusters) :
    OutStores (execPinmuxSet fn via s) := by
  refine msgRow_stores hs fun t m ht => ?_
  simp [ht]

theorem execPinmuxArmed_stores {pin : Nat} {s : State} (hs : StoresCanonical s.clusters) :
    OutStores (execPinmuxArmed pin s) := by
  refine inRange_stores (guarded_stores hs ?_)
  simp [hs]

theorem execStepSyncArmed_stores {s : State} (hs : StoresCanonical s.clusters) :
    OutStores (execStepSyncArmed s) := by
  refine guardedRow_stores hs ?_
  simp [hs]

theorem execStepSyncCandidate_stores {edge : Nat} {s : State} (hs : StoresCanonical s.clusters) :
    OutStores (execStepSyncCandidate edge s) := by
  refine guardedRow_stores hs ?_
  simp [hs]

theorem execCandidateDiscarded_stores {s : State} (hs : StoresCanonical s.clusters) :
    OutStores (execCandidateDiscarded s) := by
  refine guardedRow_stores hs ?_
  repeat' split
  all_goals simp [hs]

theorem execStepSyncMark_stores {s : State} (hs : StoresCanonical s.clusters) :
    OutStores (execStepSyncMark s) := by
  refine guardedRow_stores hs ?_
  repeat' split
  all_goals simp [hs]

theorem execStepSyncOutPulse_stores {s : State} (hs : StoresCanonical s.clusters) :
    OutStores (execStepSyncOutPulse s) := by
  refine guardedRow_stores hs ?_
  simp [hs]

theorem execSyncLost_stores {s : State} (hs : StoresCanonical s.clusters) :
    OutStores (execSyncLost s) := by
  refine guardedRow_stores hs ?_
  simp [hs]

theorem execDtcSlew_stores {s : State} (hs : StoresCanonical s.clusters) :
    OutStores (execDtcSlew s) := by
  refine guardedRow_stores hs ?_
  simp [hs]

theorem execJtagExtest_stores {levels : List Bool} {s : State} (hs : StoresCanonical s.clusters) :
    OutStores (execJtagExtest levels s) := by
  refine outStores_next ?_
  simp [hs]

theorem execJtagDebugUnlock_stores {pubkey response : Bytes} {s : State} (hs : StoresCanonical s.clusters) :
    OutStores (execJtagDebugUnlock pubkey response s) := by
  refine guardedRow_stores hs ?_
  simp [hs]

theorem execPwrGoodRise_stores {s : State} (hs : StoresCanonical s.clusters) :
    OutStores (execPwrGoodRise s) := by
  refine outStores_next ?_
  simp [hs]

theorem execPllLock_stores {dir0 dir1 : ReadResult} {s : State} (hs : StoresCanonical s.clusters) :
    OutStores (execPllLock dir0 dir1 s) := by
  refine outStores_next ?_
  repeat' split
  all_goals simp [hs]

theorem execPllLockTimeout_stores {s : State} (hs : StoresCanonical s.clusters) :
    OutStores (execPllLockTimeout s) := by
  refine outStores_next ?_
  simp [hs]

theorem execFwImageLoaded_stores {slotA slotB : ReadResult} {s : State} (hs : StoresCanonical s.clusters) :
    OutStores (execFwImageLoaded slotA slotB s) := by
  refine outStores_next ?_
  dsimp only
  repeat' split
  all_goals simp [hs]

theorem execHbmTrainingDone_stores {failed : Option Nat} {s : State} (hs : StoresCanonical s.clusters) :
    OutStores (execHbmTrainingDone failed s) := by
  refine guardedRow_stores hs ?_
  repeat' split
  all_goals simp [hs]

theorem execBistDone_stores {failed : Option Nat} {s : State} (hs : StoresCanonical s.clusters) :
    OutStores (execBistDone failed s) := by
  refine guardedRow_stores hs ?_
  repeat' split
  all_goals simp [hs]

theorem execKatDone_stores {failed : Option Nat} {boardCfg : ReadResult} {s : State} (hs : StoresCanonical s.clusters) :
    OutStores (execKatDone failed boardCfg s) := by
  refine guardedRow_stores hs ?_
  repeat' split
  all_goals simp [hs]

theorem execStageTimeout_stores {unit : Nat} {s : State} (hs : StoresCanonical s.clusters) :
    OutStores (execStageTimeout unit s) := by
  refine guardedRow_stores hs ?_
  simp [hs]

theorem execFwActivate_stores {fn : Nat} {via : Via} {image : ReadResult} {s : State} (hs : StoresCanonical s.clusters) :
    OutStores (execFwActivate fn via image s) := by
  refine msgRow_stores hs fun t m ht => ?_
  simp [ht]

theorem execFlashPersistDone_stores {ok : Bool} {s : State} (hs : StoresCanonical s.clusters) :
    OutStores (execFlashPersistDone ok s) := by
  refine guardedRow_stores hs ?_
  repeat' split
  all_goals simp [hs]

theorem execFwActivateQuiesced_stores {s : State} (hs : StoresCanonical s.clusters) :
    OutStores (execFwActivateQuiesced s) := by
  refine guardedRow_stores hs ?_
  repeat' split
  all_goals simp [hs]

theorem execFwActivateTimeout_stores {s : State} (hs : StoresCanonical s.clusters) :
    OutStores (execFwActivateTimeout s) := by
  refine guardedRow_stores hs ?_
  simp [hs]

theorem execRecover_stores {fn : Nat} {via : Via} {s : State} (hs : StoresCanonical s.clusters) :
    OutStores (execRecover fn via s) := by
  refine msgRow_stores hs fun t m ht => ?_
  simp [ht]

theorem execRecoveryVerifyDone_stores {bad : List Nat} {s : State} (hs : StoresCanonical s.clusters) :
    OutStores (execRecoveryVerifyDone bad s) := by
  refine guardedRow_stores hs ?_
  repeat' split
  all_goals simp [hs, foldl_clusters]

theorem execRecoveryTestDone_stores {failed : Option Nat} {s : State} (hs : StoresCanonical s.clusters) :
    OutStores (execRecoveryTestDone failed s) := by
  refine guardedRow_stores hs ?_
  have hc : StoresCanonical (closeLedger (idleQuantities { s with clusters := [] }) (List.range 8)).clusters :=
    closeLedger_stores (by simp)
  exact stores_ite hs (stores_ite (by simp [hs]) (stores_ite hc (resumeServing_stores hc)))

theorem execPartitionCreate_stores {fn : Nat} {via : Via} {desc : ReadResult} {s : State} (hs : StoresCanonical s.clusters) :
    OutStores (execPartitionCreate fn via desc s) := by
  refine msgRow_stores hs fun t m ht => ?_
  simp [ht]

theorem execPartitionModify_stores {fn : Nat} {via : Via} {desc : ReadResult} {s : State} (hs : StoresCanonical s.clusters) :
    OutStores (execPartitionModify fn via desc s) := by
  refine msgRow_stores hs fun t m ht => ?_
  simp [ht]

theorem execPartitionDisableDrain_stores {fn : Nat} {via : Via} {s : State} (hs : StoresCanonical s.clusters) :
    OutStores (execPartitionDisableDrain fn via s) := by
  refine msgRow_stores hs fun t m ht => ?_
  simp [ht]

theorem execPartitionDisableAbort_stores {fn : Nat} {via : Via} {s : State} (hs : StoresCanonical s.clusters) :
    OutStores (execPartitionDisableAbort fn via s) := by
  refine msgRow_stores hs fun t m ht => ?_
  simp [ht]

theorem execSinterFrameSealed_stores {frame : Nat} {lanesEqual : Bool} {s : State} (hs : StoresCanonical s.clusters) :
    OutStores (execSinterFrameSealed frame lanesEqual s) := by
  refine onFrame_stores fun h => ?_
  simp [hs]

theorem execStreamLayerSealed_stores {p slot : Nat} {data : ReadResult} {s : State} (hs : StoresCanonical s.clusters) :
    OutStores (execStreamLayerSealed p slot data s) := by
  refine partRow_stores hs ?_
  repeat' split
  all_goals simp [hs, foldl_clusters]

theorem execStreamStalled_stores {p slot : Nat} {s : State} (hs : StoresCanonical s.clusters) :
    OutStores (execStreamStalled p slot s) := by
  refine partRow_stores hs ?_
  split
  · exact hs
  · refine stores_ite hs ?_
    dsimp only
    split
    · exact stores_ite (killStart_stores (by simpa using hs)) (by simpa using hs)
    · simpa using hs

theorem execScrubRead_stores {frame : Nat} {ecc : EccRead} {digestEqual : Bool} {s : State} (hs : StoresCanonical s.clusters) :
    OutStores (execScrubRead frame ecc digestEqual s) := by
  refine onFrame_stores fun h => ?_
  simp [hs]

theorem execHubWatchdog_stores {pair : Nat} {s : State} (hs : StoresCanonical s.clusters) :
    OutStores (execHubWatchdog pair s) := by
  refine inRange_stores (guarded_stores hs ?_)
  simp [hs]

theorem execDoubtContained_stores {source unit detail part : Nat} {s : State} (hs : StoresCanonical s.clusters) :
    OutStores (execDoubtContained source unit detail part s) := by
  refine guardedRow_stores hs ?_
  simp [hs]

theorem execDoubtUncontained_stores {source unit detail part : Nat} {s : State} (hs : StoresCanonical s.clusters) :
    OutStores (execDoubtUncontained source unit detail part s) := by
  refine guardedRow_stores hs ?_
  simp [hs]

theorem execModelLoad_stores {fn : Nat} {via : Via} {desc : ReadResult} {s : State} (hs : StoresCanonical s.clusters) :
    OutStores (execModelLoad fn via desc s) := by
  refine msgRow_stores hs fun t m ht => ?_
  simp [ht]

theorem execModelLoadDone_stores {p : Nat} {weights program : ReadResult} {s : State} (hs : StoresCanonical s.clusters) :
    OutStores (execModelLoadDone p weights program s) := by
  refine partRow_stores hs ?_
  repeat' split
  all_goals simp [hs]

theorem execModelUnload_stores {fn : Nat} {via : Via} {s : State} (hs : StoresCanonical s.clusters) :
    OutStores (execModelUnload fn via s) := by
  refine msgRow_stores hs fun t m ht => ?_
  simp [ht]

theorem execAdapterRegister_stores {fn : Nat} {via : Via} {s : State} (hs : StoresCanonical s.clusters) :
    OutStores (execAdapterRegister fn via s) := by
  refine msgRow_stores hs fun t m ht => ?_
  simp [ht]

theorem execAdapterRegisterDone_stores {p idx : Nat} {home : ReadResult} {s : State} (hs : StoresCanonical s.clusters) :
    OutStores (execAdapterRegisterDone p idx home s) := by
  refine partRow_stores hs ?_
  repeat' split
  all_goals simp [hs]

theorem execAdapterRetireDefer_stores {fn : Nat} {via : Via} {s : State} (hs : StoresCanonical s.clusters) :
    OutStores (execAdapterRetireDefer fn via s) := by
  refine msgRow_stores hs fun t m ht => ?_
  simp [ht]

theorem execAdapterRetireForce_stores {fn : Nat} {via : Via} {s : State} (hs : StoresCanonical s.clusters) :
    OutStores (execAdapterRetireForce fn via s) := by
  refine msgRow_stores hs fun t m ht => ?_
  simp [ht]

theorem execAdapterFetchStart_stores {p : Nat} {s : State} (hs : StoresCanonical s.clusters) :
    OutStores (execAdapterFetchStart p s) := by
  refine partRow_stores hs ?_
  simp [hs]

theorem execAdapterFetchDone_stores {p idx : Nat} {home : ReadResult} {s : State} (hs : StoresCanonical s.clusters) :
    OutStores (execAdapterFetchDone p idx home s) := by
  refine partRow_stores hs ?_
  repeat' split
  all_goals simp [hs]

theorem execAdapterEvictionDone_stores {p idx : Nat} {s : State} (hs : StoresCanonical s.clusters) :
    OutStores (execAdapterEvictionDone p idx s) := by
  refine partRow_stores hs ?_
  repeat' split
  all_goals simp [hs]

theorem execRequestSubmit_stores {fn : Nat} {via : Via} {desc : ReadResult} {s : State} (hs : StoresCanonical s.clusters) :
    OutStores (execRequestSubmit fn via desc s) := by
  refine msgRow_stores hs fun t m ht => ?_
  simp [ht]

theorem execRequestCancel_stores {fn : Nat} {via : Via} {s : State} (hs : StoresCanonical s.clusters) :
    OutStores (execRequestCancel fn via s) := by
  refine msgRow_stores hs fun t m ht => ?_
  simp [ht]

theorem execConvPark_stores {fn : Nat} {via : Via} {s : State} (hs : StoresCanonical s.clusters) :
    OutStores (execConvPark fn via s) := by
  refine msgRow_stores hs fun t m ht => ?_
  simp [ht]

theorem execConvCondense_stores {fn : Nat} {via : Via} {s : State} (hs : StoresCanonical s.clusters) :
    OutStores (execConvCondense fn via s) := by
  refine msgRow_stores hs fun t m ht => ?_
  simp [ht]

theorem execConvDrop_stores {fn : Nat} {via : Via} {s : State} (hs : StoresCanonical s.clusters) :
    OutStores (execConvDrop fn via s) := by
  refine msgRow_stores hs fun t m ht => ?_
  simp [ht]

theorem execConvResume_stores {fn : Nat} {via : Via} {desc : ReadResult} {s : State} (hs : StoresCanonical s.clusters) :
    OutStores (execConvResume fn via desc s) := by
  refine msgRow_stores hs fun t m ht => ?_
  simp [ht]

theorem execIdleAction_stores {h : Nat} {s : State} (hs : StoresCanonical s.clusters) :
    OutStores (execIdleAction h s) := by
  refine reqRow_stores hs fun q => ?_
  simp [hs]

theorem execParkExpiry_stores {h : Nat} {s : State} (hs : StoresCanonical s.clusters) :
    OutStores (execParkExpiry h s) := by
  refine reqRow_stores hs fun q => ?_
  simp [hs]

theorem execParkComplete_stores {r : ParkReads} {s : State} (hs : StoresCanonical s.clusters) :
    OutStores (execParkComplete r s) := by
  refine reqRow_stores hs fun q => ?_
  repeat' split
  all_goals simp [hs]

theorem execParkAbandon_stores {r : ParkFailure} {s : State} (hs : StoresCanonical s.clusters) :
    OutStores (execParkAbandon r s) := by
  refine reqRow_stores hs fun q => ?_
  repeat' split
  all_goals simp [hs]

theorem execResumeComplete_stores {h : Nat} {entry : ReadResult} {s : State} (hs : StoresCanonical s.clusters) :
    OutStores (execResumeComplete h entry s) := by
  refine reqRow_stores hs fun q => ?_
  repeat' split
  all_goals simp [hs]

theorem execResumeFail_stores {h : Nat} {entry : ReadResult} {s : State} (hs : StoresCanonical s.clusters) :
    OutStores (execResumeFail h entry s) := by
  refine reqRow_stores hs fun q => ?_
  repeat' split
  all_goals simp [hs]

theorem execMaMac_stores {r : Sys2Proof.Reader} {rows : List Nat} {s : State} (hs : StoresCanonical s.clusters) :
    OutStores (execMaMac r rows s) := by
  refine cmdRow_stores hs fun x k hx => ?_
  split
  · exact withArray_stores hs (macRun_stores hs hx)
  · exact doubt_stores hs

theorem execAmMac_stores {r : Sys2Proof.Reader} {side : AmSide} {base : Nat} {rows : List Nat} {s : State}
    (hs : StoresCanonical s.clusters) :
    OutStores (execAmMac r side base rows s) := by
  refine cmdRow_stores hs fun x k hx => ?_
  split
  · split
    · refine stores_ite hs (withAmvu_stores hs ?_)
      cases side
      · exact amA_stores hs hx
      · exact amB_stores hs hx
    · exact doubt_stores hs
  · exact doubt_stores hs

theorem execVuOp_stores {r : Sys2Proof.Reader} {work : VuWork} {rows : List Nat} {s : State} (hs : StoresCanonical s.clusters) :
    OutStores (execVuOp r work rows s) := by
  refine cmdRow_stores hs fun x k hx => ?_
  split
  · exact withAmvu_stores hs (vuGo_stores hs hx)
  · exact doubt_stores hs

theorem execTwinShadow_stores {c : Nat} {faulty : Option Bytes} {s : State} (hs : StoresCanonical s.clusters) :
    OutStores (execTwinShadow c faulty s) := by
  refine clusterRow_stores hs ?_
  repeat' split
  all_goals simp [hs]

theorem execTensorWrite_stores {port : Nat} {m : LinkMsg} {s : State} (hs : StoresCanonical s.clusters) :
    OutStores (execTensorWrite port m s) := by
  refine portRow_stores hs (stores_ite hs ?_)
  exact tensorMsg_stores (fun t c x ht _ => putBodies_stores ht) hs

theorem execXpReduce_stores {port : Nat} {m : LinkMsg} {s : State} (hs : StoresCanonical s.clusters) :
    OutStores (execXpReduce port m s) := by
  refine portRow_stores hs (stores_ite hs ?_)
  exact tensorMsg_stores (fun t c x ht _ => deliverHead_stores (chanPut_stores ht)) hs

theorem execPlaceReturn_stores {port : Nat} {m : LinkMsg} {s : State} (hs : StoresCanonical s.clusters) :
    OutStores (execPlaceReturn port m s) := by
  refine portRow_stores hs (stores_ite hs (stores_ite (by simp [hs]) ?_))
  have ht : StoresCanonical (takeLink s port 1 (· == m)).clusters := by simpa using hs
  dsimp only
  split
  · exact ht
  · refine stores_ite ht ?_
    split
    · exact ht
    · exact updCluster_stores ht (clusterOf_cs _ ht)

theorem execSemRelay_stores {port : Nat} {m : LinkMsg} {s : State} (hs : StoresCanonical s.clusters) :
    OutStores (execSemRelay port m s) := by
  refine portRow_stores hs (stores_ite hs (stores_ite (by simp [hs]) ?_))
  exact semRelayIn_stores (by simpa using hs)

theorem execCreditReclaimReq_stores {port : Nat} {m : LinkMsg} {s : State} (hs : StoresCanonical s.clusters) :
    OutStores (execCreditReclaimReq port m s) := by
  refine portRow_stores hs ?_
  simp [hs]

theorem execCreditReclaimAck_stores {port : Nat} {m : LinkMsg} {s : State} (hs : StoresCanonical s.clusters) :
    OutStores (execCreditReclaimAck port m s) := by
  refine portRow_stores hs ?_
  dsimp only
  repeat' split
  all_goals simp [hs]

theorem execPortLost_stores {port lost seq : Nat} {s : State} (hs : StoresCanonical s.clusters) :
    OutStores (execPortLost port lost seq s) := by
  unfold execPortLost
  split
  rotate_left
  · exact outStores_fault _
  refine portRow_stores hs ?_
  simp [hs]

theorem execHoldReceived_stores {port : Nat} {s : State} (hs : StoresCanonical s.clusters) :
    OutStores (execHoldReceived port s) := by
  refine portRow_stores hs ?_
  dsimp only
  refine stores_ite hs ?_
  split
  · exact stores_ite (by simpa using endSpanning_stores (by simpa using hs)) (by simpa using hs)
  · simpa using hs

theorem execCapsuleExport_stores {fn : Nat} {via : Via} {s : State} (hs : StoresCanonical s.clusters) :
    OutStores (execCapsuleExport fn via s) := by
  refine msgRow_stores hs fun t m ht => ?_
  exact withHandle_stores (by simp) (by simp) ht

theorem execReplayStart_stores {fn : Nat} {via : Via} {capsule : ReadResult} {s : State} (hs : StoresCanonical s.clusters) :
    OutStores (execReplayStart fn via capsule s) := by
  unfold execReplayStart
  split
  · exact msgRow_stores hs fun t m ht => classF_stores (by simpa using ht) ht
  · exact inRange_stores hs

theorem execReplayStatus_stores {fn : Nat} {via : Via} {s : State} (hs : StoresCanonical s.clusters) :
    OutStores (execReplayStatus fn via s) := by
  refine msgRow_stores hs fun t m ht => ?_
  simp [ht]

theorem execMgmtForward_stores {port : Nat} {m : LinkMsg} {desc : ReadResult} {s : State} (hs : StoresCanonical s.clusters) :
    OutStores (execMgmtForward port m desc s) := by
  refine portRow_stores hs ?_
  simp [hs]

theorem execTelemetryRead_stores {fn : Nat} {via : Via} {s : State} (hs : StoresCanonical s.clusters) :
    OutStores (execTelemetryRead fn via s) := by
  refine msgRow_stores hs fun t m ht => ?_
  simp [ht]

theorem execAccountingRead_stores {fn : Nat} {via : Via} {s : State} (hs : StoresCanonical s.clusters) :
    OutStores (execAccountingRead fn via s) := by
  refine msgRow_stores hs fun t m ht => ?_
  simp [ht]

theorem execTenantSetCreate_stores {fn : Nat} {via : Via} {s : State} (hs : StoresCanonical s.clusters) :
    OutStores (execTenantSetCreate fn via s) := by
  exact msgRow_stores hs fun t m ht => withTenant_stores (fun b => by simpa using ht) ht

theorem execTenantSetModify_stores {fn : Nat} {via : Via} {s : State} (hs : StoresCanonical s.clusters) :
    OutStores (execTenantSetModify fn via s) := by
  exact msgRow_stores hs fun t m ht => withTenant_stores (fun b => by simpa using ht) ht

theorem execTenantSetDelete_stores {fn : Nat} {via : Via} {s : State} (hs : StoresCanonical s.clusters) :
    OutStores (execTenantSetDelete fn via s) := by
  exact msgRow_stores hs fun t m ht => withTenant_stores (fun b => by simpa using ht) ht

theorem execKeyInstall_stores {fn : Nat} {via : Via} {desc : ReadResult} {s : State} (hs : StoresCanonical s.clusters) :
    OutStores (execKeyInstall fn via desc s) := by
  refine msgRow_stores hs fun t m ht => ?_
  simp [ht]

theorem execSpdmTransport_stores {fn : Nat} {via : Via} {req : ReadResult} {s : State} (hs : StoresCanonical s.clusters) :
    OutStores (execSpdmTransport fn via req s) := by
  refine msgRow_stores hs fun t m ht => ?_
  simp [ht]

/-- Whatever command is executed, every Cluster Store that was in canonical form still is. -/
theorem exec_stores (i : Instr) {s : State} (hs : StoresCanonical s.clusters) : OutStores (exec i s) := by
  cases i with
  | queueCreate _ _ => exact execQueueCreate_stores hs
  | queueDelete _ _ => exact execQueueDelete_stores hs
  | partitionCreate _ _ _ => exact execPartitionCreate_stores hs
  | partitionModify _ _ _ => exact execPartitionModify_stores hs
  | partitionDisableDrain _ _ => exact execPartitionDisableDrain_stores hs
  | partitionDisableAbort _ _ => exact execPartitionDisableAbort_stores hs
  | modelLoad _ _ _ => exact execModelLoad_stores hs
  | modelLoadDone _ _ _ => exact execModelLoadDone_stores hs
  | modelUnload _ _ => exact execModelUnload_stores hs
  | linkSetGroup _ _ => exact execLinkSetGroup_stores hs
  | linkSetPortEnable _ _ => exact execLinkSetPortEnable_stores hs
  | linkSetPortDisable _ _ => exact execLinkSetPortDisable_stores hs
  | linkSetPortRetrain _ _ => exact execLinkSetPortRetrain_stores hs
  | adapterRegister _ _ => exact execAdapterRegister_stores hs
  | adapterRegisterDone _ _ _ => exact execAdapterRegisterDone_stores hs
  | adapterRetireDefer _ _ => exact execAdapterRetireDefer_stores hs
  | adapterRetireForce _ _ => exact execAdapterRetireForce_stores hs
  | tenantSetCreate _ _ => exact execTenantSetCreate_stores hs
  | tenantSetModify _ _ => exact execTenantSetModify_stores hs
  | tenantSetDelete _ _ => exact execTenantSetDelete_stores hs
  | keyInstall _ _ _ => exact execKeyInstall_stores hs
  | requestSubmit _ _ _ => exact execRequestSubmit_stores hs
  | requestCancel _ _ => exact execRequestCancel_stores hs
  | convPark _ _ => exact execConvPark_stores hs
  | convResume _ _ _ => exact execConvResume_stores hs
  | convCondense _ _ => exact execConvCondense_stores hs
  | convDrop _ _ => exact execConvDrop_stores hs
  | capsuleExport _ _ => exact execCapsuleExport_stores hs
  | replayStart _ _ _ => exact execReplayStart_stores hs
  | replayStatus _ _ => exact execReplayStatus_stores hs
  | telemetryRead _ _ => exact execTelemetryRead_stores hs
  | accountingRead _ _ => exact execAccountingRead_stores hs
  | pinmuxSet _ _ => exact execPinmuxSet_stores hs
  | pinmuxArmed _ => exact execPinmuxArmed_stores hs
  | powerLimitSet _ _ => exact execPowerLimitSet_stores hs
  | fwActivate _ _ _ => exact execFwActivate_stores hs
  | fwActivateQuiesced => exact execFwActivateQuiesced_stores hs
  | fwActivateTimeout => exact execFwActivateTimeout_stores hs
  | recover _ _ => exact execRecover_stores hs
  | recoveryVerifyDone _ => exact execRecoveryVerifyDone_stores hs
  | recoveryTestDone _ => exact execRecoveryTestDone_stores hs
  | spdmTransport _ _ _ => exact execSpdmTransport_stores hs
  | invalidOpcode _ _ => exact execInvalidOpcode_stores hs
  | mailboxDoorbell _ _ => exact execMailboxDoorbell_stores hs
  | sqTailWrite _ _ _ => exact execSqTailWrite_stores hs
  | cqHeadWrite _ _ _ => exact execCqHeadWrite_stores hs
  | sqEntryFetch _ _ => exact execSqEntryFetch_stores hs
  | windowValidSet _ => exact execWindowValidSet_stores hs
  | windowValidClear _ => exact execWindowValidClear_stores hs
  | msixVectorUnmask _ _ => exact execMsixVectorUnmask_stores hs
  | logClear _ => exact execLogClear_stores hs
  | partitionReset _ => exact execPartitionReset_stores hs
  | dtcLoRead _ => exact execDtcLoRead_stores hs
  | dtcHiRead _ => exact execDtcHiRead_stores hs
  | registerWrite _ _ _ _ => exact execRegisterWrite_stores hs
  | smbusPointer _ => exact execSmbusPointer_stores hs
  | smbusRead => exact execSmbusRead_stores hs
  | jtagDebugUnlock _ _ => exact execJtagDebugUnlock_stores hs
  | jtagExtest _ => exact execJtagExtest_stores hs
  | pwrGoodRise => exact execPwrGoodRise_stores hs
  | pllLock _ _ => exact execPllLock_stores hs
  | pllLockTimeout => exact execPllLockTimeout_stores hs
  | fwImageLoaded _ _ => exact execFwImageLoaded_stores hs
  | hbmTrainingDone _ => exact execHbmTrainingDone_stores hs
  | bistDone _ => exact execBistDone_stores hs
  | katDone _ _ => exact execKatDone_stores hs
  | stageTimeout _ => exact execStageTimeout_stores hs
  | coldReset => exact execColdReset_stores hs
  | perstNAssert => exact execPerstNAssert_stores hs
  | perstNDeassert => exact execPerstNDeassert_stores hs
  | pcieLinkDown => exact execPcieLinkDown_stores hs
  | pcieLinkUp => exact execPcieLinkUp_stores hs
  | pcieHotReset => exact execPcieHotReset_stores hs
  | flrVf _ => exact execFlrVf_stores hs
  | flrPf => exact execFlrPf_stores hs
  | flrDmaDrained _ => exact execFlrDmaDrained_stores hs
  | throttleNAssert => exact execThrottleNAssert_stores hs
  | throttleNDeassert => exact execThrottleNDeassert_stores hs
  | stepSyncArmed => exact execStepSyncArmed_stores hs
  | stepSyncCandidate _ => exact execStepSyncCandidate_stores hs
  | stepSyncMark => exact execStepSyncMark_stores hs
  | stepSyncOutPulse => exact execStepSyncOutPulse_stores hs
  | syncLost => exact execSyncLost_stores hs
  | dtcSlew => exact execDtcSlew_stores hs
  | thermalSample _ _ => exact execThermalSample_stores hs
  | thermalTripClear => exact execThermalTripClear_stores hs
  | vcoreRequestUpdate => exact execVcoreRequestUpdate_stores hs
  | vcoreHold _ => exact execVcoreHold_stores hs
  | vcoreHoldRelease _ => exact execVcoreHoldRelease_stores hs
  | domainUpDone _ => exact execDomainUpDone_stores hs
  | powerGovernorTick => exact execPowerGovernorTick_stores hs
  | permitGranted _ => exact execPermitGranted_stores hs
  | idleFreeze _ => exact execIdleFreeze_stores hs
  | stepSyncPlan _ _ => exact execStepSyncPlan_stores hs
  | stepPlace _ => exact execStepPlace_stores hs
  | maMac _ _ => exact execMaMac_stores hs
  | amMac _ _ _ _ => exact execAmMac_stores hs
  | vuOp _ _ _ => exact execVuOp_stores hs
  | load _ => exact execLoad_stores hs
  | send _ => exact execSend_stores hs
  | bind _ => exact execBind_stores hs
  | semSignal _ => exact execSemSignal_stores hs
  | semWait _ => exact execSemWait_stores hs
  | semAcquire _ => exact execSemAcquire_stores hs
  | semRelease _ => exact execSemRelease_stores hs
  | routeLoad _ => exact execRouteLoad_stores hs
  | cheapPoint _ => exact execCheapPoint_stores hs
  | kvStage _ => exact execKvStage_stores hs
  | sample _ _ => exact execSample_stores hs
  | stepEnd _ => exact execStepEnd_stores hs
  | twinShadow _ _ => exact execTwinShadow_stores hs
  | channelDelivery _ _ => exact execChannelDelivery_stores hs
  | probeLaunch _ _ => exact execProbeLaunch_stores hs
  | probe _ _ _ _ _ => exact execProbe_stores hs
  | noRetire _ => exact execNoRetire_stores hs
  | stepSyncReady _ _ _ _ => exact execStepSyncReady_stores hs
  | stepCommit _ => exact execStepCommit_stores hs
  | stepSyncRelease _ _ => exact execStepSyncRelease_stores hs
  | stepKill _ _ => exact execStepKill_stores hs
  | killComplete _ => exact execKillComplete_stores hs
  | stepSyncAbort _ _ _ => exact execStepSyncAbort_stores hs
  | stepSyncTurn _ _ => exact execStepSyncTurn_stores hs
  | turnPreempt _ => exact execTurnPreempt_stores hs
  | shelveCheapPointClean _ => exact execShelveCheapPointClean_stores hs
  | shelveDone _ => exact execShelveDone_stores hs
  | shelveTimeout _ => exact execShelveTimeout_stores hs
  | shelveResume _ => exact execShelveResume_stores hs
  | drainTimeout _ => exact execDrainTimeout_stores hs
  | ledgerClose => exact execLedgerClose_stores hs
  | cidxPoll _ _ => exact execCidxPoll_stores hs
  | cidxReadDone _ _ _ => exact execCidxReadDone_stores hs
  | ringIrqTicks _ => exact execRingIrqTicks_stores hs
  | vectorHoldoffEnd _ _ => exact execVectorHoldoffEnd_stores hs
  | idleAction _ => exact execIdleAction_stores hs
  | parkExpiry _ => exact execParkExpiry_stores hs
  | parkComplete _ => exact execParkComplete_stores hs
  | parkAbandon _ => exact execParkAbandon_stores hs
  | resumeComplete _ _ => exact execResumeComplete_stores hs
  | resumeFail _ _ => exact execResumeFail_stores hs
  | dmaReadCompletion _ _ => exact execDmaReadCompletion_stores hs
  | completionBarrierDone _ _ => exact execCompletionBarrierDone_stores hs
  | adapterFetchStart _ => exact execAdapterFetchStart_stores hs
  | adapterFetchDone _ _ _ => exact execAdapterFetchDone_stores hs
  | adapterEvictionDone _ _ => exact execAdapterEvictionDone_stores hs
  | sinterFrameSealed _ _ => exact execSinterFrameSealed_stores hs
  | streamLayerSealed _ _ _ => exact execStreamLayerSealed_stores hs
  | streamStalled _ _ => exact execStreamStalled_stores hs
  | scrubRead _ _ _ => exact execScrubRead_stores hs
  | hubWatchdog _ => exact execHubWatchdog_stores hs
  | doubtContained _ _ _ _ => exact execDoubtContained_stores hs
  | doubtUncontained _ _ _ _ => exact execDoubtUncontained_stores hs
  | linkFlitReceived _ _ _ => exact execLinkFlitReceived_stores hs
  | nakResendTimeout _ => exact execNakResendTimeout_stores hs
  | ackCreditTimer _ => exact execAckCreditTimer_stores hs
  | tensorWrite _ _ => exact execTensorWrite_stores hs
  | placeReturn _ _ => exact execPlaceReturn_stores hs
  | xpReduce _ _ => exact execXpReduce_stores hs
  | semRelay _ _ => exact execSemRelay_stores hs
  | mgmtForward _ _ _ => exact execMgmtForward_stores hs
  | ident _ _ => exact execIdent_stores hs
  | ping _ => exact execPing_stores hs
  | echo _ _ => exact execEcho_stores hs
  | steer _ _ => exact execSteer_stores hs
  | ledger _ _ _ => exact execLedger_stores hs
  | ledgerSend _ => exact execLedgerSend_stores hs
  | portLost _ _ _ => exact execPortLost_stores hs
  | disableReq _ => exact execDisableReq_stores hs
  | disableAck _ => exact execDisableAck_stores hs
  | creditReclaimReq _ _ => exact execCreditReclaimReq_stores hs
  | creditReclaimAck _ _ => exact execCreditReclaimAck_stores hs
  | holdReceived _ => exact execHoldReceived_stores hs
  | laneFailure _ _ => exact execLaneFailure_stores hs
  | laneRecalStart _ _ => exact execLaneRecalStart_stores hs
  | laneRecalDone _ _ _ => exact execLaneRecalDone_stores hs
  | portStateDone _ _ => exact execPortStateDone_stores hs
  | portStateTimeout _ => exact execPortStateTimeout_stores hs
  | portDown _ _ => exact execPortDown_stores hs
  | portDisableTimeout _ => exact execPortDisableTimeout_stores hs
  | candidateDiscarded => exact execCandidateDiscarded_stores hs
  | peerLeavesHold _ => exact execPeerLeavesHold_stores hs
  | flashPersistDone _ => exact execFlashPersistDone_stores hs

/-- A step of the model, a tick or a command, keeps every Cluster Store in canonical form. -/
theorem step_stores {s : State} (hs : StoresCanonical s.clusters) : OutStores (step s) := by
  unfold step
  split
  · exact outStores_next (tick_stores hs)
  · exact exec_stores _ hs

/-- Settles O60: each state operation that a command is made of keeps the canonical form (the lemmas `_stores`), or
leaves the clusters alone (the lemmas `_clusters`). -/
theorem everyStepKeepsStoresCanonical : Obligations.EveryStepKeepsStoresCanonical := by
  unfold Obligations.EveryStepKeepsStoresCanonical
  intro s t hw ht
  rw [wf_iff_storesCanonical] at hw ⊢
  exact step_stores hw t ht

end Sys2Proof.Machine
end

section
/-! SUPPORT. The front of the queue, the mailbox, vectors and windows. -/

namespace Sys2Proof.Machine

/-! ### Rows behind a guard -/

/-- A row without a bound acts in a live package. -/
theorem guarded_next {s : State} (t : State) (hl : Live s) : (.next (guarded s t) : Out) = .next t := by rw [guarded_live t hl]

/-- A row of one unit acts in a live package where the unit exists. -/
theorem inRange_guarded {s : State} {n b : Nat} (t : State) (hn : n < b) (hl : Live s) : inRange n b (guarded s t) = .next t := by
  rw [inRange_next _ hn, guarded_live t hl]

/-- Settles O1. -/
theorem stepRunsFrontCommand : Obligations.StepRunsFrontCommand := by
  unfold Obligations.StepRunsFrontCommand
  exact fun s c rest h => step_of_front_command h

/-! ### The mailbox (R353) -/

theorem exec_mailboxDoorbell {s : State} {fn : Nat} (value : Nat) (hf : fn < 16) :
    exec (.mailboxDoorbell fn value) s = .next (doorbell s fn value) := inRange_next _ hf

theorem doorbell_unheard {s : State} {fn : Nat} (value : Nat) (h : fnEnabled s fn = false ∨ (fnOf s fn).flr ≠ none) :
    doorbell s fn value = s := by
  rw [doorbell, if_pos]
  simpa [Option.isSome_iff_ne_none] using h

theorem doorbell_busy {s : State} {fn : Nat} (value : Nat) (ht : TakesWrites s fn) (hb : (fnOf s fn).mbox.st = .busy) :
    doorbell s fn value = updFn s fn fun f => { f with mbox := { f.mbox with overrun := true } } := by
  simp [doorbell, ht.1, ht.2, hb]

/-- A DOORBELL that finds STATE IDLE or DONE, as far as firmware or the front end's own answer. -/
theorem doorbell_free {s : State} {fn : Nat} (value : Nat) (ht : TakesWrites s fn) (hb : (fnOf s fn).mbox.st ≠ .busy) :
    doorbell s fn value =
      let u := updFn s fn fun f => { f with mbox := { f.mbox with seq := value % 65536, st := .busy, taken := false } }
      if s.flt.pkg = .uncontained ∨ bootFailed s.boot.stage = true then refuse u (ctxOf (.mbox fn) (fnOf s fn).mbox.cmd 0) .deviceQuarantined
      else u := by
  simp [doorbell, ht.1, ht.2, hb]

/-- A write of whole words into the CMD slot reaches it. -/
theorem exec_registerWrite_cmd {s : State} {fn off : Nat} {bs : Bytes} (hf : fn < 16) (ht : TakesWrites s fn)
    (h : (bar0Bases fn).1 ≤ off ∧ off + bs.length ≤ (bar0Bases fn).1 + 0x40 ∧ off % 4 = 0 ∧ bs.length % 4 = 0 ∧ 4 ≤ bs.length) :
    exec (.registerWrite fn .bar0 off bs) s = .next (cmdWrite s fn (off - (bar0Bases fn).1) bs) := by
  change execRegisterWrite fn .bar0 off bs s = _
  obtain ⟨he, hr⟩ := ht
  simp [execRegisterWrite, inRange_next _ hf, he, hr, h]

/-- Two changes of one unit agree when they make the same of the unit that is there. -/
theorem modAt_congr {α : Type} {l : List α} {i : Nat} {f g : α → α} (h : ∀ a, l[i]? = some a → f a = g a) :
    modAt l i f = modAt l i g := by
  refine List.ext_getElem? fun j => ?_
  rw [modAt_getElem?, modAt_getElem?]
  split
  next e => subst e; exact Option.map_congr fun a ha => h a ha
  · rfl

theorem updFn_congr {s : State} {n : Nat} {f g : Fn → Fn} (h : f (fnOf s n) = g (fnOf s n)) : updFn s n f = updFn s n g := by
  rw [updFn, updFn, modAt_congr (f := f) (g := g) fun a ha => ?_]
  rwa [fnOf, List.getD_eq_getElem?_getD, ha] at h

theorem cmdWrite_busy {s : State} {fn : Nat} (off : Nat) (bs : Bytes) (hb : (fnOf s fn).mbox.st = .busy) :
    cmdWrite s fn off bs = updFn s fn fun f => { f with mbox := { f.mbox with overrun := true } } :=
  updFn_congr (if_pos (by simp [hb]))

/-- Settles O6: the four cases of the doorbell, and a write to a busy CMD slot. -/
theorem doorbellPassesTheCmdSlot : Obligations.DoorbellPassesTheCmdSlot := by
  unfold Obligations.DoorbellPassesTheCmdSlot
  intro s fn value hf
  refine ⟨fun h => ?_, fun he hr hb => ⟨?_, fun off bs h1 h2 h3 h4 h5 => ?_⟩, fun he hr hb => ?_⟩
  · rw [exec_mailboxDoorbell value hf, doorbell_unheard value h]
  · rw [exec_mailboxDoorbell value hf, doorbell_busy value ⟨he, hr⟩ hb]
  · rw [exec_registerWrite_cmd hf ⟨he, hr⟩ ⟨h1, h2, h3, h4, h5⟩, cmdWrite_busy _ _ hb]
  · rw [exec_mailboxDoorbell value hf, doorbell_free value ⟨he, hr⟩ hb]
    refine ⟨fun hl hs => ?_, fun h => ?_⟩
    · rw [if_neg (by simpa [Live, hs] using hl)]
    · rw [if_pos (by simpa [Live] using h)]

theorem issue_boot (s : State) (w : BusWrite) : (issue s w).boot = s.boot := congrArg (·.boot) (issue_hostOnly s w)

/-! ### Vectors (R362, R363) -/

/-- A vector that may send, sends, clears pending and starts its holdoff; any other stays as it is. -/
theorem trySend_eq {s : State} (fn v : Nat) (hl : Live s) :
    trySend s fn v =
      if (vecOf s fn v).pending = true ∧ (vecOf s fn v).masked = false ∧ (vecOf s fn v).running = none ∧ (v = 0 ∨ s.flt.pkg = .serving) then
        updVec (issue s { fn := fn, kind := .msix, addr := (vecOf s fn v).addr, data := leBytes 4 (vecOf s fn v).data }) fn v fun z =>
          { z with pending := false, running := if z.holdoff = 0 then none else some (s.boot.dtc + z.holdoff) }
      else s := by
  have hp : (s.flt.pkg != PkgState.uncontained) = true := by simpa [Live] using hl
  simp [trySend, hp, and_assoc, issue_boot]

/-- Settles O12: unmasking, the end of a holdoff and a signal each change the vector, then it is sent if it may. -/
theorem vectorsSendOnceUnmasked : Obligations.VectorsSendOnceUnmasked := by
  unfold Obligations.VectorsSendOnceUnmasked
  intro s fn v hf hv hl open_ over_ sends ready
  have hsend : ∀ f, let u := updVec s fn v f
      (sends u → trySend u fn v = ready u (vecOf u fn v)) ∧ (¬ sends u → trySend u fn v = u) := fun f =>
    ⟨fun h => (trySend_eq (s := updVec s fn v f) fn v hl).trans (if_pos h), fun h => (trySend_eq (s := updVec s fn v f) fn v hl).trans (if_neg h)⟩
  have hmask : exec (.msixVectorUnmask fn v) s = .next (trySend open_ fn v) := by
    change execMsixVectorUnmask fn v s = _
    rw [execMsixVectorUnmask, if_pos hv, inRange_guarded _ hf hl]
  refine ⟨fun h => ?_, fun h => ?_, fun t ht hd => ?_, fun h => ?_, fun h => ?_⟩
  · rw [hmask, (hsend _).1 h]
  · rw [hmask, (hsend _).2 h]
  · have hover : exec (.vectorHoldoffEnd fn v) s = .next (trySend over_ fn v) := by
      change execVectorHoldoffEnd fn v s = _
      rw [execVectorHoldoffEnd, if_pos hv, inRange_guarded _ hf hl, ht]
      exact congrArg _ (if_pos hd)
    exact ⟨fun h => by rw [hover, (hsend _).1 h], fun h => by rw [hover, (hsend _).2 h]⟩
  · rw [signal, if_pos ⟨hv, hl⟩]
    exact (hsend _).1 h
  · rw [signal, if_pos ⟨hv, hl⟩]
    exact (hsend _).2 h

/-! ### Windows (R345 to R347) -/

/-- Settles O13: the checks of the model are the soundness that the rules ask for. -/
theorem windowsAreValidatedAndCleared : Obligations.WindowsAreValidatedAndCleared := by
  unfold Obligations.WindowsAreValidatedAndCleared
  intro s d hd hl w page sound
  have hset : exec (.windowValidSet d) s = .next (winSet s d) := inRange_guarded _ hd hl
  have hok : winFieldsOk s w = true ↔ sound := by
    have hpos : 0 < 2 ^ w.pageLog2 := Nat.two_pow_pos _
    have hlen : 0 < w.length ∧ w.length ≤ 2 ^ 36 ∧ w.length % 2 ^ w.pageLog2 = 0 ↔
        2 ^ w.pageLog2 ≤ w.length ∧ w.length ≤ 2 ^ 36 ∧ w.length % 2 ^ w.pageLog2 = 0 :=
      ⟨fun ⟨h0, hm, hz⟩ => ⟨Nat.le_of_dvd h0 (Nat.dvd_of_mod_eq_zero hz), hm, hz⟩, fun ⟨h0, h⟩ => ⟨hpos.trans_le h0, h⟩⟩
    simp only [winFieldsOk, fnEnabled, bit, Bool.and_eq_true, decide_eq_true_eq, hlen]
    simp only [sound, page, List.contains_eq_mem, List.mem_cons, List.not_mem_nil, or_false, Bool.not_eq_true', Bool.and_eq_false_iff,
      List.any_eq_false, bne_iff_ne, beq_iff_eq, Bool.and_eq_true, decide_eq_true_eq, beq_eq_false_iff_ne, Nat.reducePow]
    grind
  refine ⟨fun hv => ?_, fun hv hs => ?_, fun hv hs => ?_, inRange_guarded _ hd hl⟩
  · rw [hset, winSet, if_pos hv]
  · rw [hset, winSet, if_neg (by simpa using hv), if_pos (hok.2 hs)]
  · rw [hset, winSet, if_neg (by simpa using hv), if_neg (mt hok.1 hs)]

end Sys2Proof.Machine
end

section
/-! SUPPORT. SMBus, boot timeouts, time marks, throttle and thermal sensing. -/

namespace Sys2Proof.Machine

/-! ### SMBus (R513) -/

theorem partCode_shown (s : State) : partCode (shown s) = partCode s := by
  unfold shown
  split <;> rfl

@[simp] theorem length_leBytes (n v : Nat) : (leBytes n v).length = n := by
  induction n generalizing v with
  | zero => rfl
  | succ n ih => simp [leBytes, ih]

/-- The first word of the identity block is PART and REVISION (Table REG-1). -/
theorem take_identityBytes (s : State) : (identityBytes s).take 4 = leBytes 4 (partCode s * 65536 + 0xB0) := by
  unfold identityBytes
  extract_lets
  simp only [List.append_assoc]
  exact List.take_left' (length_leBytes _ _)

/-- The bytes read from a block's start begin as the block does, as far as it reaches. -/
theorem take_readBlocks {b : Bytes} {rest : List (Nat × Bytes)} {k n : Nat} (hk : k ≤ n) (hb : k ≤ b.length) :
    (readBlocks ((0, b) :: rest) 0 n).take k = b.take k := by
  refine List.ext_getElem (by simp [readBlocks, hk, hb]) fun i hi _ => ?_
  have hi : i < b.length := by simp [readBlocks] at hi; omega
  simp [readBlocks, blockByte, hi]

theorem take_smbRead_identity (s : State) : (smbRead s 0 32).take 4 = leBytes 4 (partCode s * 65536 + 0xB0) := by
  have hlen : 4 ≤ (identityBytes (shown s)).length := by
    have h := congrArg List.length (take_identityBytes (shown s))
    rw [List.length_take, length_leBytes] at h
    omega
  rw [smbRead, ← partCode_shown s, ← take_identityBytes]
  exact take_readBlocks (by decide) hlen

/-- Settles O16: both rows act from PWR_GOOD on, and the identity block begins with PART and REVISION. -/
theorem smbusServesFromPowerGood : Obligations.SmbusServesFromPowerGood := by
  unfold Obligations.SmbusServesFromPowerGood
  intro s ptr
  refine ⟨fun h => ⟨?_, ?_⟩, fun h => ⟨?_, { s with host := { s.host with
    smbData := smbRead s s.host.smbPtr 32, smbPtr := (s.host.smbPtr + 32) % 2 ^ 24 } }, ?_, rfl, rfl, ?_, fun hz => ?_⟩⟩
  · exact congrArg _ (if_neg (by simp [h]))
  · exact congrArg _ (if_neg (by simp [h]))
  · exact congrArg _ (if_pos h)
  · exact congrArg _ (if_pos h)
  · simp [smbRead, readBlocks]
  · exact (congrArg (fun p => (smbRead s p 32).take 4) hz).trans ((take_smbRead_identity s).trans rfl)

/-! ### Boot timeouts (R466, R474) -/

/-- A response to a message of a function of this package changes the host side only (R351). -/
theorem respondNum_hostOnly {ctx : MsgCtx} (ho : ∀ port fn, ctx.origin ≠ .link port fn) (s : State) (code : Nat) (body : Bytes) :
    hostOnly s (respondNum s ctx code body) := by
  unfold respondNum
  split
  · split
    · rfl
    · exact mboxRespond_hostOnly _ _ _
  · split
    · rfl
    · exact cqPost_hostOnly _ _ _ _
  next port fn h => exact absurd h (ho port fn)
  · rfl

theorem failMailboxes_hostOnly (s : State) : hostOnly s (failMailboxes s) := by
  refine foldl_hostOnly _ (fun t n => ?_) _ _
  dsimp only
  split
  · exact respondNum_hostOnly (ctx := ctxOf (.mbox n) _ 0) (by simp [ctxOf]) _ _ _
  · rfl

/-- What a failed boot leaves, but for the host side: the stage, the two pins, and one entry more in the fault log (R477). -/
def bootStopped (s : State) (st : BootStage) (level unit : Nat) (drawn : Nat) : State :=
  let t := logFault { s with freeCtr := drawn } (0x0200 + stageVal st) level 0xFF unit 0
  { t with flt := { t.flt with faultN := true, quietN := true }, boot := { t.boot with stage := st } }

theorem bootFail_hostOnly (s : State) (st : BootStage) (unit : Option Nat) :
    ∃ level u drawn, hostOnly (bootStopped s st level u drawn) (bootFail s st unit) ∧ ∀ n, unit = some n → u = n := by
  refine ⟨(freeVal s).1 % 256, match unit with | some n => n | none => (freeVal (freeVal s).2).1 % 2 ^ 32, s.freeCtr + 2,
    hostOnly_trans ?_ (failMailboxes_hostOnly _), fun n h => by rw [h]⟩
  exact stateChanged_hostOnly _

/-- A boot that fails stops at that stage and changes nothing else of the boot state. -/
theorem bootFail_boot (s : State) (st : BootStage) (unit : Option Nat) : (bootFail s st unit).boot =
    { s.boot with stage := st } := by
  obtain ⟨_, _, _, h, -⟩ := bootFail_hostOnly s st unit
  exact congrArg (·.boot) h

/-- Its fault log, its pins and its package state (R477). -/
theorem bootFail_flt (s : State) (st : BootStage) (unit : Option Nat) :
    ∃ e, (bootFail s st unit).flt = { s.flt with
        log := (s.flt.log.filter fun x => x.seq % 256 != s.flt.logCount % 256) ++ [e]
        logCount := (s.flt.logCount + 1) % 2 ^ 32, faultN := true, quietN := true } ∧
      e.source = 0x0200 + stageVal st ∧ e.seq = s.flt.logCount ∧ e.dtc = s.boot.dtc ∧ e.part = 0xFF ∧ ∀ n, unit = some n → e.unit = n := by
  obtain ⟨level, u, _, h, hu⟩ := bootFail_hostOnly s st unit
  exact ⟨_, congrArg (·.flt) h, rfl, rfl, rfl, rfl, hu⟩

/-- Settles O22: each timeout is a failed boot. -/
theorem bootTimeoutsStop : Obligations.BootTimeoutsStop := by
  unfold Obligations.BootTimeoutsStop
  intro s
  refine ⟨fun hp hs hl => ⟨bootFail s .pllFail none, ?_, bootFail_boot _ _ _, ?_⟩, fun n hl hs => ⟨bootFail s .stageTimeout (some (n % 2 ^ 32)), ?_,
    bootFail_boot _ _ _, ?_⟩⟩
  · change execPllLockTimeout s = _
    rw [execPllLockTimeout, if_pos (by simp [hp, hs, hl])]
  · rw [bootFail_boot]; rfl
  · refine (guarded_next _ hl).trans (congrArg _ (if_pos ?_))
    simp only [List.mem_cons, List.not_mem_nil, or_false] at hs
    rcases hs with h | h | h | h | h <;> simp [stageBound, h]
  · obtain ⟨e, hf, -, -, -, hp, hu⟩ := bootFail_flt s .stageTimeout (some (n % 2 ^ 32))
    exact ⟨e, by rw [hf]; exact List.getLast?_concat .., hu _ rfl, hp⟩

/-! ### Time marks (R403, R507) -/

/-- The distance of a DTC value from the nearest multiple of 2^20 (R403). -/
theorem markError_eq {e k : Nat} {d : Int} (h : (e : Int) = k * 2 ^ 20 + d) (hlo : -(2 ^ 19) < d) (hhi : d < 2 ^ 19) :
    markError e = d := by
  unfold markError markPeriod
  dsimp only
  split <;> omega

theorem exec_stepSyncMark {s : State} {e : Nat} (hl : Live s) (hf : s.pins.filter = .candidate e) :
    exec .stepSyncMark s = .next (takeMark s e) := by
  refine (guarded_next _ hl).trans ?_
  rw [hf]

/-- Settles O28: the filter, the mark and the slew each by their row. -/
theorem timeMarksAlignTheDtc : Obligations.TimeMarksAlignTheDtc := by
  unfold Obligations.TimeMarksAlignTheDtc
  intro s hl
  refine ⟨fun hf => ?_, fun e hf => ?_, fun e hf => ⟨?_, fun hg => ?_, fun hg k d he hlo hhi => ⟨fun hd => ?_, fun hd => ?_⟩⟩,
    fun hg hp hz => ?_, fun hg ht => ?_, fun hz ht hp => ?_⟩
  · exact (guarded_next _ hl).trans (congrArg _ (if_pos (by simp [hf])))
  · exact (guarded_next _ hl).trans (congrArg _ (if_pos (by simp [hf])))
  · refine (guarded_next _ hl).trans ?_
    rw [hf]
    rfl
  · rw [exec_stepSyncMark hl hf, takeMark]
    exact congrArg _ (if_pos hg)
  · have h : (markError e).natAbs ≤ 16384 := by rw [markError_eq he hlo hhi]; omega
    rw [exec_stepSyncMark hl hf, takeMark, markError_eq he hlo hhi] at *
    exact congrArg _ ((if_neg hg).trans (if_pos (by omega)))
  · rw [exec_stepSyncMark hl hf, takeMark, markError_eq he hlo hhi]
    exact congrArg _ ((if_neg hg).trans (if_neg (by omega)))
  · exact (guarded_next _ hl).trans (congrArg _ (if_pos ⟨hg, hp, hz⟩))
  · exact (guarded_next _ hl).trans (congrArg _ (if_pos ⟨hg, ht⟩))
  · refine ⟨_, (guarded_next _ hl).trans (congrArg _ (if_neg (by omega))), ?_⟩
    by_cases hs : 0 < s.pins.slew <;> simp [hs]

/-! ### Thermal sensing (R421, R422) -/

theorem maxInt_eq {xs : List Int} {x m : Int} (hm : m ∈ x :: xs) (hle : ∀ y ∈ x :: xs, y ≤ m) : maxInt xs x = m := by
  induction xs generalizing x with
  | nil => simpa [maxInt, eq_comm] using hm
  | cons y ys ih =>
    refine ih ?_ ?_
    · simp only [List.mem_cons] at hm hle ⊢
      have hx := hle x (.inl rfl)
      have hy := hle y (.inr (.inl rfl))
      grind
    · grind

/-- What a thermal sample leaves of T_max and of the time since which it has stayed below 100 degrees (R422). -/
def sampled (s : State) (m : Int) : State :=
  { s with pins := { s.pins with tMax := m }, flt := { s.flt with coolSince := if m < 100 then some (s.flt.coolSince.getD s.boot.dtc) else none } }

theorem thermalSample_eq {s : State} {cd hub : List Int} {m : Int} (hl : Live s) (hm : m ∈ cd ++ hub)
    (hle : ∀ y ∈ cd ++ hub, y ≤ m) :
    exec (.thermalSample cd hub) s = .next (
      if m < 110 then sampled s m
      else
        let t := sampled s m
        let hubHot := hub.any fun t => decide (110 ≤ t)
        let u := { t with flt := { t.flt with trip := true, tripHub := t.flt.tripHub || hubHot } }
        if s.flt.trip = true ∧ hubHot = false then u
        else if hubHot = true then
          doubtUncontained u 0x12 0xFF (match (hub.zipIdx).find? fun e => decide (110 ≤ e.1) with | some e => e.2 | none => 0) 0
        else doubt u 0x11 0xFF (match (cd.zipIdx).find? fun e => decide (110 ≤ e.1) with | some e => e.2 / 4 | none => 0) 0) := by
  refine (guarded_next _ hl).trans ?_
  cases h : cd ++ hub with
  | nil => simp [h] at hm
  | cons x xs =>
    rw [h] at hm hle
    dsimp only
    rw [maxInt_eq hm hle]
    cases hc : s.flt.coolSince <;> simp [sampled, hc] <;> rfl

/-- The first reading of 110 degrees or more, by its place. -/
theorem find_hot {l : List Int} (h : ∃ y ∈ l, 110 ≤ y) :
    ∃ y i, (l.zipIdx.find? fun e => decide (110 ≤ e.1)) = some (y, i) ∧ l[i]? = some y ∧ 110 ≤ y := by
  obtain ⟨y, hy, hot⟩ := h
  cases hf : l.zipIdx.find? fun e => decide (110 ≤ e.1) with
  | none =>
    obtain ⟨i, hi⟩ := List.mem_iff_getElem?.1 hy
    exact absurd (List.find?_eq_none.1 hf (y, i) (List.mk_mem_zipIdx_iff_getElem?.2 hi)) (by simpa using hot)
  | some e => exact ⟨e.1, e.2, rfl, List.mk_mem_zipIdx_iff_getElem?.1 (List.mem_of_find?_eq_some hf), by simpa using List.find?_some hf⟩

/-- Settles O32: a sample by the highest reading and by where it lies. -/
theorem throttleAndThermalSensing : Obligations.ThrottleAndThermalSensing := by
  unfold Obligations.ThrottleAndThermalSensing
  intro s hl
  refine ⟨fun ht => ?_, guarded_next _ hl, fun cd hub m hm hle => ?_, fun since ht hc hd => ?_⟩
  · exact (guarded_next _ hl).trans (congrArg _ (if_neg (by simp [ht])))
  · have hcool (h : 110 ≤ m) : sampled s m = { s with pins := { s.pins with tMax := m }, flt := { s.flt with coolSince := none } } := by
      rw [sampled, if_neg (by omega)]
    have hnot (h : ∀ y ∈ hub, y < 110) : (hub.any fun t => decide (110 ≤ t)) = false := by simpa using h
    refine ⟨fun h => ?_, fun h hh ht => ?_, fun h hh ht => ?_, fun hh => ?_⟩
    · rw [thermalSample_eq hl hm hle, if_pos h]; rfl
    · have hcd : ∃ y ∈ cd, 110 ≤ y := by
        rcases List.mem_append.1 hm with hm | hm
        · exact ⟨m, hm, h⟩
        · exact absurd (hh m hm) (by omega)
      obtain ⟨y, i, hf, hi, hy⟩ := find_hot hcd
      refine ⟨i / 4, ?_, i, y, hi, hy, rfl⟩
      rw [thermalSample_eq hl hm hle, if_neg (by omega)]
      simp [hnot hh, ht, hf, hcool h]
    · rw [thermalSample_eq hl hm hle, if_neg (by omega)]
      simp [hnot hh, ht, hcool h]
    · have h : 110 ≤ m := by
        obtain ⟨y, hy, hot⟩ := hh
        exact hot.trans (hle y (List.mem_append_right _ hy))
      have hany : (hub.any fun t => decide (110 ≤ t)) = true := by simpa using hh
      obtain ⟨y, i, hf, -, -⟩ := find_hot hh
      refine ⟨i, ?_⟩
      rw [thermalSample_eq hl hm hle, if_neg (by omega)]
      simp only [hany, hf, hcool h, Bool.or_true, Bool.true_eq_false, and_false, if_false, if_true]
  · refine (guarded_next _ hl).trans ?_
    rw [hc]
    simp [ht, hd]

end Sys2Proof.Machine
end

section
/-! SUPPORT. Queues, the checks of a message and its response. -/

namespace Sys2Proof.Machine

/-! ### Commands as rows -/

/-- A message row that answers one of the common checks' codes, of whichever command it is. -/
theorem exec_refuses {s : State} {fn : Nat} {via : Via} {cmd : Bytes} {isRow : Bytes → Bool} {core : State → Taken → State}
    {c : Code}
    {i : Instr} (hi : exec i s = msgRow s fn via isRow core) (h : Waits s fn via cmd) (hr : isRow cmd = true)
    (hg : gateCode (took s fn via cmd) (ask s fn via cmd) = some c) :
    exec i s = .next (respond (took s fn via cmd) (askCtx s fn via cmd) c []) := hi.trans (msgRow_refuses core h hr hg)

/-- A message row whose message is accepted, up to what its core does. -/
theorem exec_accepts {s t : State} {fn : Nat} {via : Via} {cmd : Bytes} {isRow : Bytes → Bool} {core : State → Taken → State}
    {i : Instr} (hi : exec i s = msgRow s fn via isRow core) (h : Accepts s fn via cmd) (hr : isRow cmd = true)
    (ht : core (took s fn via cmd) (ask s fn via cmd) = t) : exec i s = .next t := by
  rw [hi, msgRow_accepts core h hr, ht]

/-! ### SQ entries (R356, R358, R339) -/

theorem exec_dmaReadCompletion {s : State} {r : DmaRead} (data : ReadResult) (hl : Live s)
    (hr : s.host.reads.find? (fun y => y.tag == r.tag) = some r) :
    exec (.dmaReadCompletion r.tag data) s = .next (
      let u := { s with host := { s.host with reads := s.host.reads.filter fun y => y.tag != r.tag } }
      match r.why with
      | .cidx h j => (match data with | some bs => cidxValue u h j (rd bs 0 4) | none => u)
      | .sqEntry fn q n => entryRead u fn q n data) := by
  refine (guarded_next _ hl).trans ?_
  rw [hr] <;> rfl

/-- Settles O8: the fetch by its conditions, and the read's completion by what it was for and whether it returned bytes. -/
theorem sqEntriesAreFetchedInOrder : Obligations.SqEntriesAreFetchedInOrder := by
  unfold Obligations.SqEntriesAreFetchedInOrder
  refine ⟨fun s fn q x c hf hl hx hc hm hs hst hfe hh hr => ⟨issueRead (updSq (updCq s fn x.cqid fun y =>
    { y with reserved := y.reserved + 1 }) fn q fun y => { y with fetching := 1 }) fn (.sqEntry fn q 0), ?_, rfl, rfl, rfl, rfl⟩,
    fun s r hl hr => ?_⟩
  · refine (inRange_guarded _ hf hl).trans (congrArg _ ?_)
    have hfree : ¬ 2 ^ c.log2 - dist32 c.pidx c.head ≤ c.reserved := not_le.2 hr
    simp only [Nat.reducePow] at hh
    simp [hx, hc, hm, hs, hst, hfe, hh, hfree]
  · intro u
    refine ⟨fun fn q n bs x hw hx => ?_, fun fn q n x hw hx => ?_, fun h j bs hw => ?_, fun h j hw => ?_⟩
    all_goals rw [exec_dmaReadCompletion _ hl hr, hw]
    · have hx : sqOf u fn q = some x := hx
      simp only [entryRead]
      rw [hx]
    · have hx : sqOf u fn q = some x := hx
      simp only [entryRead]
      rw [hx]

/-! ### Queues (R354) -/

/-- Settles O9: the checks of Table HST-9 as the model has them, and what is added or removed. -/
theorem queuesAreMadeAndDeleted : Obligations.QueuesAreMadeAndDeleted := by
  unfold Obligations.QueuesAreMadeAndDeleted
  intro s fn via cmd ha u c qid
  refine ⟨fun ho hk hq hlo hhi hb hz hcq hsq => ?_, fun ho hk hq hlo hhi hb hc hv hz hcq => ?_, fun ho hz hk x hx => ?_, fun ho hz hk x hx => ?_⟩
  · refine exec_accepts rfl ha (by simp [isOp, ho]) ?_
    have hok : queueFieldsOk (took s fn via cmd) fn cmd = true := by
      simpa [queueFieldsOk, hk, hb, hz, hlo, hhi] using ⟨⟨hq, hcq⟩, hsq⟩
    simp only [ask_cmd, ask_fn, hok, if_true, addQueue, hk]
    rfl
  · refine exec_accepts rfl ha (by simp [isOp, ho]) ?_
    have hok : queueFieldsOk (took s fn via cmd) fn cmd = true := by
      simpa [queueFieldsOk, hk, hb, hz, hlo, hhi, hc] using ⟨⟨hq, hv⟩, hcq⟩
    simp only [ask_cmd, ask_fn, hok, if_true, addQueue, hk, OfNat.ofNat_ne_one, if_false]
    rfl
  · refine ⟨fun hv => exec_accepts rfl ha (by simp [isOp, ho]) ?_, fun hv => exec_accepts rfl ha (by simp [isOp, ho]) ?_⟩
    all_goals
      simp only [ask_cmd, ask_fn, hz, hk, Bool.not_true, Bool.false_eq_true, if_false, if_true]
      rw [hx]
    · subst hv
      exact if_pos (beq_self_eq_true qid)
    · refine if_neg ?_
      cases via with
      | mailbox => exact Bool.false_ne_true
      | sq q => simpa [ask, takeMsg, ctxOf, qid] using hv
  · refine ⟨fun hb => exec_accepts rfl ha (by simp [isOp, ho]) ?_, fun hr hb => exec_accepts rfl ha (by simp [isOp, ho]) ?_⟩
    all_goals
      simp only [ask_cmd, ask_fn, hz, hk, Bool.not_true, Bool.false_eq_true, if_false, if_true, OfNat.ofNat_ne_one]
      rw [hx]
    · exact if_pos (by simpa using hb)
    · exact if_neg (by simpa [hr] using hb)

/-! ### The order of the checks (R350) -/

/-- Two messages at the front are one. -/
theorem frontMsg_unique {s : State} {fn fn2 : Nat} {via via2 : Via} {cmd cmd2 : Bytes} (h : frontMsg s fn via = some cmd)
    (h2 : frontMsg s fn2 via2 = some cmd2) : fn2 = fn ∧ via2 = via ∧ cmd2 = cmd := by
  have hp : ∀ {n v} {b : Bytes}, frontMsg s n v = some b → fnTurn s = some n ∧ firstVia s n = some v := fun {n v b} h => by
    by_contra hn
    rw [frontMsg, if_neg hn] at h
    cases h
  obtain ⟨hf, hv⟩ := hp h
  obtain ⟨hf2, hv2⟩ := hp h2
  obtain rfl : fn2 = fn := by simpa [hf2] using hf
  obtain rfl : via2 = via := by simpa [hv2] using hv
  exact ⟨rfl, rfl, by simpa [h2] using h⟩

/-- Taking a message touches the acceptance stamp, the function served last and the place it leaves (R350, R356). -/
theorem took_host (s : State) (fn : Nat) (via : Via) (cmd : Bytes) :
    (took s fn via cmd).host =
      { s.host with lastAccept := acceptStamp s, lastFn := some fn, fns := (took s fn via cmd).host.fns } := by
  cases via <;> rfl

/-- Settles O10: the stamp and the front are read off the taken message, and each command is a row of its opcode. -/
theorem messagesPassTheirChecksInOrder : Obligations.MessagesPassTheirChecksInOrder := by
  unfold Obligations.MessagesPassTheirChecksInOrder
  intro s fn via cmd hw u c
  have hc : c.accept = acceptStamp s := ask_ctx_accept s fn via cmd
  refine ⟨⟨takeMsg_hostOnly _ _ _ _, hc, ?_, ?_, ?_, fun _ _ _ h2 => frontMsg_unique hw.2.2 h2⟩, fun hn => ?_, fun code hg i d => ?_⟩
  · rw [hc, took_host]
  · rw [hc]
    exact lt_max_of_lt_right (Nat.lt_succ_self _)
  · rw [hc]
    exact took_host _ _ _ _
  · refine exec_refuses rfl hw (by simp [hn]) ?_
    simp [gateCode, hn]
  · intro op sub act tOp h
    simp only [List.mem_cons, Prod.mk.injEq, List.not_mem_nil, or_false] at h
    rcases h with h | ⟨ho, rfl⟩ | ⟨ho, rfl⟩ | ⟨ho, rfl⟩ | ⟨ho, rfl⟩ | ⟨ho, rfl⟩ | ⟨ho, hm, rfl⟩
    · rcases h with ⟨ho, rfl⟩ | ⟨ho, rfl⟩ | ⟨ho, rfl⟩ | ⟨ho, rfl⟩ | ⟨ho, rfl⟩ | ⟨ho, rfl⟩ | ⟨ho, rfl⟩ | ⟨ho, rfl⟩ | ⟨ho, rfl⟩ | ⟨ho, rfl⟩ |
        ⟨ho, rfl⟩ | ⟨ho, rfl⟩ | ⟨ho, rfl⟩ | ⟨ho, rfl⟩ | ⟨ho, rfl⟩ | ⟨ho, rfl⟩ | ⟨ho, rfl⟩ | ⟨ho, rfl⟩ | ⟨ho, rfl⟩ | ⟨ho, rfl⟩ | ⟨ho, rfl⟩
      all_goals exact exec_refuses rfl hw (beq_iff_eq.2 ho) hg
    · split <;> refine exec_refuses rfl hw ?_ hg <;> simp_all [isOp, op]
    · split <;> refine exec_refuses rfl hw ?_ hg <;> simp_all [isOp, isOp2, op, sub]
    · split
      · exact exec_refuses rfl hw (by simp_all [isOp, op, sub]) hg
      · split
        · exact exec_refuses rfl hw (by simp_all [isOp2, isLinkSet, op, sub, act]) hg
        · split <;> refine exec_refuses rfl hw ?_ hg <;> simp_all [isOp2, isLinkSet, op, sub, act]
    · split <;> refine exec_refuses rfl hw ?_ hg <;> simp_all [isOp, isOp2, op, tOp]
    · split
      · exact exec_refuses rfl hw (by simp_all [isOp2, op, tOp]) hg
      · split <;> refine exec_refuses rfl hw ?_ hg <;> simp_all [isOp, isOp2, op, tOp]
    · have hi : exec (.replayStart fn via d) s = msgRow s fn via (isOp 0x0061) (classF (startReplay d)) := by
        change execReplayStart fn via d s = _
        rw [execReplayStart, if_pos (by simp [capsuleMayStart, hw.2.2, hm])]
      exact exec_refuses hi hw (beq_iff_eq.2 ho) hg

/-! ### Responses (R351, R353, R356, R357) -/

/-- PHASE is 1 on the first pass through a ring and alternates from pass to pass (R357). -/
theorem phaseBit_eq (i log2 : Nat) : phaseBit i log2 = (i / 2 ^ log2 + 1) % 2 := by
  unfold phaseBit
  omega

/-- Settles O11: the answer by the origin of the message. -/
theorem responsesReachTheirSender : Obligations.ResponsesReachTheirSender := by
  unfold Obligations.ResponsesReachTheirSender
  intro s c code body fn
  refine ⟨fun h => ?_, fun q cq k x h hp hr hk hx => ?_, fun q cq h hr => ?_, fun q cq h => ?_⟩
  · simp only [respond, respondNum, h]
    rfl
  · simp only [respond, respondNum, h, hp, hr, hx, cqPost, hk, phaseBit_eq]
    rfl
  · simp [respond, respondNum, h, hr]
  · refine respondNum_hostOnly (fun port f hl => ?_) _ _ _
    rcases h with h | h <;> rw [h] at hl <;> cases hl

end Sys2Proof.Machine
end

section
/-! SUPPORT. Consumer indices and barriers. -/

namespace Sys2Proof.Machine

/-! ### Consumer indices (R166, R169, R171) -/

/-- The requests with number h are those that an update of it acts on. -/
theorem reqOf_updReq {s : State} {h : Nat} {q : Req} {f : Req → Req} (hq : reqOf s h = some q) (hf : ∀ x, (f x).h = x.h) :
    reqOf (updReq s h f) h = some (f q) := by
  have hkey : ((fun x : Req => x.h == h) ∘ fun x : Req => if x.h == h then f x else x) = fun x => x.h == h := by
    funext x
    dsimp only [Function.comp]
    split
    · rw [hf]
    · rfl
  have hqh : (q.h == h) = true := List.find?_some (p := fun x : Req => x.h == h) hq
  rw [reqOf] at hq ⊢
  rw [updReq, List.find?_map, hkey, hq, Option.map_some, if_pos hqh]

theorem wake_eq (s : State) (p t : Nat) : ∃ ps, wake s p t = { s with parts := ps } := by
  unfold wake
  dsimp only
  split
  · exact ⟨s.parts, rfl⟩
  · exact ⟨_, rfl⟩

theorem partOf_wake_ne (s : State) {p r : Nat} (t : Nat) (h : r ≠ p) : partOf (wake s p t) r = partOf s r := by
  unfold wake
  dsimp only
  split
  · rfl
  · exact partOf_updPart_ne _ _ h.symm

/-- A returned record CIDX that is valid (R166). -/
theorem cidxOk_iff (r : Ring) {v : Nat} (hv : v < 2 ^ 32) :
    cidxOk r v = true ↔ (r.pidx + (2 ^ 32 - v)) % 2 ^ 32 ≤ 2 ^ r.log2 ∧
      (v + (2 ^ 32 - r.cidx % 2 ^ 32)) % 2 ^ 32 ≤ (r.pidx + (2 ^ 32 - r.cidx % 2 ^ 32)) % 2 ^ 32 := by
  rw [cidxOk, Nat.mod_eq_of_lt hv]
  simp only [Bool.and_eq_true, decide_eq_true_eq]

/-- A valid CIDX of the record ring is taken over, and may wake the request's partition. -/
theorem cidxValue_taken {s : State} {h v : Nat} {q : Req} (hq : reqOf s h = some q) (hl : q.outcome = none)
    (hok : cidxOk q.ring v = true) :
    let u := updReq s h fun x => { x with ring := { x.ring with cidx := v } }
    cidxValue s h false v = u ∨ cidxValue s h false v = wake u q.part s.boot.dtc := by
  intro u
  have hu : reqOf u h = some { q with ring := { q.ring with cidx := v } } := reqOf_updReq hq fun _ => rfl
  simp only [cidxValue, hq, living, hl, Option.isNone_none, Bool.not_true, Bool.false_eq_true, if_false, hok]
  rw [hu]
  dsimp only
  split
  · exact .inr rfl
  · exact .inl rfl

/-- An invalid one is counted with the request and its tenant. -/
theorem cidxValue_refused {s : State} {h v : Nat} {q : Req} (hq : reqOf s h = some q) (hl : q.outcome = none)
    (hok : cidxOk q.ring v ≠ true) :
    cidxValue s h false v = updTenant (updReq s h fun x => { x with ringErrs := satAdd 64 x.ringErrs 1 }) q.tenant fun t =>
      { t with ringErrs := satAdd 64 t.ringErrs 1 } := by
  simp [cidxValue, hq, living, hl, hok]

/-- Settles O17: the poll, the value by whether it is valid, and the interrupt of IRQ_TICKS. -/
theorem cidxIsValidatedBeforeUse : Obligations.CidxIsValidatedBeforeUse := by
  unfold Obligations.CidxIsValidatedBeforeUse
  intro s h q hl hq ho
  refine ⟨fun hown hrep hm hfree hout => ?_, ?_, fun hz hp ht hown hv => ?_⟩
  · refine (guarded_next _ hl).trans ?_
    rw [hq]
    have hany : (s.host.reads.any fun r => r.why == .cidx h false) = false := by simpa using hout
    simp [living, ho, hown, hrep, hm, hany, wantsCidx, hfree]
  · intro u
    refine ⟨guarded_next _ hl, fun v hv => ?_⟩
    intro unread step_ behind
    have hx : exec (.cidxReadDone h false (some v)) s = .next (cidxValue u h false v) := by
      refine (guarded_next _ hl).trans ?_
      dsimp only
      rw [Nat.mod_eq_of_lt hv]
      rfl
    have hqu : reqOf u h = some q := hq
    refine ⟨fun hu hs => ?_, fun hn => ?_⟩
    · refine ⟨_, hx, ?_⟩
      rcases cidxValue_taken hqu ho ((cidxOk_iff q.ring hv).2 ⟨hu, hs⟩) with he | he <;> rw [he]
      · exact ⟨rfl, rfl, fun _ _ => rfl⟩
      · obtain ⟨ps, hwake⟩ := wake_eq (updReq u h fun x => { x with ring := { x.ring with cidx := v } }) q.part u.boot.dtc
        refine ⟨by rw [hwake]; rfl, congrArg (·.reqs) hwake, fun p hp => partOf_wake_ne _ _ hp⟩
    · rw [hx, cidxValue_refused hqu ho (mt (cidxOk_iff q.ring hv).1 hn)]
  · refine (guarded_next _ hl).trans ?_
    rw [hq]
    simp [hz, hp, ht, ringIrq, hq, hown, hv]

/-! ### Barriers (R361) -/

/-- Settles O18: by what the barrier was for. -/
theorem barriersReleaseWhatWaits : Obligations.BarriersReleaseWhatWaits := by
  unfold Obligations.BarriersReleaseWhatWaits
  intro s b hl hb u
  refine ⟨fun c w body ok hw => ⟨fun hc => ?_, fun hc => ?_⟩, fun ok hw hp hn => ?_, fun h q k hw hq hk => ⟨?_, ?_⟩⟩
  all_goals
    refine (guarded_next _ hl).trans ?_
    rw [hb]
    dsimp only
    rw [hw]
    dsimp only
  · rw [if_neg hc]
  · rw [if_pos hc]
  · have hany : (u.host.barriers.any fun x => x.why == .quarantine) = false := by simpa using hn
    exact congrArg _ (if_pos (by rw [hp, hany]; rfl))
  · have hq : reqOf u h = some q := hq
    rw [hq]
    dsimp only
    rw [hk]
    rfl
  · have hq : reqOf u h = some q := hq
    rw [hq]
    dsimp only
    rw [hk]
    rfl

end Sys2Proof.Machine
end

section
/-! SUPPORT. Register writes. -/

namespace Sys2Proof.Machine

/-! ### Bytes and numbers -/

theorem leNat_leBytes (n v : Nat) : leNat (leBytes n v) = v % 256 ^ n := by
  induction n generalizing v with
  | zero => simp [leBytes, leNat, Nat.mod_one]
  | succ n ih => rw [leBytes, leNat, ih, BitVec.toNat_ofNat, pow_succ' 256 n, Nat.mod_mul (a := 256)]

theorem leBytes_leNat (bs : Bytes) : leBytes bs.length (leNat bs) = bs := by
  induction bs with
  | nil => rfl
  | cons b bs ih =>
    have hb : b.toNat < 256 := b.isLt
    have hd : (b.toNat + 256 * leNat bs) / 256 = leNat bs := by omega
    rw [List.length_cons, leNat, leBytes, hd, ih]
    congr 1
    refine BitVec.eq_of_toNat_eq ?_
    rw [BitVec.toNat_ofNat]
    omega

/-- A list of 4 bytes, and one of 8, by its bytes. -/
theorem eq_four {bs : Bytes} (h : bs.length = 4) : ∃ a b c d, bs = [a, b, c, d] := by
  match bs, h with
  | [a, b, c, d], _ => exact ⟨a, b, c, d, rfl⟩

/-- Four bytes written one by one into an 8-byte field are one 4-byte write, in the lower and in the upper half. -/
theorem patch_four (v : Nat) {off : Nat} (ho : off = 0 ∨ off = 4) (a b c d : Byte) :
    let put := fun (v i : Nat) (x : Byte) => leNat (patch (leBytes 8 v) i [x])
    put (put (put (put v off a) (off + 1) b) (off + 2) c) (off + 3) d = leNat (patch (leBytes 8 v) off [a, b, c, d]) := by
  intro put
  have hput : ∀ v i x, i < 8 → leBytes 8 (put v i x) = patch (leBytes 8 v) i [x] := fun v i x hi => by
    have hlen : (patch (leBytes 8 v) i [x]).length = 8 := by simp [patch]; omega
    have := leBytes_leNat (patch (leBytes 8 v) i [x])
    rwa [hlen] at this
  have hlast : put (put (put (put v off a) (off + 1) b) (off + 2) c) (off + 3) d =
      leNat (patch (patch (patch (patch (leBytes 8 v) off [a]) (off + 1) [b]) (off + 2) [c]) (off + 3) [d]) := by
    rw [← hput, ← hput, ← hput] <;> omega
  rw [hlast]
  rcases ho with rfl | rfl <;> rfl

/-! ### Registers of BAR0 (R352, R486) -/

/-- A write that reaches the registers of BAR0 of a function that takes writes, as a word or as none. -/
theorem exec_registerWrite_bar0 {s : State} {fn off : Nat} {bs : Bytes} (hf : fn < 16) (ht : TakesWrites s fn)
    (hc : ¬ (off + bs.length ≤ (bar0Bases fn).1 + 0x40 ∧ 4 ≤ bs.length ∧ (bar0Bases fn).1 ≤ off)) (h8 : bs.length ≠ 8) :
    exec (.registerWrite fn .bar0 off bs) s = .next (if bs.length = 4 ∧ off % 4 = 0 then bar0Word s fn off bs else s) := by
  obtain ⟨he, hr⟩ := ht
  have hcmd : ¬ ((bar0Bases fn).1 ≤ off ∧ off + bs.length ≤ (bar0Bases fn).1 + 0x40 ∧ off % 4 = 0 ∧ bs.length % 4 = 0 ∧ 4 ≤ bs.length) :=
    fun ⟨h1, h2, _, _, h5⟩ => hc ⟨h2, h5, h1⟩
  change execRegisterWrite fn .bar0 off bs s = _
  simp only [execRegisterWrite, inRange_next _ hf, he, hr, if_neg hcmd]
  simp [h8]

theorem bases_aligned (fn : Nat) : (bar0Bases fn).1 % 4 = 0 ∧ (bar0Bases fn).2.2 % 4 = 0 := by
  unfold bar0Bases
  split <;> decide

/-- The pages of a function's registers do not overlap (Table HST-2). -/
theorem bases_apart (fn : Nat) : (bar0Bases fn).1 + 0x1000 ≤ (bar0Bases fn).2.1 ∧ (bar0Bases fn).2.1 + 0x1000 ≤
    (bar0Bases fn).2.2 := by
  unfold bar0Bases
  split <;> decide

theorem bar0Word_mbox {s : State} {fn k : Nat} (bs : Bytes) (hl : Live s) (hlo : 0x40 ≤ k) (hhi : k < 0x1000) :
    bar0Word s fn ((bar0Bases fn).1 + k) bs = mboxWord s fn k (leNat bs) := by
  have hpkg : (s.flt.pkg == PkgState.uncontained) = false := by simpa [Live] using hl
  have h1 : ¬ (bar0Bases fn).1 + k < (bar0Bases fn).1 + 0x40 := by omega
  simp [bar0Word, hpkg, hhi]
  omega

theorem bar0Word_int {s : State} {fn k : Nat} (bs : Bytes) (hl : Live s) (hk : k < 0x1000) :
    bar0Word s fn ((bar0Bases fn).2.2 + k) bs = intWord s fn k (leNat bs) := by
  have hpkg : (s.flt.pkg == PkgState.uncontained) = false := by simpa [Live] using hl
  have ha := bases_apart fn
  have h1 : ¬ (bar0Bases fn).2.2 + k < (bar0Bases fn).1 + 0x40 := by omega
  have h2 : ¬ (bar0Bases fn).2.2 + k < (bar0Bases fn).1 + 0x1000 := by omega
  have h3 : ¬ (bar0Bases fn).2.2 + k < (bar0Bases fn).2.1 + 0x1000 := by omega
  simp [bar0Word, hpkg, h1, h2, h3, hk]

/-! ### Descriptors of BAR2 (R345, R346) -/

theorem exec_registerWrite_bar2 {s : State} {off : Nat} {bs : Bytes} (hl : Live s) (ho : off < 32768) (ha : off % 4 = 0)
    (hb : bs.length = 4) :
    exec (.registerWrite 0 .bar2 off bs) s = .next (bar2Word s off bs) := by
  have hlt : ¬ 32768 ≤ off := by omega
  change execRegisterWrite 0 .bar2 off bs s = _
  simp [execRegisterWrite, inRange_next _ (show 0 < 16 by decide), guarded_live _ hl, hb, ha, hlt]

/-- A word of a descriptor's fields is written byte by byte. -/
theorem bar2Word_fields (s : State) {d o : Nat} (a b c e : Byte) (ho : o < 20) :
    bar2Word s (64 * d + o) [a, b, c, e] =
      putWin s (winByte (winByte (winByte (winByte (winOf s d) o a) (o + 1) b) (o + 2) c) (o + 3) e) := by
  have hd : (64 * d + o) / 64 = d := by omega
  have hm : (64 * d + o) % 64 = o := by omega
  have h20 : o ≠ 20 := by omega
  have h24 : ¬ 24 ≤ o := by omega
  simp [bar2Word, hd, hm, h20, h24]

theorem bar2Word_valid (s : State) (d : Nat) (bs : Bytes) :
    bar2Word s (64 * d + 20) bs = if bit (leNat bs) 0 = true then winSet s d else winClear s d := by
  have hd : (64 * d + 20) / 64 = d := by omega
  have hm : (64 * d + 20) % 64 = 20 := by omega
  simp [bar2Word, hd, hm]

theorem winByte_of_valid {w : Win} (off : Nat) (b : Byte) (h : w.valid = true) : winByte w off b = w := by simp [winByte, h]

theorem winByte_table {w : Win} {off : Nat} (b : Byte) (h : w.valid = false) (ho : off < 8) :
    winByte w off b = { w with table := leNat (patch (leBytes 8 w.table) off [b]) } := by simp [winByte, h, ho]

theorem winByte_length {w : Win} {off : Nat} (b : Byte) (h : w.valid = false) (ho : off < 8) :
    winByte w (8 + off) b = { w with length := leNat (patch (leBytes 8 w.length) off [b]) } := by
  have h16 : 8 + off < 16 := by omega
  simp [winByte, h, h16]

/-- Four bytes of the TABLE field, and of the LENGTH field, of a descriptor that is not valid. -/
theorem winByte_table_four {w : Win} {off : Nat} (a b c d : Byte) (h : w.valid = false) (ho : off = 0 ∨ off = 4) :
    winByte (winByte (winByte (winByte w off a) (off + 1) b) (off + 2) c) (off + 3) d =
      { w with table := leNat (patch (leBytes 8 w.table) off [a, b, c, d]) } := by
  rw [← patch_four _ ho, winByte_table a h (by omega)]
  rw [winByte_table b (by exact h) (by omega)]
  rw [winByte_table c (by exact h) (by omega)]
  rw [winByte_table d (by exact h) (by omega)]

theorem winByte_length_four {w : Win} {off : Nat} (a b c d : Byte) (h : w.valid = false) (ho : off = 0 ∨ off = 4) :
    winByte (winByte (winByte (winByte w (8 + off) a) (8 + off + 1) b) (8 + off + 2) c) (8 + off + 3) d =
      { w with length := leNat (patch (leBytes 8 w.length) off [a, b, c, d]) } := by
  rw [Nat.add_assoc 8 off 1, Nat.add_assoc 8 off 2, Nat.add_assoc 8 off 3, ← patch_four _ ho, winByte_length a h (by omega)]
  rw [winByte_length b (by exact h) (by omega)]
  rw [winByte_length c (by exact h) (by omega)]
  rw [winByte_length d (by exact h) (by omega)]

/-- The word with PAGE_LOG2, OWNER and USE. -/
theorem winByte_sizes {w : Win} (a b c d : Byte) (h : w.valid = false) :
    winByte (winByte (winByte (winByte w 16 a) 17 b) 18 c) 19 d = { w with pageLog2 := a.toNat, owner := b.toNat, use := c.toNat } := by
  simp [winByte, h]

/-- Settles O15: each write by the register it meets. -/
theorem registerWritesReachTheirField : Obligations.RegisterWritesReachTheirField := by
  unfold Obligations.RegisterWritesReachTheirField
  intro s fn hf hl he hr bases
  have ht : TakesWrites s fn := ⟨he, hr⟩
  obtain ⟨hb1, hb3⟩ : bases.1 % 4 = 0 ∧ bases.2.2 % 4 = 0 := bases_aligned fn
  have hap : bases.1 + 0x1000 ≤ bases.2.1 ∧ bases.2.1 + 0x1000 ≤ bases.2.2 := bases_apart fn
  have hword : ∀ {off} {bs : Bytes}, bs.length = 4 → off % 4 = 0 → (off < bases.1 ∨ bases.1 + 0x40 ≤ off) →
      exec (.registerWrite fn .bar0 off bs) s = .next (bar0Word s fn off bs) := fun {off bs} hb ha ho => by
    have hc : ¬ (off + bs.length ≤ bases.1 + 0x40 ∧ 4 ≤ bs.length ∧ bases.1 ≤ off) := by omega
    rw [exec_registerWrite_bar0 hf ht hc (by omega), if_pos ⟨hb, ha⟩]
  refine ⟨fun off bs hb h1 h2 h3 h4 => ?_, fun bs hb hv => ?_, fun bs hb => ?_, fun off bs h4 h8 ho => ?_, fun v bs hv hb => ?_,
    fun h0 d bs hd hb => ?_, fun h0 n hn => ?_⟩
  · have hc : bases.1 ≤ bases.1 + off ∧ bases.1 + off + bs.length ≤ bases.1 + 0x40 ∧ (bases.1 + off) % 4 = 0 ∧ bs.length % 4 = 0 ∧
        4 ≤ bs.length := by omega
    rw [exec_registerWrite_cmd hf ht hc, Nat.add_sub_cancel_left]
    exact congrArg _ (updFn_congr (if_neg (by simpa using hb)))
  · rw [hword hb (by omega) (by omega), bar0Word_mbox bs hl (by decide) (by decide)]
    have hbit : bit (leNat bs) 2 = true := by simpa [bit] using hv
    simp [mboxWord, hbit]
  · rw [hword hb (by omega) (by omega), bar0Word_mbox bs hl (by decide) (by decide), exec_mailboxDoorbell _ hf]
    rfl
  · have hc : ¬ (off + bs.length ≤ bases.1 + 0x40 ∧ 4 ≤ bs.length ∧ bases.1 ≤ off) := by omega
    rw [exec_registerWrite_bar0 hf ht hc h8, if_neg (by omega)]
  · rw [hword hb (by omega) (by omega), Nat.add_assoc, bar0Word_int bs hl (by omega)]
    have h1 : ¬ 0xC00 + 4 * v < 0x800 := by omega
    have h2 : 0xC00 + 4 * v ≠ 0x840 := by omega
    have h3 : 0xC00 + 4 * v < 0xE00 := by omega
    simp [intWord, h1, h2, h3]
  · subst h0
    obtain ⟨a, b, c, e, rfl⟩ := eq_four hb
    have hrow : ∀ o, o < 20 → o % 4 = 0 → exec (.registerWrite 0 .bar2 (64 * d + o) [a, b, c, e]) s =
        .next (putWin s (winByte (winByte (winByte (winByte (winOf s d) o a) (o + 1) b) (o + 2) c) (o + 3) e)) := fun o ho ha => by
      rw [exec_registerWrite_bar2 hl (by omega) (by omega) rfl, bar2Word_fields s a b c e ho]
    refine ⟨?_, fun hv off ho ha => ?_, fun hv off ho => ⟨?_, ?_⟩, fun hv => ?_⟩
    · rw [exec_registerWrite_bar2 hl (by omega) (by omega) rfl, bar2Word_valid]
      split
      next hbit =>
        rw [if_pos (by simpa [bit] using hbit)]
        exact (inRange_guarded _ hd hl).symm
      next hbit =>
        rw [if_neg (by simpa [bit] using hbit)]
        exact (inRange_guarded _ hd hl).symm
    · simp [hrow off ho ha, winByte_of_valid, hv]
    · rw [hrow off (by omega) (by omega), winByte_table_four a b c e hv ho]
    · rw [Nat.add_assoc, hrow (8 + off) (by omega) (by omega), winByte_length_four a b c e hv ho]
    · have ha : leNat [a, b, c, e] % 256 = a.toNat := by simp only [leNat]; omega
      have hb : leNat [a, b, c, e] / 256 % 256 = b.toNat := by simp only [leNat]; omega
      have hc : leNat [a, b, c, e] / 65536 % 256 = c.toNat := by simp only [leNat]; omega
      rw [hrow 16 (by omega) (by omega), winByte_sizes a b c e hv, ha, hb, hc]
  · subst h0
    have hle : leNat (leBytes 2 n) = n := by rw [leNat_leBytes]; omega
    change execRegisterWrite 0 .cfg 0 (leBytes 2 n) s = _
    rw [execRegisterWrite, inRange_next _ hf]
    simp [guarded_live _ hl, hle, vfWrite, Nat.min_eq_right (Nat.le_of_lt_succ hn)]

end Sys2Proof.Machine
end

section
/-! SUPPORT. Function-level resets and the link. -/

namespace Sys2Proof.Machine

/-! ### What one function's reset leaves of another's answers (R364) -/

theorem mem_insertBy_iff {α : Type} {key : α → Nat} {x y : α} {l : List α} : y ∈ insertBy key x l ↔ y = x ∨ y ∈ l := by
  induction l with
  | nil => simp [insertBy]
  | cons a l ih =>
    unfold insertBy
    split
    · simp
    · simp only [List.mem_cons, ih]
      exact or_left_comm

theorem mem_sortBy {α : Type} {key : α → Nat} {y : α} {l : List α} : y ∈ sortBy key l ↔ y ∈ l := by
  have h : ∀ acc, y ∈ l.foldl (fun acc x => insertBy key x acc) acc ↔ y ∈ acc ∨ y ∈ l := by
    induction l with
    | nil => simp
    | cons x l ih =>
      intro acc
      rw [List.foldl_cons, ih, mem_insertBy_iff, List.mem_cons, or_assoc, or_left_comm]
  exact (h []).trans (by simp)

/-- A change of the requests that keeps what says whose each is, and that an ended request stays ended. -/
def ReqsFollow (s t : State) : Prop :=
  ∃ f : Req → Req, t.reqs = s.reqs.map f ∧ ∀ x, (f x).h = x.h ∧ (f x).fn = x.fn ∧ (f x).ownsRing = x.ownsRing ∧
    (f x).replay = x.replay ∧ (x.outcome ≠ none → (f x).outcome ≠ none)

/-- Function n is as before, no write is held for it that was not, no window has become valid, and the requests follow. -/
structure Follows (n : Nat) (s t : State) : Prop where
  fn : fnOf t n = fnOf s n
  held : ∀ w ∈ t.host.held, w.fn = n → w ∈ s.host.held
  wins : ∀ w ∈ t.host.wins, w.valid = true → ∃ v ∈ s.host.wins, v.valid = true ∧ v.owner = w.owner
  reqs : ReqsFollow s t

theorem reqsFollow_of_eq {s t : State} (h : t.reqs = s.reqs) : ReqsFollow s t := ⟨id, by simp [h], by simp⟩

theorem ReqsFollow.trans {s t u : State} (h : ReqsFollow s t) (g : ReqsFollow t u) : ReqsFollow s u := by
  obtain ⟨f, hf, hkeep⟩ := h
  obtain ⟨g, hg, gkeep⟩ := g
  refine ⟨g ∘ f, by rw [hg, hf, List.map_map], fun x => ?_⟩
  obtain ⟨h1, h2, h3, h4, h5⟩ := hkeep x
  obtain ⟨g1, g2, g3, g4, g5⟩ := gkeep (f x)
  exact ⟨g1.trans h1, g2.trans h2, g3.trans h3, g4.trans h4, fun h => g5 (h5 h)⟩

theorem Follows.trans {n : Nat} {s t u : State} (h : Follows n s t) (g : Follows n t u) : Follows n s u where
  fn := g.fn.trans h.fn
  held w hw hn := h.held w (g.held w hw hn) hn
  wins w hw hv := by
    obtain ⟨v, hv1, hv2, hv3⟩ := g.wins w hw hv
    obtain ⟨x, hx1, hx2, hx3⟩ := h.wins v hv1 hv2
    exact ⟨x, hx1, hx2, hx3.trans hv3⟩
  reqs := h.reqs.trans g.reqs

theorem follows_of_host {n : Nat} {s t : State} (hh : t.host = s.host) (hr : ReqsFollow s t) : Follows n s t where
  fn := by rw [fnOf, hh, fnOf]
  held w hw _ := by rwa [hh] at hw
  wins w hw hv := ⟨w, by rwa [hh] at hw, hv, rfl⟩
  reqs := hr

theorem follows_refl (n : Nat) (s : State) : Follows n s s := follows_of_host rfl (reqsFollow_of_eq rfl)

theorem foldl_follows {α : Type} {n : Nat} {f : State → α → State} {P : State → Prop} (hP : ∀ t u, P t → Follows n t u → P u)
    (hf : ∀ t a, P t → Follows n t (f t a)) (l : List α) {s : State} (hs : P s) : Follows n s (l.foldl f s) := by
  induction l generalizing s with
  | nil => exact follows_refl n s
  | cons a l ih =>
    have h := hf s a hs
    exact h.trans (ih (hP _ _ hs h))

/-- Changes of another function. -/
theorem updFn_follows {n m : Nat} (s : State) (f : Fn → Fn) (h : m ≠ n) : Follows n s (updFn s m f) where
  fn := fnOf_updFn_ne s f h
  held _ hw _ := hw
  wins w hw hv := ⟨w, hw, hv, rfl⟩
  reqs := reqsFollow_of_eq rfl

theorem issue_follows {n : Nat} (s : State) (w : BusWrite) (h : w.fn ≠ n) : Follows n s (issue s w) := by
  unfold issue
  split
  · exact follows_refl n s
  · split
    · exact ⟨rfl, fun _ hw _ => hw, fun w hw hv => ⟨w, hw, hv, rfl⟩, reqsFollow_of_eq rfl⟩
    · refine ⟨rfl, fun v hv hn => ?_, fun w hw hv => ⟨w, hw, hv, rfl⟩, reqsFollow_of_eq rfl⟩
      rcases List.mem_append.1 hv with hv | hv
      · exact hv
      · exact absurd hn (List.mem_singleton.1 hv ▸ h)

theorem signal_follows {n m : Nat} (s : State) (v : Nat) (h : m ≠ n) : Follows n s (signal s m v) := by
  unfold signal
  split
  · refine Follows.trans (t := updVec s m v fun y => { y with pending := true }) (updFn_follows s _ h) ?_
    unfold trySend
    dsimp only
    split
    · exact (issue_follows _ _ h).trans (updFn_follows _ _ h)
    · exact follows_refl n _
  · exact follows_refl n s

theorem pumpState_host (s : State) (n : Nat) : (pumpState s n).host = s.host ∧ (pumpState s n).reqs = s.reqs := by
  unfold pumpState
  split
  · exact ⟨rfl, rfl⟩
  · dsimp only
    constructor <;> repeat' split
    all_goals rfl

theorem portSend_follows (n : Nat) (s : State) (k v : Nat) (msg : Bytes) : Follows n s (portSend s k v msg) :=
  follows_of_host (pumpState_host _ _).1 (reqsFollow_of_eq (pumpState_host _ _).2)

/-- A response leaves a function in reset alone, whoever it goes to. -/
theorem respondNum_follows {n : Nat} {s : State} (hn : (fnOf s n).flr.isSome = true) (c : MsgCtx) (code : Nat) (body : Bytes) :
    Follows n s (respondNum s c code body) := by
  unfold respondNum
  split
  next m _ =>
    by_cases h : m = n
    · rw [h, if_pos hn]
      exact follows_refl n s
    · split
      · exact follows_refl n s
      · exact (updFn_follows s _ h).trans (signal_follows _ _ h)
  next m q cq _ =>
    by_cases h : m = n
    · rw [h, if_pos (by simp [hn])]
      exact follows_refl n s
    · split
      · exact follows_refl n s
      · dsimp only
        generalize (match sqOf s m q with | some x => x.head | none => 0) = head
        unfold cqPost
        split
        · exact follows_refl n s
        · exact (((issue_follows _ _ h).trans (issue_follows _ _ h)).trans (updFn_follows _ _ h)).trans (signal_follows _ _ h)
  · exact portSend_follows n s _ _ _
  · exact follows_refl n s

theorem sendOthers_follows (n : Nat) (s : State) (g v : Nat) (msg : Bytes) : Follows n s (sendOthers s g v msg) := by
  refine foldl_follows (P := fun _ => True) (fun _ _ _ _ => trivial) (fun t k _ => ?_) _ trivial
  split
  · exact follows_refl n t
  · unfold sendMember
    split
    · exact portSend_follows n t _ _ _
    · exact follows_refl n t

/-- A change of one request that keeps whose it is and does not bring it back to life. -/
theorem updReq_follows (n : Nat) (s : State) (h : Nat) {f : Req → Req} (hf : ∀ x, (f x).h = x.h ∧ (f x).fn = x.fn ∧
    (f x).ownsRing = x.ownsRing ∧ (f x).replay = x.replay ∧ (x.outcome ≠ none → (f x).outcome ≠ none)) : Follows n s (updReq s h f) := by
  refine follows_of_host rfl ⟨fun x => if x.h == h then f x else x, rfl, fun x => ?_⟩
  dsimp only
  split
  · exact hf x
  · exact ⟨rfl, rfl, rfl, rfl, id⟩

theorem stopWant_follows {n : Nat} {s : State} (hn : (fnOf s n).flr.isSome = true) (h : Nat) : Follows n s (stopWant s h) := by
  have hu := updReq_follows n s h (f := fun x => { x with want := none, wantCtx := none }) fun x => ⟨rfl, rfl, rfl, rfl, id⟩
  unfold stopWant
  split
  · exact follows_refl n s
  · dsimp only
    split
    · exact hu.trans (respondNum_follows (by rwa [hu.fn]) _ _ _)
    · exact hu

/-- A request as its silent end leaves it (R364). -/
def silenced (x : Req) : Req :=
  { x with outcome := some (.withheld, 0), queuedAt := none, idleAt := none, record := none, parking := none
           jrn := { x.jrn with waiting := [] } }

theorem silenced_follows (n : Nat) (s : State) (h : Nat) (q : Req) : Follows n s (countEnd (updReq s h silenced) q) :=
  (updReq_follows n s h (f := silenced) fun _ => ⟨rfl, rfl, rfl, rfl, fun _ => Option.some_ne_none _⟩).trans
    (follows_of_host rfl (reqsFollow_of_eq rfl))

/-- What ends a request in silence changes of a function in reset only its requests, and leaves every one of that number ended. -/
theorem endSilent_follows {n : Nat} {s : State} (hn : (fnOf s n).flr.isSome = true) (h : Nat) : Follows n s (endSilent s h) := by
  unfold endSilent
  split
  · exact follows_refl n s
  next q _ =>
    split
    · exact follows_refl n s
    · have hc := silenced_follows n s h q
      exact hc.trans (stopWant_follows (by rwa [hc.fn]) _)

/-- A request cut by an FLR keeps an earlier cut (R364). -/
def cutBy (st : Nat) (x : Req) : Req := { x with cancel := some (match x.cancel with | some c => c | none => (st, 1)) }

/-- The cut of a request, told to the members of its partition. -/
def flrCut (s : State) (st : Nat) (q : Req) : State :=
  updReq (if spans s q.part then tell s q.part (partOf s q.part).items.groupSize .cut q.h (leBytes 8 st) else s) q.h (cutBy st)

theorem flrEnd_eq (s : State) (st : Nat) (q : Req) : flrEnd s st q = endSilent (flrCut s st q) q.h := rfl

theorem flrCut_follows (n : Nat) (s : State) (st : Nat) (q : Req) : Follows n s (flrCut s st q) := by
  refine Follows.trans ?_ (updReq_follows n _ q.h fun _ => ⟨rfl, rfl, rfl, rfl, id⟩)
  split
  · exact sendOthers_follows n s _ _ _
  · exact follows_refl n s

theorem flrEnd_follows {n : Nat} {s : State} (hn : (fnOf s n).flr.isSome = true) (st : Nat) (q : Req) : Follows n s
    (flrEnd s st q) :=
  (flrCut_follows n s st q).trans (endSilent_follows (by rwa [(flrCut_follows n s st q).fn]) _)

/-- The requests of different numbers are different requests. -/
def Distinct (s : State) : Prop := (s.reqs.map fun q => q.h).Nodup

theorem ReqsFollow.distinct_iff {s t : State} (h : ReqsFollow s t) : Distinct t ↔ Distinct s := by
  obtain ⟨f, hf, hk⟩ := h
  have hm : (t.reqs.map fun q => q.h) = s.reqs.map fun q => q.h := by
    rw [hf, List.map_map]
    exact List.map_congr_left fun x _ => (hk x).1
  rw [Distinct, hm, Distinct]

theorem reqOf_of_mem {s : State} {x : Req} (hd : Distinct s) (hx : x ∈ s.reqs) : reqOf s x.h = some x := by
  cases hr : reqOf s x.h with
  | none => exact absurd (List.find?_eq_none.1 hr x hx) (by simp)
  | some y =>
    have hy : y.h = x.h := by simpa using List.find?_some (p := fun q : Req => q.h == x.h) hr
    exact congrArg some (List.inj_on_of_nodup_map hd (List.mem_of_find?_eq_some hr) hx hy)

theorem ended_of_follows {s t : State} {h : Nat} (hf : ReqsFollow s t) (he : ∀ x ∈ s.reqs, x.h = h → x.outcome ≠ none) :
    ∀ x ∈ t.reqs, x.h = h → x.outcome ≠ none := by
  obtain ⟨f, hf, hk⟩ := hf
  intro x hx hxh
  rw [hf] at hx
  obtain ⟨y, hy, rfl⟩ := List.mem_map.1 hx
  obtain ⟨h1, -, -, -, h5⟩ := hk y
  exact h5 (he y hy (h1.symm.trans hxh))

theorem endSilent_ends {n : Nat} {s : State} (hn : (fnOf s n).flr.isSome = true) (hd : Distinct s) (h : Nat) :
    ∀ x ∈ (endSilent s h).reqs, x.h = h → x.outcome ≠ none := by
  unfold endSilent
  split
  next hr => exact fun x hx hxh => absurd (List.find?_eq_none.1 hr x hx) (by simp [hxh])
  next q hr =>
    split
    next ho =>
      intro x hx hxh
      obtain rfl : q = x := by simpa [← hxh, reqOf_of_mem hd hx, eq_comm] using hr
      exact Option.isSome_iff_ne_none.1 ho
    · have hc := silenced_follows n s h q
      have hw : (fnOf (countEnd (updReq s h silenced) q) n).flr.isSome = true := by rwa [hc.fn]
      refine ended_of_follows (stopWant_follows hw h).reqs fun x hx hxh => ?_
      obtain ⟨y, -, rfl⟩ := List.mem_map.1 hx
      by_cases hy : y.h = h
      · simp [hy, silenced]
      · rw [if_neg (by simpa using hy)] at hxh
        exact absurd hxh hy

theorem flrEnd_ends {n : Nat} {s : State} (hn : (fnOf s n).flr.isSome = true) (hd : Distinct s) (st : Nat) (q : Req) :
    ∀ x ∈ (flrEnd s st q).reqs, x.h = q.h → x.outcome ≠ none :=
  have hc := flrCut_follows n s st q
  endSilent_ends (n := n) (by rwa [hc.fn]) (hc.reqs.distinct_iff.2 hd) q.h

theorem flrEnds_follows {n : Nat} {s : State} (hn : (fnOf s n).flr.isSome = true) (st : Nat) (l : List Req) :
    Follows n s (l.foldl (fun t q => flrEnd t st q) s) :=
  foldl_follows (P := fun t => (fnOf t n).flr.isSome = true) (fun t u ht h => by rwa [h.fn]) (fun t q ht => flrEnd_follows ht st q) l hn

/-- Every request of a list is ended by an FLR's cut of that list. -/
theorem flrEnds_end {n : Nat} (st : Nat) {s : State} (hn : (fnOf s n).flr.isSome = true) (hd : Distinct s) (l : List Req) :
    ∀ q ∈ l, ∀ x ∈ (l.foldl (fun t q => flrEnd t st q) s).reqs, x.h = q.h → x.outcome ≠ none := by
  induction l generalizing s with
  | nil => simp
  | cons a l ih =>
    have ha := flrEnd_follows hn st a
    have hn' : (fnOf (flrEnd s st a) n).flr.isSome = true := by rwa [ha.fn]
    have hl := flrEnds_follows hn' st l
    intro q hq x hx hxh
    rcases List.mem_cons.1 hq with rfl | hq
    · exact ended_of_follows hl.reqs (flrEnd_ends hn hd st q) x hx hxh
    · exact ih hn' (ha.reqs.distinct_iff.2 hd) q hq x hx hxh

/-! ### An FLR (R364, R365) -/

/-- Function n is in its FLR since st, owns no valid window, has no write held, and no request of its own rings lives. -/
structure FnGone (n st : Nat) (t : State) : Prop where
  fn : fnOf t n = { Fn.reset with flr := some st }
  held : ∀ w ∈ t.host.held, w.fn ≠ n
  wins : ∀ w ∈ t.host.wins, w.owner = n → w.valid = false
  reqs : Distinct t → ∀ q ∈ t.reqs, q.fn = n → q.ownsRing = true → q.replay = none → q.outcome ≠ none

theorem FnGone.follows {n st : Nat} {s t : State} (h : FnGone n st s) (g : Follows n s t) : FnGone n st t where
  fn := g.fn.trans h.fn
  held w hw hn := h.held w (g.held w hw hn) hn
  wins w hw hn := by
    by_contra hv
    obtain ⟨v, hv1, hv2, hv3⟩ := g.wins w hw (by simpa using hv)
    simp [h.wins v hv1 (hv3.trans hn)] at hv2
  reqs hd q hq hn ho hr := by
    have hs := g.reqs.distinct_iff.1 hd
    obtain ⟨f, hf, hk⟩ := g.reqs
    rw [hf] at hq
    obtain ⟨y, hy, rfl⟩ := List.mem_map.1 hq
    obtain ⟨-, h2, h3, h4, h5⟩ := hk y
    exact h5 (h.reqs hs y hy (h2 ▸ hn) (h3 ▸ ho) (h4 ▸ hr))

/-- What an FLR of function m does before its requests are cut: its contexts are dropped and it is reset. -/
def flrOpen (s : State) (m : Nat) : State := updFn (muteFn s m) m fun _ => { Fn.reset with flr := some s.boot.dtc }

/-- What it does behind them. -/
def flrShut (m : Nat) (s : State) : State :=
  { s with host := { s.host with wins := s.host.wins.map (fun w : Win => if w.owner == m then { w with valid := false } else w)
                                 held := s.host.held.filter fun w : BusWrite => w.fn != m } }

/-- The requests that an FLR of function m cuts. -/
def flrReqs (s : State) (m : Nat) : List Req :=
  sortBy (·.h) ((flrOpen s m).reqs.filter fun q => q.fn == m && q.ownsRing && q.replay.isNone && living q)

theorem flrStart_eq (s : State) (m : Nat) : flrStart s m = if (fnOf s m).flr.isSome || !fnEnabled s m then s
    else flrShut m ((flrReqs s m).foldl (fun t q => flrEnd t s.boot.dtc q) (flrOpen s m)) := rfl

theorem muteFn_reqsFollow (s : State) (m : Nat) : ReqsFollow s (muteFn s m) :=
  ⟨fun q => { q with wantCtx := q.wantCtx.map (muteCtx m), exports := q.exports.map (muteCtx m) }, rfl, fun _ => ⟨rfl, rfl, rfl, rfl, id⟩⟩

theorem muteFn_follows (n : Nat) (s : State) (m : Nat) : Follows n s (muteFn s m) :=
  ⟨rfl, fun _ hw _ => hw, fun w hw hv => ⟨w, hw, hv, rfl⟩, muteFn_reqsFollow s m⟩

theorem flrShut_follows (n m : Nat) (s : State) : Follows n s (flrShut m s) where
  fn := rfl
  held w hw _ := List.mem_of_mem_filter hw
  wins w hw hv := by
    obtain ⟨v, hv1, rfl⟩ := List.mem_map.1 hw
    by_cases h : v.owner = m
    · simp [h] at hv
    · rw [if_neg (by simpa using h)] at hv ⊢
      exact ⟨v, hv1, hv, rfl⟩
  reqs := reqsFollow_of_eq rfl

/-- An FLR of any function leaves a function that is in reset as it is. -/
theorem flrStart_follows {n m : Nat} {s : State} (hn : (fnOf s n).flr.isSome = true) : Follows n s (flrStart s m) := by
  rw [flrStart_eq]
  split
  · exact follows_refl n s
  next hm =>
    have hne : m ≠ n := fun h => by simp [h, hn] at hm
    have ho : Follows n s (flrOpen s m) := (muteFn_follows n s m).trans (updFn_follows _ _ hne)
    exact (ho.trans (flrEnds_follows (by rwa [ho.fn]) _ _)).trans (flrShut_follows n m _)

/-- An FLR of an enabled function that is not in one. -/
theorem flrStart_gone {s : State} {n : Nat} (hf : (fnOf s n).flr = none) (he : fnEnabled s n = true)
    (hn : n < s.host.fns.length) :
    FnGone n s.boot.dtc (flrStart s n) ∧ ReqsFollow s (flrStart s n) := by
  have hopen : fnOf (flrOpen s n) n = { Fn.reset with flr := some s.boot.dtc } := fnOf_updFn_same _ _ hn
  have hsome : (fnOf (flrOpen s n) n).flr.isSome = true := by rw [hopen]; rfl
  have hl := flrEnds_follows hsome s.boot.dtc (flrReqs s n)
  rw [flrStart_eq, if_neg (by simp [hf, he])]
  refine ⟨⟨hl.fn.trans hopen, fun w hw => by simpa using (List.mem_filter.1 hw).2, fun w hw ho => ?_, fun hd q hq hqn hqo hqr => ?_⟩,
    (muteFn_reqsFollow s n).trans hl.reqs⟩
  · obtain ⟨v, -, rfl⟩ := List.mem_map.1 hw
    by_cases h : v.owner = n
    · simp [h]
    · rw [if_neg (by simpa using h)] at ho
      exact absurd ho h
  · have hd' : Distinct (flrOpen s n) := hl.reqs.distinct_iff.1 hd
    obtain ⟨f, hf, hk⟩ := hl.reqs
    have hq' : q ∈ (flrOpen s n).reqs.map f := hf ▸ hq
    obtain ⟨y, hy, rfl⟩ := List.mem_map.1 hq'
    obtain ⟨h1, h2, h3, h4, h5⟩ := hk y
    by_cases hyo : y.outcome = none
    · have hmem : y ∈ flrReqs s n := mem_sortBy.2 (List.mem_filter.2 ⟨hy, by
        rw [h2] at hqn; rw [h3] at hqo; rw [h4] at hqr
        simp [hqn, hqo, hqr, living, hyo]⟩)
      exact flrEnds_end s.boot.dtc hsome hd' _ y hmem _ hq h1
    · exact h5 hyo

/-- While a function is in reset no write through it is issued. -/
theorem issue_of_flr {s : State} {w : BusWrite} (h : (fnOf s w.fn).flr.isSome = true) : issue s w = s := by
  rw [issue, if_pos]
  simp [mayIssue, h]

theorem execFlrVf_next {s : State} {n : Nat} (h1 : 1 ≤ n) (h2 : n ≤ 15) (hl : Live s) : exec (.flrVf n) s = .next
    (flrStart s n) := by
  change execFlrVf n s = _
  rw [execFlrVf, if_pos ⟨h1, h2⟩, guarded_live _ hl]

/-- The PF's FLR comes first of the sixteen, and the others leave it alone. -/
theorem flrAll_gone {s : State} (hf : (fnOf s 0).flr = none) (hn : 0 < s.host.fns.length) :
    FnGone 0 s.boot.dtc ((List.range 16).foldl flrStart s) ∧ ReqsFollow s ((List.range 16).foldl flrStart s) := by
  obtain ⟨h0, hr⟩ := flrStart_gone hf (by simp [fnEnabled]) hn
  have hs : (fnOf (flrStart s 0) 0).flr.isSome = true := by rw [h0.fn]; rfl
  rw [List.range_eq_range', show List.range' 0 16 = 0 :: List.range' 1 15 from rfl, List.foldl_cons]
  have hrest : Follows 0 (flrStart s 0) ((List.range' 1 15).foldl flrStart (flrStart s 0)) :=
    foldl_follows (P := fun t => (fnOf t 0).flr.isSome = true) (fun t u ht h => by rwa [h.fn]) (fun t m ht => flrStart_follows ht) _ hs
  exact ⟨h0.follows hrest, hr.trans hrest.reqs⟩

/-- FLR_DMA_DRAINED ends the FLR: no read of the function is out, and nothing but the host's reads, barriers and functions changes. -/
theorem exec_flrDmaDrained {s : State} {n : Nat} (hn : n < 16) (hl : Live s) (hf : (fnOf s n).flr ≠ none) :
    exec (.flrDmaDrained n) s = .next (updFn { s with host := { s.host with
      reads := s.host.reads.filter (fun r : DmaRead => r.fn != n)
      barriers := s.host.barriers.filter fun b : Barrier => b.fn != n || b.why == .quarantine } } n fun f => { f with flr := none }) :=
  (inRange_guarded _ hn hl).trans (congrArg _ (if_neg (by simpa [Option.isNone_iff_eq_none] using hf)))

/-- Settles O19: an FLR leaves its function as FnGone says; the rest is the effect of one row each. -/
theorem functionResetsAndTheLink : Obligations.FunctionResetsAndTheLink := by
  unfold Obligations.FunctionResetsAndTheLink
  refine ⟨fun s n h1 h2 hl he hf hn => ?_, fun s hl hf hn => ?_, fun s n hn hl hf hlen => ?_,
      fun s hl => ⟨guarded_next _ hl, fun hd hp hr => ?_, fun w hw => ?_⟩⟩
  · obtain ⟨hg, hr⟩ := flrStart_gone hf he hn
    exact ⟨_, execFlrVf_next h1 h2 hl, hg.fn, hg.wins, fun w hw => issue_of_flr (by rw [hw, hg.fn]; rfl), hg.held,
      fun hd => hg.reqs (hr.distinct_iff.2 hd)⟩
  · obtain ⟨hg, hr⟩ := flrAll_gone hf hn
    have hx : exec .flrPf s = .next (let t := (List.range 16).foldl flrStart s; { t with host := { t.host with vfs := 0 } }) :=
      guarded_next _ hl
    generalize (List.range 16).foldl flrStart s = t at hg hr hx
    refine ⟨_, hx, rfl, hg.fn, hg.wins, fun w hw => issue_of_flr ?_, hg.held, fun hd => hg.reqs (hr.distinct_iff.2 hd)⟩
    rw [hw]
    exact congrArg (fun f : Fn => f.flr.isSome) hg.fn
  · refine ⟨_, exec_flrDmaDrained hn hl hf, fnOf_updFn_same _ _ hlen, fun r hr => by simpa using (List.mem_filter.1 hr).2, fun hz => ?_, rfl, rfl⟩
    rw [fnOf_updFn_same _ _ (by exact hlen)]
    change fnOf s n = _ at hz
    exact ⟨congrArg (·.mbox.st) hz, congrArg (·.sqs) hz, congrArg (·.cqs) hz⟩
  · exact (guarded_next _ hl).trans (congrArg _ (if_neg (by simp [hd, hp, hr])))
  · rw [issue, if_neg (by simp [hw])]

end Sys2Proof.Machine
end

section
/-! SUPPORT. Boot stages, boot failures and resets. -/

namespace Sys2Proof.Machine

/-! ### Boot stages (R466 to R476) -/

/-- The state right after the root PLL's lock on a cold boot: the DTC at 0, BOOT_EPOCH counted, the fabric on (R466). -/
def lockedState (s : State) : State :=
  turnOn { s with boot := { s.boot with pllLocked := true, dtc := 0, epoch := (s.boot.epoch + 1) % 2 ^ 32 } } (fabricDomains s)

/-- PLL_LOCK on a cold boot, with a valid directory copy and without one (R466, R467). -/
theorem exec_pllLock_some {s : State} {r0 r1 : ReadResult} {d : Dir} (hp : s.boot.pwrGood = true) (hs : s.boot.stage = .rom)
    (hc : s.boot.cold = true) (hd : chooseDir r0 r1 = some d) :
    exec (.pllLock r0 r1) s = .next (setStage { lockedState s with boot := { (lockedState s).boot with dir := some d } } .fwLoad) := by
  change execPllLock r0 r1 s = _
  rw [execPllLock, if_neg (by simp [hp, hs, hc])]
  simp only [hd, hc, if_true, lockedState, -Nat.reducePow]

theorem exec_pllLock_none {s : State} {r0 r1 : ReadResult} (hp : s.boot.pwrGood = true) (hs : s.boot.stage = .rom)
    (hc : s.boot.cold = true) (hd : chooseDir r0 r1 = none) : exec (.pllLock r0 r1) s = .next (bootFail (lockedState s) .noImage none) := by
  change execPllLock r0 r1 s = _
  rw [execPllLock, if_neg (by simp [hp, hs, hc])]
  simp only [hd, hc, if_true, lockedState, -Nat.reducePow]

/-- What the image that runs leaves in the boot state (R471, R472). -/
theorem runImage_fields (b : Boot) (im : Bytes) : (runImage b im).curFw = fwDigest im ∧ (runImage b im).svn = rd im 8 4 ∧
    (runImage b im).keySlot = rd im 12 1 ∧ (runImage b im).ifMajor = rd im 6 1 ∧ (runImage b im).ifMinor = rd im 7 1 ∧
    (runImage b im).dtc = b.dtc ∧ (runImage b im).revoked = b.revoked ∧ (runImage b im).minSvn = b.minSvn := by
  unfold runImage
  extract_lets d b1 b2
  have h1 : b1.curFw = d ∧ b1.dtc = b.dtc ∧ b1.revoked = b.revoked ∧ b1.minSvn = b.minSvn := by
    by_cases hd : (d == b.curFw) = true
    · simp only [b1, if_pos hd]
      exact ⟨(beq_iff_eq.1 hd).symm, trivial, trivial, trivial⟩
    · simp only [b1, if_neg hd]
      exact ⟨trivial, trivial, trivial, trivial⟩
  have h2 : b2.curFw = b1.curFw ∧ b2.dtc = b1.dtc ∧ b2.revoked = b1.revoked ∧ b2.minSvn = b1.minSvn := by
    simp only [b2]
    split <;> exact ⟨rfl, rfl, rfl, rfl⟩
  obtain ⟨c1, c2, c3, c4⟩ := h1
  obtain ⟨e1, e2, e3, e4⟩ := h2
  exact ⟨e1.trans c1, rfl, rfl, rfl, rfl, e2.trans c2, e3.trans c3, e4.trans c4⟩

/-- The active slot's image, where it is valid, starts (R470). -/
theorem exec_fwImageLoaded {s : State} {a b : ReadResult} {d : Dir} {im : Bytes} (hs : s.boot.stage = .fwLoad)
    (hd : s.boot.dir = some d)
    (ha : d.active < 2) (hi : slotImage s.boot (if d.active = 0 then d.lenA else d.lenB) (if d.active = 0 then a else b) = some im) :
    exec (.fwImageLoaded a b) s = .next (startImage s d.active false im) := by
  have hact : b2n (d.active == 1) = d.active := by
    obtain h | h : d.active = 0 ∨ d.active = 1 := by omega
    all_goals simp [h, b2n]
  have hslot : slotOfDir d a b d.active = (if d.active = 0 then d.lenA else d.lenB, if d.active = 0 then a else b) := by
    unfold slotOfDir
    split <;> rfl
  change execFwImageLoaded a b s = _
  rw [execFwImageLoaded, if_neg (by simp [hs]), hd]
  simp only [hact, hslot, hi]

/-- A package without a board configuration takes none (R476). -/
theorem boardConfig_absent {u : State} {d : Dir} (r : ReadResult) (hd : u.boot.dir = some d) (hc : d.cfgLen = 0) :
    boardConfig u r = u := by
  rw [boardConfig, if_pos]
  simp [hd, hc]

/-- Settles O20: each boot event by its row; a change of stage touches the host side only. -/
theorem bootStagesAdvance : Obligations.BootStagesAdvance := by
  unfold Obligations.BootStagesAdvance
  refine ⟨fun s hp => ?_, fun s r0 r1 d hp hs hc hd => ?_, fun s a b d im hs hd ha hi => ?_, fun s hl hs => ?_, fun s hl hs => ?_,
    fun s r d hl hs hd hc => ?_⟩
  · exact congrArg _ (if_neg (by simp [hp]))
  · obtain ⟨h, hst⟩ := setStage_eq { lockedState s with boot := { (lockedState s).boot with dir := some d } } .fwLoad
    exact ⟨_, (exec_pllLock_some hp hs hc hd).trans (congrArg _ hst), rfl, rfl, rfl,
      fun k hk => List.mem_eraseDups.2 (List.mem_append_left _ hk)⟩
  · obtain ⟨h, hst⟩ := setStage_eq { s with boot := { runImage (if s.boot.cold = true then blowFuses s.boot im else s.boot) im with
      ranSlot := d.active, fallbackSlot := false } } .fwStart
    refine ⟨_, (exec_fwImageLoaded hs hd ha hi).trans (congrArg _ hst), rfl, rfl, rfl, rfl, ?_⟩
    obtain ⟨h1, h2, h3, h4, h5, h6, h7, h8⟩ := runImage_fields (if s.boot.cold = true then blowFuses s.boot im else s.boot) im
    refine ⟨h1, h2, h3, h4, h5, h6.trans ?_, fun hc => ⟨h7.trans (by rw [if_neg (by simp [hc])]), h8.trans (by rw [if_neg (by simp [hc])])⟩⟩
    split <;> rfl
  · have hrow : exec (.hbmTrainingDone none) s =
        .next (setStage (turnOn (if s.boot.stage == .fwStart then setStage s .hbmTrain else s) (phyDomains
          (if s.boot.stage == .fwStart then setStage s .hbmTrain else s))) .bist) := by
      refine (guarded_next _ hl).trans (congrArg _ (if_neg ?_))
      rcases hs with hs | hs <;> simp [hs]
    have hmid : ∃ h st, (if s.boot.stage == .fwStart then setStage s .hbmTrain else s) = { s with boot := { s.boot with stage := st }, host := h } := by
      split
      · obtain ⟨h, hst⟩ := setStage_eq s .hbmTrain
        exact ⟨h, _, hst⟩
      · exact ⟨s.host, s.boot.stage, rfl⟩
    obtain ⟨h, st, hmid⟩ := hmid
    rw [hmid] at hrow
    obtain ⟨h', hst⟩ := setStage_eq (turnOn { s with boot := { s.boot with stage := st }, host := h } (phyDomains
      { s with boot := { s.boot with stage := st }, host := h })) .bist
    exact ⟨_, hrow.trans (congrArg _ hst), rfl, rfl⟩
  · obtain ⟨h, hst⟩ := setStage_eq { s with clusters := [] } .kat
    refine ⟨_, (guarded_next _ hl).trans ((congrArg _ (if_neg (by simp [hs]))).trans (congrArg _ hst)), rfl⟩
  · obtain ⟨h, hst⟩ := setStage_eq { s with boot := { s.boot with booting := false }, flt := { s.flt with quietN := harmless s.flt.pkg } } .serving
    have hrow : exec (.katDone none r) s = .next (boardConfig (setStage { s with
        boot := { s.boot with booting := false }, flt := { s.flt with quietN := harmless s.flt.pkg } } .serving) r) :=
      (guarded_next _ hl).trans (congrArg _ (if_neg (by simp [hs])))
    rw [hst, boardConfig_absent r (by exact hd) hc] at hrow
    exact ⟨_, hrow, rfl, rfl⟩

/-! ### Boot failures (R477) -/

/-- A failed boot of a package whose faults were those of s. -/
theorem bootFail_stops {s u t : State} {st : BootStage} {unit : Option Nat} (hu : u.flt = s.flt) (ht : t = bootFail u st unit)
    (hst : 0x81 ≤ stageVal st) :
    t.boot.stage = st ∧ t.flt.faultN = true ∧ t.flt.quietN = true ∧ t.flt.logCount = (s.flt.logCount + 1) % 2 ^ 32 ∧
      (∃ e, t.flt.log.getLast? = some e ∧ e.source = 0x0200 + stageVal st ∧ e.seq = s.flt.logCount ∧ e.dtc = t.boot.dtc) ∧
      t.flt.pkg = s.flt.pkg ∧ fwServes t = false := by
  obtain ⟨e, hf, hsrc, hseq, hdtc, -, -⟩ := bootFail_flt u st unit
  have hb := bootFail_boot u st unit
  rw [← ht] at hf hb
  rw [hu] at hf hseq
  refine ⟨by rw [hb], by rw [hf], by rw [hf], by rw [hf], ⟨e, ?_, hsrc, hseq, by rw [hdtc, hb]⟩, by rw [hf], ?_⟩
  · rw [hf]
    exact List.getLast?_concat ..
  · rw [fwServes, hb]
    cases st with
    | noImage | pllFail | hbmFail | bistFail | katFail | stageTimeout => rfl
    | rom | fwLoad | fwStart | hbmTrain | bist | kat | serving | fwActivating => exact absurd hst (by decide)

theorem setStage_flt (s : State) (st : BootStage) : (setStage s st).flt = s.flt := by
  obtain ⟨h, hst⟩ := setStage_eq s st
  rw [hst]

/-- Settles O21: each failure's row is a failed boot. -/
theorem bootFailuresStop : Obligations.BootFailuresStop := by
  unfold Obligations.BootFailuresStop
  intro s t st hl h
  have key : ∀ {u unit}, u.flt = s.flt → (Host.Outcome.next (bootFail u st unit) : Out) = .next t → 0x81 ≤ stageVal st →
      t.boot.stage = st ∧ t.flt.faultN = true ∧ t.flt.quietN = true ∧ t.flt.logCount = (s.flt.logCount + 1) % 2 ^ 32 ∧
      (∃ e, t.flt.log.getLast? = some e ∧ e.source = 0x0200 + stageVal st ∧ e.seq = s.flt.logCount ∧ e.dtc = t.boot.dtc) ∧
      t.flt.pkg = s.flt.pkg ∧ fwServes t = false := fun {u unit} hu ht hs => bootFail_stops hu (Host.Outcome.next.inj ht).symm hs
  rcases h with ⟨r0, r1, hp, hs, hc, hd, rfl, ht⟩ | ⟨hp, hs, hk, rfl, ht⟩ | ⟨n, hs, rfl, ht⟩ | ⟨n, hs, rfl, ht⟩ | ⟨n, r, hs, rfl, ht⟩ | ⟨n, hs, rfl, ht⟩
  · rw [exec_pllLock_none hp hs hc hd] at ht
    exact key (u := lockedState s) rfl ht (by decide)
  · change execPllLockTimeout s = _ at ht
    rw [execPllLockTimeout, if_pos (by simp [hp, hs, hk])] at ht
    exact key (u := s) rfl ht (by decide)
  · have hrow : exec (.hbmTrainingDone (some n)) s =
        .next (bootFail (if s.boot.stage == .fwStart then setStage s .hbmTrain else s) .hbmFail (some n)) := by
      refine (guarded_next _ hl).trans (congrArg _ (if_neg ?_))
      rcases hs with hs | hs <;> simp [hs]
    rw [hrow] at ht
    refine key ?_ ht (by decide)
    split
    · exact setStage_flt _ _
    · rfl
  · exact key (u := s) rfl (((guarded_next _ hl).trans (congrArg _ (if_neg (by simp [hs])))).symm.trans ht) (by decide)
  · exact key (u := s) rfl (((guarded_next _ hl).trans (congrArg _ (if_neg (by simp [hs])))).symm.trans ht) (by decide)
  · have hbound : stageBound s.boot = true := by
      simp only [List.mem_cons, List.not_mem_nil, or_false] at hs
      rcases hs with (h | h | h | h | h) | ⟨h, hp, hg⟩ <;> simp_all [stageBound]
    have hrow : exec (.stageTimeout n) s = .next (bootFail s .stageTimeout (some (n % 2 ^ 32))) :=
      (guarded_next _ hl).trans (congrArg _ (if_pos hbound))
    exact key (u := s) rfl (hrow.symm.trans ht) (by decide)

/-! ### Resets (R478 to R480) -/

/-- What both resets clear and keep (Table BRU-7), whatever they leave of the DTC and the ports. -/
theorem portWarm_eq (now : Nat) (p : Port) :
    { portWarm now p with holdUntil := 0 } = Port.reset ∧ (p.st ≠ .disabled → p.st ≠ .down → (portWarm now p).holdUntil = now + 10000) := by
  unfold portWarm
  split
  next h => exact ⟨rfl, fun h1 h2 => absurd h (by simp [h1, h2])⟩
  · exact ⟨rfl, fun _ _ => rfl⟩

/-- The boot state after a reset: what Table BRU-7 keeps, and what a warm reset keeps besides. -/
def rebooted (b : Boot) (dtc : Nat) (pll good bar cold perst : Bool) : Boot :=
  { bootKept b with dtc := dtc, pllLocked := pll, pwrGood := good, keyBar := bar, cold := cold, stage := .rom, perst := perst }

theorem warmReset_eq {s : State} (hp : s.boot.pllLocked = true) : warmReset s =
    { resetTo s (rebooted s.boot s.boot.dtc s.boot.pllLocked s.boot.pwrGood s.boot.keyBar false s.boot.perst) with
      ports := s.ports.map (portWarm s.boot.dtc) } := by
  simp only [warmReset, hp, Bool.true_or, if_true]
  rfl

/-- Settles O23: a reset leaves the reset state but for what Table BRU-7 keeps, and a warm one but for the ports. -/
theorem resetsClearAndKeep : Obligations.ResetsClearAndKeep := by
  unfold Obligations.ResetsClearAndKeep
  intro s
  intro cleared warm
  have hclear : ∀ dtc pll good bar cold perst ports, cleared { resetTo s (rebooted s.boot dtc pll good bar cold perst) with ports := ports } :=
    fun dtc pll good bar cold perst ports =>
      ⟨rfl, rfl, rfl, rfl, rfl, rfl, rfl, rfl, rfl, rfl, rfl, rfl, rfl, rfl, rfl, rfl, rfl, rfl, rfl, rfl, rfl, rfl,
        by simp [resetTo, rebooted, bootKept], rfl, rfl⟩
  have hwarm : ∀ dtc pll good bar cold perst,
      warm { resetTo s (rebooted s.boot dtc pll good bar cold perst) with ports := s.ports.map (portWarm s.boot.dtc) } :=
    fun dtc pll good bar cold perst => by
      refine ⟨fun x hx => ?_, List.length_map _, fun i x hi h1 h2 => ⟨portWarm s.boot.dtc x, ?_, (portWarm_eq _ x).2 h1 h2, fun now hn => ?_⟩⟩
      · obtain ⟨y, -, rfl⟩ := List.mem_map.1 hx
        exact (portWarm_eq _ y).1
      · simp [hi]
      · have hh : (portWarm s.boot.dtc x).holding = false := congrArg (·.holding) (portWarm_eq s.boot.dtc x).1
        simp [sendsHold, hh, (portWarm_eq _ x).2 h1 h2]
  refine ⟨⟨_, rfl, hclear 0 false false false _ s.boot.perst _, rfl, rfl, rfl⟩, fun hg hp => ⟨?_, fun hr => ?_⟩, ?_⟩
  · have hrow : exec .pcieHotReset s = .next (warmReset s) := by
      change execPcieHotReset s = _
      rw [execPcieHotReset, if_pos hg]
    exact ⟨_, hrow.trans (congrArg _ (warmReset_eq hp)), hclear _ _ _ _ _ _ _, hwarm _ _ _ _ _ _, rfl, hp⟩
  · have hrow : exec .perstNAssert s = .next (warmReset { s with boot := { s.boot with perst := true } }) := by
      change execPerstNAssert s = _
      simp [execPerstNAssert, hg, hr]
    exact ⟨_, hrow.trans (congrArg _ (warmReset_eq (by exact hp))), hclear _ _ _ _ _ true _, hwarm _ _ _ _ _ true, rfl, hp, rfl⟩
  · change execPerstNDeassert s = _
    rw [execPerstNDeassert]
    simp only [beq_iff_eq]

end Sys2Proof.Machine
end

section
/-! SUPPORT. Firmware activation and recovery: what an answer, a link message and a power request leave alone, then what each
stage does (R433, R435, R482 to R485). -/

namespace Sys2Proof.Machine

/-! ### Which parts of the state an answer, a link message or a power request touches -/

/-- Only the host side, the ports and the Governor differ. -/
def AnswerOnly (s t : State) : Prop := t = { s with host := t.host, ports := t.ports, gov := t.gov }

theorem answerOnly_refl (s : State) : AnswerOnly s s := rfl

theorem AnswerOnly.trans {s t u : State} (h : AnswerOnly s t) (g : AnswerOnly t u) : AnswerOnly s u := by
  unfold AnswerOnly at *
  rw [g, h]

theorem answerOnly_of_hostOnly {s t : State} (h : hostOnly s t) : AnswerOnly s t := by
  unfold hostOnly at h
  unfold AnswerOnly
  rw [h]

/-- Only the ports and the Governor differ. -/
def LinkOnly (s t : State) : Prop := t = { s with ports := t.ports, gov := t.gov }

theorem LinkOnly.answerOnly {s t : State} (h : LinkOnly s t) : AnswerOnly s t := by
  unfold LinkOnly at h
  unfold AnswerOnly
  rw [h]

theorem linkOnly_refl (s : State) : LinkOnly s s := rfl

theorem LinkOnly.trans {s t u : State} (h : LinkOnly s t) (g : LinkOnly t u) : LinkOnly s u := by
  unfold LinkOnly at *
  rw [g, h]

theorem foldl_linkOnly {α : Type} {f : State → α → State} (hf : ∀ t a, LinkOnly t (f t a)) (l : List α) (s : State) :
    LinkOnly s (l.foldl f s) := by
  induction l generalizing s with
  | nil => rfl
  | cons a l ih => exact (hf s a).trans (ih _)

theorem foldl_answerOnly {α : Type} {f : State → α → State} (hf : ∀ t a, AnswerOnly t (f t a)) (l : List α) (s : State) :
    AnswerOnly s (l.foldl f s) := by
  induction l generalizing s with
  | nil => rfl
  | cons a l ih => exact (hf s a).trans (ih _)

theorem updPort_linkOnly (s : State) (n : Nat) (f : Port → Port) : LinkOnly s (updPort s n f) := rfl

theorem linkOnly_ite {c : Prop} [Decidable c] {s t u : State} (ht : LinkOnly s t) (hu : LinkOnly s u) : LinkOnly s
    (if c then t else u) := by
  split
  · exact ht
  · exact hu

theorem pumpState_linkOnly (s : State) (n : Nat) : LinkOnly s (pumpState s n) := by
  unfold pumpState
  split
  · rfl
  · exact linkOnly_ite rfl rfl

theorem portSend_linkOnly (s : State) (n v : Nat) (msg : Bytes) : LinkOnly s (portSend s n v msg) :=
  LinkOnly.trans (t := { s with ports := modAt s.ports n fun p => { p with txq := p.txq ++ [{ vc := v, part := rd msg 4 1, bytes := msg, begun := false }] } })
    rfl (pumpState_linkOnly _ n)

theorem sendMember_linkOnly (s : State) (g k v : Nat) (msg : Bytes) : LinkOnly s (sendMember s g k v msg) := by
  unfold sendMember
  split
  · exact portSend_linkOnly _ _ _ _
  · rfl

theorem sendOthers_linkOnly (s : State) (g v : Nat) (msg : Bytes) : LinkOnly s (sendOthers s g v msg) := by
  refine foldl_linkOnly (fun t k => ?_) _ _
  split
  · rfl
  · exact sendMember_linkOnly _ _ _ _ _

theorem tell_linkOnly (s : State) (p g : Nat) (k : NoticeKind) (key : Nat) (body : Bytes) : LinkOnly s (tell s p g k key body) :=
  sendOthers_linkOnly _ _ _ _

theorem domainUp_linkOnly (s : State) (d : Nat) : LinkOnly s (domainUp s d) := by
  unfold domainUp
  split <;> rfl

theorem detectPort_linkOnly (s : State) (n : Nat) : LinkOnly s (detectPort s n) :=
  (updPort_linkOnly _ _ _).trans (domainUp_linkOnly _ _)

theorem leaveHold_linkOnly (s : State) : LinkOnly s (leaveHold s) := by
  refine foldl_linkOnly (fun t n => ?_) _ _
  split
  · exact detectPort_linkOnly _ _
  · rfl

/-- A response, wherever the message came from (R351, R356, R368). -/
theorem respondNum_answerOnly (s : State) (c : MsgCtx) (code : Nat) (body : Bytes) : AnswerOnly s (respondNum s c code body) := by
  cases ho : c.origin with
  | link port fn =>
    simp only [respondNum, ho]
    exact (portSend_linkOnly _ _ _ _).answerOnly
  | mbox | queue | board => exact answerOnly_of_hostOnly (respondNum_hostOnly (by simp [ho]) s code body)

theorem respond_answerOnly (s : State) (c : MsgCtx) (code : Code) (body : Bytes) : AnswerOnly s (respond s c code body) :=
  respondNum_answerOnly s c _ body

theorem refuse_answerOnly (s : State) (c : MsgCtx) (code : Code) : AnswerOnly s
    (refuse s c code) := respondNum_answerOnly s c _ []

theorem AnswerOnly.flt {s t : State} (h : AnswerOnly s t) : t.flt = s.flt := congrArg (·.flt) h
theorem AnswerOnly.boot {s t : State} (h : AnswerOnly s t) : t.boot = s.boot := congrArg (·.boot) h
theorem AnswerOnly.parts {s t : State} (h : AnswerOnly s t) : t.parts = s.parts := congrArg (·.parts) h
theorem AnswerOnly.reqs {s t : State} (h : AnswerOnly s t) : t.reqs = s.reqs := congrArg (·.reqs) h
theorem AnswerOnly.clusters {s t : State} (h : AnswerOnly s t) : t.clusters = s.clusters := congrArg (·.clusters) h

/-! ### Firmware activation (R379, R482 to R485) -/

/-- An image as FW_ACTIVATE stages it (R482). -/
def stagedImage (c : MsgCtx) (im : Bytes) (keep : Bool) : Staged :=
  { ctx := c, digest := fwDigest im, ifMajor := rd im 6 1, ifMinor := rd im 7 1, svn := rd im 8 4, keySlot := rd im 12 1, image := im, persist := keep }

/-- FW_ACTIVATE of an image that passes every check, with PERSIST and without. -/
theorem fwActivate_accepted {u : State} {m : Taken} {image : ReadResult} {im : Bytes}
    (hz : bodyZero m.cmd [(8, 1), (9, 1), (12, 4), (16, 8), (24, 32)] = true) (hk : rd m.cmd 9 1 < 2) (hp : u.boot.fwPhase = .idle)
    (hi : fwImage u m.cmd image = some im) (hd : fwDigest im = slice m.cmd 24 32) (hs : fwSigned u.boot im = true) (hf : fwFormed im = true)
    (hv : rd im 6 1 = u.boot.ifMajor) :
    (rd m.cmd 9 1 = 1 → fwActivate u m image = { u with boot := { u.boot with staged := some (stagedImage m.ctx im true), fwPhase := .persist } }) ∧
    (rd m.cmd 9 1 = 0 → fwActivate u m image =
      beginQuiesce { u with boot := { u.boot with staged := some (stagedImage m.ctx im false), fwPhase := .idle } }) := by
  constructor <;> intro h <;> simp [fwActivate, stagedImage, hz, hk, hp, hi, hd, hs, hf, hv, h]

/-- The directory copy written and the two flash writes, in order (R483). -/
theorem persisted_spec (b : Boot) {d : Dir} (f : Staged) (ha : d.active < 2) :
    (∃ e, (persisted b d f).dir = some e ∧ e.copy = 1 - d.copy ∧ e.active = 1 - d.active ∧ e.gen = (d.gen + 1) % 2 ^ 32) ∧
      ∃ x y, (persisted b d f).flashOut = b.flashOut ++ [x, y] ∧ x.data = f.image := by
  refine ⟨⟨_, rfl, rfl, ?_, rfl⟩, _, _, rfl, rfl⟩
  obtain h | h : d.active = 0 ∨ d.active = 1 := by omega
  all_goals simp [h, b2n]

/-- FW_ACTIVATE_QUIESCED, up to the response: the staged image runs (R484, R485). -/
def exchanged (s : State) (f : Staged) : State :=
  let b := runImage s.boot f.image
  let slot := match b.dir with | some d => d.active | none => b.ranSlot
  setStage (endSessions { s with boot := { b with fwPhase := .idle, staged := none, ranSlot := if f.persist then slot else b.ranSlot
                                                  fallbackSlot := !f.persist && b.fallbackSlot } }) .serving

theorem exec_fwActivateQuiesced {s : State} {f : Staged} (hl : Live s) (hp : s.boot.fwPhase = .quiesce)
    (hf : s.boot.staged = some f)
    (hq : quiesced s = true) : exec .fwActivateQuiesced s =
      .next (rearm (respond (exchanged s f) f.ctx .success (leBytes 2 f.ifMinor ++ zeroBytes 6 ++ f.digest))) := by
  refine (guarded_next _ hl).trans ?_
  rw [hp, hf]
  simp only [hq, Bool.not_true, Bool.false_eq_true, if_false, exchanged] <;> rfl

theorem exchanged_spec (s : State) (f : Staged) : let v := exchanged s f
    v.boot.stage = .serving ∧ v.boot.fwPhase = .idle ∧ v.boot.staged = none ∧ v.boot.curFw = fwDigest f.image ∧
      v.boot.svn = rd f.image 8 4 ∧ v.boot.keySlot = rd f.image 12 1 ∧ v.boot.revoked = s.boot.revoked ∧ v.boot.minSvn = s.boot.minSvn ∧
      v.parts = s.parts ∧ v.reqs = s.reqs ∧ v.clusters = s.clusters := by
  unfold exchanged
  extract_lets b slot v
  obtain ⟨h, hst⟩ := setStage_eq (endSessions { s with boot := { b with
    fwPhase := .idle, staged := none, ranSlot := if f.persist then slot else b.ranSlot, fallbackSlot := !f.persist && b.fallbackSlot } }) .serving
  obtain ⟨h1, h2, h3, -, -, -, h7, h8⟩ := runImage_fields s.boot f.image
  simp only [v, hst]
  exact ⟨trivial, rfl, rfl, h1, h2, h3, h7, h8, rfl, rfl, rfl⟩

/-- Settles O25: the checks passed, the flash's answer, and the exchange once no attempt runs. -/
theorem firmwareActivates : Obligations.FirmwareActivates := by
  unfold Obligations.FirmwareActivates
  refine ⟨fun s fn via cmd image im ha ho hz hk => ?_, fun s f d hl hp hf hd ha => ⟨⟨{ s with boot := persisted s.boot d f }, ?_, rfl, rfl,
    persisted_spec s.boot f ha⟩, ?_⟩, fun s f hl hp hf hq => ⟨⟨exchanged s f, exec_fwActivateQuiesced hl hp hf hq, exchanged_spec s f⟩, ?_⟩⟩
  · intro u hp hi hd hs hf hv
    have hx : exec (.fwActivate fn via image) s = .next (fwActivate u (ask s fn via cmd) image) :=
      exec_accepts rfl ha (by simp [isOp, ho]) rfl
    have hacc := fwActivate_accepted (u := u) (m := ask s fn via cmd) (image := image) (im := im) (by simpa using hz) (by simpa using hk) hp
      (by simpa using hi) (by simpa using hd) hs hf hv
    simp only [ask_cmd] at hacc
    exact ⟨fun h1 => ⟨_, _, by rw [hx, hacc.1 h1], rfl, rfl, rfl, rfl, rfl⟩, fun h0 => ⟨_, _, by rw [hx, hacc.2 h0], rfl, rfl, rfl, rfl⟩⟩
  · refine (guarded_next _ hl).trans ?_
    rw [hp, hf, hd]
    rfl
  · refine (guarded_next _ hl).trans ?_
    rw [hp, hf, hd]
    rfl
  · refine (guarded_next _ hl).trans (congrArg _ (if_pos ?_))
    simp [hp, hq]

/-! ### Recovery (R433, R435) -/

/-- Only the partitions differ. -/
def PartsOnly (s t : State) : Prop := t = { s with parts := t.parts }

theorem PartsOnly.trans {s t u : State} (h : PartsOnly s t) (g : PartsOnly t u) : PartsOnly s u := by
  unfold PartsOnly at *
  rw [g, h]

theorem foldl_partsOnly {α : Type} {f : State → α → State} (hf : ∀ t a, PartsOnly t (f t a)) (l : List α) (s : State) :
    PartsOnly s (l.foldl f s) := by
  induction l generalizing s with
  | nil => rfl
  | cons a l ih => exact (hf s a).trans (ih _)

theorem wake_partsOnly (s : State) (p t : Nat) : PartsOnly s (wake s p t) := by
  obtain ⟨ps, h⟩ := wake_eq s p t
  rw [h]
  rfl

theorem rearm_partsOnly (s : State) : PartsOnly s (rearm s) := by
  refine foldl_partsOnly (fun t p => ?_) _ _
  split
  · exact wake_partsOnly _ _ _
  · rfl

theorem rearm_flt (s : State) : (rearm s).flt = s.flt := congrArg (·.flt) (rearm_partsOnly s)

theorem setPkg_flt (s : State) (p : PkgState) : (setPkg s p).flt = { s.flt with pkg := p } := by
  obtain ⟨h, hp⟩ := setPkg_eq s p
  rw [hp]

/-- Service resumes, up to RECOVER's response: the first-doubt record cleared, the pins released and DMA allowed (R435). -/
def resumed (s : State) : State :=
  setPkg (leaveHold { s with flt := { s.flt with
    faultN := false, quietN := false, dma := true, recStep := .idle, recCtx := none, firstDtc := 0, firstSource := 0, firstLevel := 0
    firstPart := 0, firstUnit := 0, doubtCount := 0 } }) .serving

theorem resumeServing_eq (s : State) : resumeServing s =
    rearm (match s.flt.recCtx with | some c => respond (resumed s) c .success [] | none => resumed s) := rfl

theorem resumed_flt (s : State) : (resumed s).flt = { s.flt with
    pkg := .serving, faultN := false, quietN := false, dma := true, recStep := .idle, recCtx := none, firstDtc := 0, firstSource := 0
    firstLevel := 0, firstPart := 0, firstUnit := 0, doubtCount := 0 } := by
  rw [resumed, setPkg_flt, (leaveHold_linkOnly _).answerOnly.flt]

theorem resumeServing_flt (s : State) : (resumeServing s).flt = (resumed s).flt := by
  rw [resumeServing_eq, rearm_flt]
  split
  · exact (respond_answerOnly _ _ _ _).flt
  · rfl

/-- Tests that pass, where the close balances (R433, R435). -/
theorem exec_recoveryTestDone_none {s v : State} (hp : s.flt.pkg = .recovering) (hr : s.flt.recStep = .test)
    (hv : closeLedger (idleQuantities { s with clusters := [] }) (List.range 8) = v) (hb : v.flt.pkg = .recovering) :
    exec (.recoveryTestDone none) s = .next (resumeServing v) := by
  change execRecoveryTestDone none s = _
  rw [execRecoveryTestDone, guarded_live _ (by simp [Live, hp]), if_neg (by simp [hp, hr]), if_neg (by simp)]
  simp only [hv]
  rw [if_neg (by simp [hb])]

/-- Settles O26: the RECOVER message by the state it meets, verification, and the tests by their outcome. -/
theorem recoveryReturnsToServing : Obligations.RecoveryReturnsToServing := by
  unfold Obligations.RecoveryReturnsToServing
  refine ⟨fun s fn cmd ha ho hz => ?_, fun s hp => ?_⟩
  · intro u c
    have hx : exec (.recover fn .mailbox) s = .next (if u.flt.pkg != .quarantined || Via.mailbox != .mailbox then refuse u c .wrongState
        else setPkg { u with flt := { u.flt with recCtx := some c, recStep := if u.flt.trip then .cause else .verify } } .recovering) :=
      exec_accepts rfl ha (by simp [isOp, ho]) (if_neg (by simp [hz]))
    exact ⟨fun hq => hx.trans (congrArg _ (if_neg (by simp [hq]))), fun hq => hx.trans (congrArg _ (if_pos (by simp [hq])))⟩
  · have hl : Live s := by simp [Live, hp]
    refine ⟨fun hr bad => ?_, fun hr => ⟨fun n => ?_, ?_⟩⟩
    · exact (guarded_next _ hl).trans (congrArg _ (if_neg (by simp [hp, hr])))
    · exact (guarded_next _ hl).trans (congrArg _ ((if_neg (by simp [hp, hr])).trans (if_pos rfl)))
    · intro v hv
      have hx := exec_recoveryTestDone_none hp hr (v := v) rfl hv
      clear_value v
      have hf := (resumeServing_flt v).trans (resumed_flt v)
      refine ⟨_, hx, ?_, ?_, ?_, ?_, ?_, ?_, ?_, fun c hc => ⟨resumed v, ?_, ?_⟩⟩
      case refine_9 => rw [resumeServing_eq, hc]
      case refine_8 => rw [resumed_flt]
      all_goals rw [hf]

end Sys2Proof.Machine
end

section
/-! SUPPORT. A partition's reset: what each part of the wipe leaves of its requests, its load and its adapters (R481, R497). -/

namespace Sys2Proof.Machine

/-! ### What a partition's reset discards (R481) -/

theorem foldl_keeps {α : Type} {R : State → State → Prop} (hr : ∀ s, R s s) (ht : ∀ {s t u}, R s t → R t u → R s u)
    {f : State → α → State} (hf : ∀ t a, R t (f t a)) (l : List α) (s : State) : R s (l.foldl f s) := by
  induction l generalizing s with
  | nil => exact hr s
  | cons a l ih => exact ht (hf s a) (ih _)

/-- Only the frame pool and what follows its frames differ: of the partitions, the runs handed to Sinter. -/
def PoolOnly (s t : State) : Prop :=
  t = { s with frames := t.frames, gov := t.gov, host := t.host, adapters := t.adapters, ports := t.ports, parts := t.parts } ∧
    ∃ g : Part → Part, t.parts = s.parts.map g ∧ ∀ x, ∃ h, g x = { x with handed := h }

theorem poolOnly_of_parts {s t : State} (hp : t.parts = s.parts)
    (h : t = { s with frames := t.frames, gov := t.gov, host := t.host, adapters := t.adapters, ports := t.ports }) : PoolOnly s t :=
  ⟨by rw [h], id, by simp [hp], fun x => ⟨x.handed, rfl⟩⟩

theorem poolOnly_refl (s : State) : PoolOnly s s := poolOnly_of_parts rfl rfl

theorem PoolOnly.trans {s t u : State} (h : PoolOnly s t) (k : PoolOnly t u) : PoolOnly s u := by
  obtain ⟨h, f, hf, hfx⟩ := h
  obtain ⟨k, g, hg, hgx⟩ := k
  refine ⟨by rw [k, h], g ∘ f, by rw [hg, hf, List.map_map], fun x => ?_⟩
  obtain ⟨a, ha⟩ := hfx x
  obtain ⟨b, hb⟩ := hgx (f x)
  exact ⟨b, by rw [Function.comp_apply, hb, ha]⟩

theorem foldl_poolOnly {α : Type} {f : State → α → State} (hf : ∀ t a, PoolOnly t (f t a)) (l : List α) (s : State) :
    PoolOnly s (l.foldl f s) := foldl_keeps poolOnly_refl PoolOnly.trans hf l s

theorem AnswerOnly.poolOnly {s t : State} (h : AnswerOnly s t) : PoolOnly s t := by
  unfold AnswerOnly at h
  exact poolOnly_of_parts (by rw [h]) (by rw [h])

theorem PoolOnly.reqs {s t : State} (h : PoolOnly s t) : t.reqs = s.reqs := congrArg (·.reqs) h.1
theorem PoolOnly.tenants {s t : State} (h : PoolOnly s t) : t.tenants = s.tenants := congrArg (·.tenants) h.1

theorem PoolOnly.partOf {s t : State} (h : PoolOnly s t) (p : Nat) : ∃ k, partOf t p = { partOf s p with handed := k } := by
  obtain ⟨-, g, hg, hx⟩ := h
  simp only [Machine.partOf, List.getD_eq_getElem?_getD, hg, List.getElem?_map]
  cases s.parts[p]? with
  | none => exact ⟨_, rfl⟩
  | some x => exact hx x

theorem freeFrame_poolOnly (s : State) (n : Nat) : PoolOnly s (freeFrame s n) := by
  unfold freeFrame
  split
  · exact poolOnly_refl s
  · split
    · exact poolOnly_refl s
    · split <;> exact poolOnly_of_parts rfl rfl

theorem runEnds_poolOnly (s : State) (h : Nat) : PoolOnly s (runEnds s h) := by
  unfold runEnds
  split <;> exact poolOnly_of_parts rfl rfl

theorem freeFrames_poolOnly (s : State) (ns : List Nat) : PoolOnly s (freeFrames s ns) :=
  PoolOnly.trans (t := { s with parts := s.parts.map fun p : Part => { p with handed := p.handed.filter fun r => !ns.contains r.frame } })
    ⟨rfl, _, rfl, fun _ => ⟨_, rfl⟩⟩ ((foldl_poolOnly freeFrame_poolOnly _ _).trans (foldl_poolOnly runEnds_poolOnly _ _))

theorem freeOwner_poolOnly (s : State) (p : Nat) (o : Owner) : PoolOnly s (freeOwner s p o) := freeFrames_poolOnly _ _

theorem winUse_poolOnly (s : State) (d : Nat) (k : Int) : PoolOnly s (winUse s d k) := by
  unfold winUse
  split <;> exact poolOnly_of_parts rfl rfl

theorem settleRetiring_poolOnly (s : State) (p : Nat) : PoolOnly s (settleRetiring s p) := poolOnly_of_parts rfl rfl

theorem updAdapter_poolOnly (s : State) (p i : Nat) (f : Adapter → Adapter) : PoolOnly s
    (updAdapter s p i f) := poolOnly_of_parts rfl rfl

theorem addPins_poolOnly (s : State) (q : Req) (k : Int) : PoolOnly s (addPins s q k) :=
  foldl_poolOnly (fun _ _ => updAdapter_poolOnly _ _ _ _) _ _

theorem dropReg_poolOnly (s : State) (r : PendReg) : PoolOnly s (dropReg s r) :=
  (winUse_poolOnly _ _ _).trans (freeOwner_poolOnly _ _ _)

theorem dropFetch_poolOnly (s : State) (a : Adapter) : PoolOnly s (dropFetch s a) :=
  ((freeFrames_poolOnly _ _).trans (winUse_poolOnly _ _ _)).trans (poolOnly_of_parts rfl rfl)

theorem clearPool_poolOnly (s : State) (p : Nat) : PoolOnly s (clearPool s p) :=
  (foldl_poolOnly (fun _ _ => freeFrames_poolOnly _ _) _ _).trans
    ((poolOnly_of_parts rfl rfl).trans (settleRetiring_poolOnly _ _))

theorem clearPool_absent (s : State) (p : Nat) : ∀ a ∈ (clearPool s p).adapters, a.part = p → a.st = .absent := by
  intro a ha hp
  simp only [clearPool, settleRetiring, List.mem_map, List.mem_filter] at ha
  obtain ⟨b, ⟨⟨c, -, rfl⟩, -⟩, rfl⟩ := ha
  by_cases hc : c.part = p
  · simp [hc]
  · simp [hc] at hp

/-- The requests of a later state stem from those of an earlier one. -/
def ReqsStem (s t : State) : Prop := ∀ q ∈ t.reqs, ∃ r ∈ s.reqs, r.h = q.h ∧ r.part = q.part

theorem reqsStem_of_eq {s t : State} (h : t.reqs = s.reqs) : ReqsStem s t := fun q hq => ⟨q, h ▸ hq, rfl, rfl⟩
theorem reqsStem_refl (s : State) : ReqsStem s s := reqsStem_of_eq rfl

theorem ReqsStem.trans {s t u : State} (h : ReqsStem s t) (g : ReqsStem t u) : ReqsStem s u := fun q hq => by
  obtain ⟨r, hr, hh, hp⟩ := g q hq
  obtain ⟨x, hx, hh', hp'⟩ := h r hr
  exact ⟨x, hx, hh'.trans hh, hp'.trans hp⟩

theorem PoolOnly.stem {s t : State} (h : PoolOnly s t) : ReqsStem s t := reqsStem_of_eq h.reqs
theorem AnswerOnly.stem {s t : State} (h : AnswerOnly s t) : ReqsStem s t := reqsStem_of_eq h.reqs

theorem foldl_stem {α : Type} {f : State → α → State} (hf : ∀ t a, ReqsStem t (f t a)) (l : List α) (s : State) :
    ReqsStem s (l.foldl f s) := foldl_keeps reqsStem_refl ReqsStem.trans hf l s

theorem updReq_stem (s : State) (h : Nat) {f : Req → Req} (hf : ∀ x, (f x).h = x.h ∧ (f x).part = x.part) :
    ReqsStem s (updReq s h f) := fun q hq => by
  obtain ⟨x, hx, rfl⟩ := List.mem_map.1 hq
  refine ⟨x, hx, ?_⟩
  split
  · exact ⟨(hf x).1.symm, (hf x).2.symm⟩
  · exact ⟨rfl, rfl⟩

theorem stopWant_stem (s : State) (h : Nat) : ReqsStem s (stopWant s h) := by
  unfold stopWant
  split
  · exact reqsStem_refl s
  · have hu : ReqsStem s (updReq s h fun x => { x with want := none, wantCtx := none }) := updReq_stem _ _ fun _ => ⟨rfl, rfl⟩
    dsimp only
    split
    · exact hu.trans (refuse_answerOnly _ _ _).stem
    · exact hu

theorem endSilent_stem (s : State) (h : Nat) : ReqsStem s (endSilent s h) := by
  unfold endSilent
  split
  · exact reqsStem_refl s
  · split
    · exact reqsStem_refl s
    · refine ReqsStem.trans ?_ (stopWant_stem _ _)
      exact updReq_stem _ _ fun _ => ⟨rfl, rfl⟩

theorem endReplay_stem (s : State) (h st : Nat) : ReqsStem s (endReplay s h st) := by
  unfold endReplay
  split
  · exact reqsStem_refl s
  · split
    · exact reqsStem_refl s
    · exact updReq_stem _ _ fun _ => ⟨rfl, rfl⟩

theorem stopExports_stem (s : State) (h : Nat) : ReqsStem s (stopExports s h) := by
  unfold stopExports
  split
  · exact reqsStem_refl s
  · refine ReqsStem.trans ?_ (foldl_stem (fun _ _ => (refuse_answerOnly _ _ _).stem) _ _)
    exact updReq_stem _ _ fun _ => ⟨rfl, rfl⟩

theorem dropCond_stem (s : State) (h : Nat) : ReqsStem s (dropCond s h) := by
  unfold dropCond
  split
  · exact reqsStem_refl s
  · split
    · exact reqsStem_refl s
    · exact (freeFrames_poolOnly _ _).stem.trans (updReq_stem _ _ fun _ => ⟨rfl, rfl⟩)

theorem dropKv_stem (s : State) (h : Nat) : ReqsStem s (dropKv s h) := by
  unfold dropKv
  split
  · exact reqsStem_refl s
  · exact (freeFrames_poolOnly _ _).stem.trans (updReq_stem _ _ fun _ => ⟨rfl, rfl⟩)

theorem dropPins_stem (s : State) (h : Nat) : ReqsStem s (dropPins s h) := by
  unfold dropPins
  split
  · exact reqsStem_refl s
  · split
    · exact reqsStem_refl s
    · refine ReqsStem.trans ?_ ((addPins_poolOnly _ _ _).trans (settleRetiring_poolOnly _ _)).stem
      exact updReq_stem _ _ fun _ => ⟨rfl, rfl⟩

theorem reapModels_stem (s : State) (p : Nat) : ReqsStem s (reapModels s p) := by
  refine foldl_stem (fun t i => ?_) _ _
  split
  · split
    · exact reqsStem_of_eq (freeOwner_poolOnly _ _ _).reqs
    · exact reqsStem_refl t
  · exact reqsStem_refl t

theorem releaseReq_stem (s : State) (h : Nat) : ReqsStem s (releaseReq s h) ∧ ∀ q ∈ (releaseReq s h).reqs, q.h ≠ h := by
  unfold releaseReq
  split
  · next hn => exact ⟨reqsStem_refl s, fun q hq hh => List.find?_eq_none.1 hn q hq (by simp [hh])⟩
  · next q hq =>
    let t := dropCond (dropKv (dropPins s h) h) h
    have ht : ReqsStem s t := ((dropPins_stem s h).trans (dropKv_stem _ h)).trans (dropCond_stem _ h)
    have hr : ReqsStem { t with reqs := t.reqs.filter (fun x : Req => x.h != h) }
        (reapModels (settleRetiring { t with reqs := t.reqs.filter (fun x : Req => x.h != h) } q.part) q.part) :=
      (settleRetiring_poolOnly _ _).stem.trans (reapModels_stem _ _)
    refine ⟨ht.trans (ReqsStem.trans (fun y hy => ⟨y, List.mem_of_mem_filter hy, rfl, rfl⟩) hr), fun y hy hh => ?_⟩
    obtain ⟨x, hx, hxh, -⟩ := hr y hy
    simpa [hxh, hh] using (List.mem_filter.1 hx).2

theorem wipeReq_stem (s : State) (q : Req) : ReqsStem s (wipeReq s q) ∧ ∀ x ∈ (wipeReq s q).reqs, x.h ≠ q.h := by
  obtain ⟨hr, hne⟩ := releaseReq_stem (if q.replay.isSome then endReplay (stopExports s q.h) q.h 4 else endSilent (stopExports s q.h) q.h) q.h
  refine ⟨((stopExports_stem s q.h).trans ?_).trans hr, hne⟩
  split
  · exact endReplay_stem _ _ _
  · exact endSilent_stem _ _

theorem wipeReqs_stem (l : List Req) (s : State) :
    ReqsStem s (l.foldl wipeReq s) ∧ ∀ q ∈ l, ∀ x ∈ (l.foldl wipeReq s).reqs, x.h ≠ q.h := by
  induction l generalizing s with
  | nil => exact ⟨reqsStem_refl s, by simp⟩
  | cons a l ih =>
    obtain ⟨h1, h2⟩ := wipeReq_stem s a
    obtain ⟨h3, h4⟩ := ih (wipeReq s a)
    refine ⟨h1.trans h3, fun q hq x hx => ?_⟩
    obtain rfl | hq := List.mem_cons.1 hq
    · obtain ⟨y, hy, hh, -⟩ := h3 x hx
      exact hh ▸ h2 y hy
    · exact h4 q hq x hx

/-- Every request of the partition wiped, none of it is left. -/
theorem wipeReqs_none (s : State) (p : Nat) :
    ∀ x ∈ ((sortBy (·.h) (s.reqs.filter fun q => q.part == p)).foldl wipeReq s).reqs, x.part ≠ p := by
  intro x hx hp
  obtain ⟨hs, hn⟩ := wipeReqs_stem (sortBy (·.h) (s.reqs.filter fun q => q.part == p)) s
  obtain ⟨r, hr, hh, hrp⟩ := hs x hx
  exact hn r (mem_sortBy.2 (by simp [hr, hrp, hp])) x hx hh.symm

/-! ### The stop of a partition's load, and the wipe as a whole -/

theorem dropLoad_load (s : State) (p : Nat) (l : Load) : (partOf (dropLoad s p l) p).load = none := by
  unfold dropLoad
  extract_lets t u
  by_cases hp : p < u.parts.length
  · rw [partOf_updPart_same _ _ hp]
  · have : u.parts.length ≤ p := not_lt.1 hp
    simp [partOf, updPart, List.getD_eq_getElem?_getD, this, Part.reset]

theorem dropLoad_stem (s : State) (p : Nat) (l : Load) : ReqsStem s (dropLoad s p l) := by
  refine reqsStem_of_eq (PoolOnly.reqs (t := freeOwner (if l.ready then s else winUse (winUse s l.wHome.1 (-1)) l.pHome.1 (-1)) p (.model l.into)) ?_)
  refine PoolOnly.trans ?_ (freeOwner_poolOnly _ _ _)
  split
  · exact poolOnly_refl s
  · exact (winUse_poolOnly _ _ _).trans (winUse_poolOnly _ _ _)

/-- Of stopping a partition, what follows the drop of its load. -/
def stopRest (p : Nat) (l : Option Load) (rs : List PendReg) (s : State) : State :=
  let s := rs.foldl dropReg { s with regs := s.regs.filter fun r => r.part != p }
  let s := ((l.map (·.ctx)).toList ++ rs.map (·.ctx)).foldl (fun t c => refuse t c .stopped) s
  (s.adapters.filter fun a => a.part == p && a.st == .fetching).foldl dropFetch s

theorem stopPart_eq (s : State) (p : Nat) : stopPart s p = stopRest p (partOf s p).load (s.regs.filter fun r => r.part == p)
    (match (partOf s p).load with | some l => dropLoad s p l | none => s) := by
  rfl

theorem stopRest_poolOnly (p : Nat) (l : Option Load) (rs : List PendReg) (s : State) :
    PoolOnly { s with regs := s.regs.filter fun r => r.part != p } (stopRest p l rs s) :=
  ((foldl_poolOnly dropReg_poolOnly _ _).trans (foldl_poolOnly (fun _ _ => (refuse_answerOnly _ _ _).poolOnly) _ _)).trans
    (foldl_poolOnly dropFetch_poolOnly _ _)

theorem stopPart_spec (s : State) (p : Nat) : ReqsStem s (stopPart s p) ∧ (partOf (stopPart s p) p).load = none := by
  rw [stopPart_eq]
  cases hl : (partOf s p).load with
  | none =>
    have hr := stopRest_poolOnly p none (s.regs.filter fun r => r.part == p) s
    obtain ⟨k, hk⟩ := hr.partOf p
    exact ⟨hr.stem, by rw [hk]; exact hl⟩
  | some l =>
    have hr := stopRest_poolOnly p (some l) (s.regs.filter fun r => r.part == p) (dropLoad s p l)
    obtain ⟨k, hk⟩ := hr.partOf p
    exact ⟨(dropLoad_stem s p l).trans hr.stem, by rw [hk]; exact dropLoad_load s p l⟩

/-- Of a wipe, what follows the stop of the partition: outcomes and replays forgotten, keys erased, the pool cleared. -/
def wipeEnd (p : Nat) (s : State) : State :=
  let s := ((match (partOf s p).disable with | some d => d.ctxs | none => [])).foldl (fun t c => refuse t c .stopped)
    (updPart s p fun x : Part => { x with disable := x.disable.map (fun d : Disable => { d with ctxs := [] }), outcomes := [], replayStats := [] })
  let s := { s with tenants := s.tenants.map fun t : Tenant => if t.part == p then { t with keys := [] } else t }
  clearPool s p

/-- No request is wiped but those the partition holds as the wipe of its requests begins. -/
theorem wipePart_eq (s : State) (p : Nat) :
    ∃ b, wipePart s p = wipeEnd p (stopPart ((sortBy (·.h) (b.reqs.filter fun q => q.part == p)).foldl wipeReq b) p) := ⟨_, rfl⟩

theorem wipeEnd_spec (p : Nat) (s : State) (hl : (partOf s p).load = none) : let t := wipeEnd p s
    t.reqs = s.reqs ∧ (∀ k ∈ t.tenants, k.part = p → k.keys = []) ∧ (∀ a ∈ t.adapters, a.part = p → a.st = .absent) ∧
      (partOf t p).load = none ∧ (partOf t p).outcomes = [] ∧ (partOf t p).replayStats = [] := by
  unfold wipeEnd
  extract_lets b c t
  have hb : (partOf (updPart s p fun x : Part => { x with disable := x.disable.map (fun d : Disable => { d with ctxs := [] })
                                                          outcomes := [], replayStats := [] }) p).load = none ∧
      (partOf (updPart s p fun x : Part => { x with disable := x.disable.map (fun d : Disable => { d with ctxs := [] })
                                                    outcomes := [], replayStats := [] }) p).outcomes = [] ∧
      (partOf (updPart s p fun x : Part => { x with disable := x.disable.map (fun d : Disable => { d with ctxs := [] })
                                                    outcomes := [], replayStats := [] }) p).replayStats = [] := by
    by_cases hp : p < s.parts.length
    · rw [partOf_updPart_same _ _ hp]
      exact ⟨hl, rfl, rfl⟩
    · have : s.parts.length ≤ p := not_lt.1 hp
      simp [partOf, updPart, List.getD_eq_getElem?_getD, this, Part.reset]
  have hc : PoolOnly _ b := foldl_poolOnly (fun t c => (refuse_answerOnly t c .stopped).poolOnly) _ _
  have ht := clearPool_poolOnly c p
  obtain ⟨k, hk⟩ := hc.partOf p
  obtain ⟨k', hk'⟩ := ht.partOf p
  have hcb : partOf c p = partOf b p := rfl
  rw [hk', hcb, hk]
  refine ⟨ht.reqs.trans hc.reqs, fun x hx hxp => ?_, clearPool_absent c p, hb⟩
  rw [ht.tenants] at hx
  obtain ⟨y, -, rfl⟩ := List.mem_map.1 hx
  by_cases hy : y.part = p
  · simp [hy]
  · simp [hy] at hxp

/-- What a wipe leaves of its partition (R481). -/
theorem wipePart_spec (s : State) (p : Nat) : let t := wipePart s p
    (∀ k ∈ t.tenants, k.part = p → k.keys = []) ∧ (∀ q ∈ t.reqs, q.part ≠ p) ∧ (∀ a ∈ t.adapters, a.part = p → a.st = .absent) ∧
      (partOf t p).load = none ∧ (partOf t p).outcomes = [] ∧ (partOf t p).replayStats = [] := by
  obtain ⟨b, hb⟩ := wipePart_eq s p
  obtain ⟨hs, hl⟩ := stopPart_spec ((sortBy (·.h) (b.reqs.filter fun q => q.part == p)).foldl wipeReq b) p
  obtain ⟨hr, ht, ha, hp⟩ := wipeEnd_spec p _ hl
  intro t
  refine ⟨by rwa [← hb] at ht, fun q hq hqp => ?_, by rwa [← hb] at ha, by rwa [← hb] at hp⟩
  rw [show t.reqs = _ from congrArg (·.reqs) hb, hr] at hq
  obtain ⟨r, hr, -, hrp⟩ := hs q hq
  exact wipeReqs_none b p r hr (hrp.trans hqp)

/-! ### The register write that resets a partition (R497) -/

theorem execPartitionReset_begins {s : State} {value : Nat} (hk : value / 65536 % 65536 = 0xC1EA) (hd : (partOf s
    (value % 8)).st ≠ .disabled)
    (hr : (partOf s (value % 8)).resetting = false) (hu : s.flt.pkg ≠ .uncontained) :
    exec (.partitionReset value) s = .next (resetPart s (value % 8)) := by
  change Host.Outcome.next (partitionReset s value) = _
  simp [partitionReset, bits, hk, hd, hr, hu]

theorem startReset_begins {s : State} (p : Nat) (h : s.flt.pkg ≠ .entering) : startReset s p =
    wipePart (updPart s p fun y => { y with resetting := true, resetWait := false, freezeAt := none }) p := by
  have hn : (s.flt.pkg == .entering) = false := by simpa using h
  simp only [startReset, hn, Bool.false_eq_true, if_false]

/-- Settles O24: what ignores the write, the four ways it begins, and what the wipe leaves. -/
theorem partitionResetEndsItsRequests : Obligations.PartitionResetEndsItsRequests := by
  unfold Obligations.PartitionResetEndsItsRequests
  intro s value p
  refine ⟨fun h => ?_, fun hk hd hr hu => ?_⟩
  · change Host.Outcome.next (partitionReset s value) = _
    exact congrArg _ (if_pos (by simpa [bits, p, or_assoc] using h))
  · intro u
    have hb := execPartitionReset_begins hk hd hr hu
    refine ⟨fun he => ?_, fun he hs => ?_, fun he hs hl => ?_, fun he hs hl => ?_, wipePart_spec u p⟩
    · rw [hb]
      simp [resetPart, startReset, he, p]
    · rw [hb, resetPart]
      split
      · exact congrArg _ (startReset_begins p he)
      · next hsv =>
        have hs : spans s p = false := hs.resolve_left fun h => hsv (by simpa using h)
        rw [if_neg (by simp [p, ← hs]), leaderReset, if_neg (by simp [p, ← hs])]
        exact congrArg _ (startReset_begins p he)
    · let v := updPart (tell s p (partOf s p).items.groupSize .reset 1 (leBytes 8 s.boot.dtc)) p fun y =>
        { y with resetting := true, resetWait := false, freezeAt := none }
      have ht := tell_linkOnly s p (partOf s p).items.groupSize .reset 1 (leBytes 8 s.boot.dtc)
      refine ⟨v, ?_, ?_⟩
      · rw [hb, resetPart, if_neg (by simp [he]), if_neg (by simp [p, hl]), leaderReset, if_pos (by simpa [p] using hs)]
        exact congrArg _ (startReset_begins p (by rw [ht.answerOnly.flt, he]; simp))
      · simp only [v, u]
        rw [LinkOnly] at ht
        rw [ht]
        rfl
    · refine ⟨_, ?_, tell_linkOnly _ p (partOf s p).items.groupSize .reset 0 (zeroBytes 8)⟩
      rw [hb, resetPart, if_neg (by simp [he]), if_pos (by simp [p, hl, hs])]

end Sys2Proof.Machine
end

section
/-! SUPPORT. The multi-function pins and the JTAG port (R460 to R463, R510 to R514). -/

namespace Sys2Proof.Machine

/-! ### The pins (R510 to R512) -/

theorem pinOf_updPin_same {s : State} {n : Nat} (f : MfPin → MfPin) (h : n < s.pins.mf.length) : pinOf (updPin s n f) n = f
    (pinOf s n) :=
  modAt_getD_same _ _ _ h

/-- A switch that passes every check of Table MSG-5, by what the pin holds. -/
theorem pinmux_passes {u : State} {c : MsgCtx} {cmd : Bytes} {f : PinFn} (hz : bodyZero cmd [(8, 1), (9, 1), (12, 4)] = true)
    (hf : pinFnOf (rd cmd 9 1) = some f) (hp : rd cmd 8 1 < 16) (ht : pinTakes (rd cmd 8 1) f = true) (ha : pinArgOk (rd cmd 12 4) f = true) :
    pinmux u c cmd = if (pinOf u (rd cmd 8 1)).arming.isSome then refuse u c .busy
      else if (pinOf u (rd cmd 8 1)).fn == f then
        respond (if f == .gpioOut then updPin u (rd cmd 8 1) fun x => { x with arg := rd cmd 12 4 } else u) c .success []
      else pinSwitch u (rd cmd 8 1) f (rd cmd 12 4) c := by
  simp [pinmux, hz, hf, hp, ht, ha]

theorem armTicks_eq (f : PinFn) : armTicks f = if f = .uart2Rx ∨ f = .syncInAlt then 100 else 0 := by cases f <;> rfl

/-- A pin that floats drives nothing (R511). -/
theorem pinDrive_gpioIn {s : State} {n : Nat} (h : (pinOf s n).fn = .gpioIn) : pinDrive s n = none := by
  simp [pinDrive, h]

theorem pinSwitch_spec (u : State) (pin : Nat) (f : PinFn) (arg : Nat) (c : MsgCtx) : let t := pinSwitch u pin f arg c
    t = { u with pins := { u.pins with mf := t.pins.mf, filter := t.pins.filter } } ∧
      t.pins.mf = (updPin u pin fun _ => { fn := .gpioIn, arg := 0, arming := some (f, arg, c)
                                           armAt := u.boot.dtc + 1 + (if f = .uart2Rx ∨ f = .syncInAlt then 100 else 0) }).pins.mf ∧
      (pin < u.pins.mf.length → pinDrive t pin = none) ∧
      t.pins.filter = (if (pinOf u pin).fn = .syncInAlt then .unarmed else u.pins.filter) := by
  rw [pinSwitch, armTicks_eq]
  by_cases h : (pinOf u pin).fn = .syncInAlt
  · simp only [h, beq_self_eq_true, if_true]
    exact ⟨rfl, rfl, fun hp => pinDrive_gpioIn (congrArg (·.fn) (pinOf_updPin_same (s := u) (fun _ => _) hp)), rfl⟩
  · simp only [h, beq_iff_eq, if_false]
    exact ⟨rfl, trivial, fun hp => pinDrive_gpioIn (congrArg (·.fn) (pinOf_updPin_same (s := u) (fun _ => _) hp)), rfl⟩

/-- The pin that has armed, up to the response: the new function holds it (R511). -/
def pinTaken (s : State) (n : Nat) (g : PinFn) (a : Nat) : State :=
  let t := updPin s n fun _ => { fn := g, arg := a, arming := none, armAt := s.boot.dtc }
  if g == .syncInAlt then filterReset t else t

theorem pinArmed_eq {w : State} {n : Nat} {g : PinFn} {a : Nat} {k : MsgCtx} (h : (pinOf w n).arming = some (g, a, k))
    (ht : (pinOf w n).armAt ≤ w.boot.dtc) : pinArmed w n = respond (pinTaken w n g a) k .success [] := by
  rw [pinArmed]
  simp only [h, not_lt.2 ht, if_false]
  rfl

theorem pinTaken_spec (w : State) (n : Nat) (g : PinFn) (a : Nat) : let v := pinTaken w n g a
    v = { w with pins := { w.pins with mf := v.pins.mf, filter := v.pins.filter } } ∧
      v.pins.mf = (updPin w n fun _ => { fn := g, arg := a, arming := none, armAt := w.boot.dtc }).pins.mf ∧
      v.pins.filter = (if g = .syncInAlt then .unarmed else w.pins.filter) := by
  by_cases h : g = .syncInAlt
  · simp only [pinTaken, h, beq_self_eq_true, if_true]
    exact ⟨rfl, rfl, rfl⟩
  · simp only [pinTaken, h, beq_iff_eq, if_false]
    exact ⟨rfl, trivial, rfl⟩

/-- What a pin drives once its function holds it (R512). -/
theorem pinDrive_pinTaken {w : State} {n : Nat} (g : PinFn) (a : Nat) (hn : n < w.pins.mf.length) : let v := pinTaken w n g a
    (g = .gpioOut → pinDrive v n = some (decide (a % 2 = 1))) ∧ (g = .uart2Tx → pinDrive v n = some true) ∧
      (g = .thermTripOut → pinDrive v n = some w.flt.trip) ∧ (g = .syncOutAlt → pinDrive v n = some false) ∧
      (g ∈ [PinFn.gpioIn, .uart2Rx, .fanTach, .syncInAlt] → pinDrive v n = none) := by
  intro v
  obtain ⟨hv, hm, -⟩ := pinTaken_spec w n g a
  have hp : pinOf v n = { fn := g, arg := a, arming := none, armAt := w.boot.dtc } := by
    rw [pinOf, hm]
    exact pinOf_updPin_same (fun _ => _) hn
  have hb : v.boot = w.boot := congrArg (·.boot) hv
  have hf : v.flt = w.flt := congrArg (·.flt) hv
  refine ⟨?_, ?_, ?_, ?_, ?_⟩
  · rintro rfl
    simp [pinDrive, hp, bit, Bool.beq_eq_decide_eq]
  · rintro rfl
    simp [pinDrive, hp]
  · rintro rfl
    simp [pinDrive, hp, hf]
  · rintro rfl
    simp [pinDrive, hp, hb]
  · intro hg
    simp only [List.mem_cons, List.not_mem_nil, or_false] at hg
    obtain rfl | rfl | rfl | rfl := hg <;> simp [pinDrive, hp]

/-- Settles O27: the message by what the pin holds, and the end of the arming. -/
theorem pinmuxFloatsThenArms : Obligations.PinmuxFloatsThenArms := by
  unfold Obligations.PinmuxFloatsThenArms
  refine ⟨fun s fn via cmd f ha ho hz hf hp ht hg => ?_, fun w n g a k hn hl hg ht => ?_⟩
  · intro u c pin arg
    have hx : exec (.pinmuxSet fn via) s = .next (pinmux u c cmd) := exec_accepts rfl ha (by simp [isOp, ho]) (by simp [u, c, ask_ctx])
    rw [hx, pinmux_passes hz hf hp ht hg]
    refine ⟨fun h => ?_, fun h hfn => ?_, fun h hfn => ?_⟩
    · rw [if_pos (Option.isSome_iff_ne_none.2 h)]
      rfl
    · simp [pin, arg, h, hfn]
    · rw [if_neg (by simp [pin, h]), if_neg (by simpa [pin] using hfn)]
      exact ⟨_, rfl, pinSwitch_spec u pin f arg c⟩
  · obtain ⟨h1, h2, h3⟩ := pinTaken_spec w n g a
    exact ⟨pinTaken w n g a, (inRange_guarded _ hn hl).trans (congrArg _ (pinArmed_eq hg ht)), h1, h2, h3, pinDrive_pinTaken g a⟩

/-! ### JTAG (R460 to R463, R514) -/

/-- Settles O34: what each lock state reaches, the unlock, and boundary scan. -/
theorem jtagDebugAndBoundaryScan : Obligations.JtagDebugAndBoundaryScan := by
  unfold Obligations.JtagDebugAndBoundaryScan
  refine fun s => ⟨⟨rfl, rfl, rfl, ?_, ?_, ?_, ?_, ?_⟩, fun hl pub resp => ?_, fun ls => ?_⟩
  · intro r hr
    simp only [List.mem_cons, List.not_mem_nil, or_false] at hr
    obtain rfl | rfl | rfl := hr <;> rfl
  · intro r hr
    simp only [List.mem_cons, List.not_mem_nil, or_false] at hr
    obtain rfl | rfl := hr <;> simp [jtagReaches]
  · simp [jtagReaches]
  · simp [uartInput]
  · simp [uartSends]
  · intro v good
    have hx : exec (.jtagDebugUnlock pub resp) s = .next (if good then enterDebug v else v) := by
      refine (guarded_next _ hl).trans (congrArg _ (if_congr ?_ rfl rfl))
      simp [good, and_assoc]
    refine ⟨fun hg => ⟨enterDebug v, hx.trans (congrArg _ (if_pos hg)), rfl, ?_, ?_, ?_, rfl⟩, fun hg => hx.trans (congrArg _ (if_neg hg))⟩
    all_goals simp [enterDebug, endSessions]
  · refine congrArg Host.Outcome.next (if_congr ?_ rfl rfl)
    simp [jtagReaches, or_comm]

end Sys2Proof.Machine
end

section
/-! SUPPORT. The Power Governor: permits revoked, requests admitted and granted, and the core voltage (R413, R417, R517, R518). -/

namespace Sys2Proof.Machine

/-! ### Permits revoked and asked for again (R413, R417, R518) -/

/-- Permits are taken back: what was asked for stays asked for, and what is asked for anew is what a permit taken back was for. -/
structure Yields (g h : Gov) : Prop where
  le : h.g ≤ g.g
  rest : h = { g with g := h.g, queue := h.queue, arrivals := h.arrivals, permits := h.permits }
  sub : ∀ p ∈ h.permits, p ∈ g.permits
  keeps : ∀ r ∈ g.queue ++ g.arrivals, ∃ x ∈ h.queue ++ h.arrivals, x.req = r.req ∧ x.cls = r.cls
  asked : ∀ x ∈ h.queue ++ h.arrivals, (∃ r ∈ g.queue ++ g.arrivals, x.du = r.du ∧ x.admitted ≤ r.admitted) ∨
    ∃ p ∈ g.permits, x.du = p.du ∧ x.admitted = 0

theorem yields_refl (g : Gov) : Yields g g :=
  ⟨le_refl _, rfl, fun _ h => h, fun r hr => ⟨r, hr, rfl, rfl⟩, fun x hx => .inl ⟨x, hx, rfl, le_refl _⟩⟩

theorem Yields.trans {g h k : Gov} (a : Yields g h) (b : Yields h k) : Yields g k where
  le := b.le.trans a.le
  rest := by rw [b.rest, a.rest]
  sub p hp := a.sub p (b.sub p hp)
  keeps r hr := by
    obtain ⟨x, hx, h1, h2⟩ := a.keeps r hr
    obtain ⟨y, hy, h3, h4⟩ := b.keeps x hx
    exact ⟨y, hy, h3.trans h1, h4.trans h2⟩
  asked x hx := by
    obtain ⟨y, hy, h1, h2⟩ | ⟨p, hp, h⟩ := b.asked x hx
    · obtain ⟨z, hz, h3, h4⟩ | ⟨p, hp, h3, h4⟩ := a.asked y hy
      · exact .inl ⟨z, hz, h1.trans h3, h2.trans h4⟩
      · exact .inr ⟨p, hp, h1.trans h3, by omega⟩
    · exact .inr ⟨p, a.sub p hp, h⟩

/-- What is asked for stands among the requests, whether it stood there before or not. -/
theorem govAsk_spec (g : Gov) (req : Nat) (cls : PClass) (du now : Nat) : let h := govAsk g req cls du now
    (∃ x ∈ h.queue ++ h.arrivals, x.req = req ∧ x.cls = cls) ∧ (∀ x ∈ g.queue ++ g.arrivals, x ∈ h.queue ++ h.arrivals) ∧
      (∀ x ∈ h.queue ++ h.arrivals, x ∈ g.queue ++ g.arrivals ∨ x.du = du ∧ x.admitted = 0) ∧ h = { g with arrivals := h.arrivals } := by
  unfold govAsk
  split
  · next ha =>
    obtain ⟨x, hx, hk⟩ := List.any_eq_true.1 ha
    exact ⟨⟨x, hx, by simpa using hk⟩, fun _ h => h, fun _ h => .inl h, rfl⟩
  · refine ⟨⟨{ req := req, cls := cls, du := du, admitted := 0, at_ := now }, by simp, rfl, rfl⟩, fun x hx => ?_, fun x hx => ?_, rfl⟩
    · rw [← List.append_assoc]
      exact List.mem_append_left _ hx
    · rw [← List.append_assoc, List.mem_append, List.mem_singleton] at hx
      exact hx.imp_right fun h => by simp [h]

theorem revokeOne_spec (g : Gov) (now : Nat) (p : Permit) : let h := revokeOne g now p
    h.permits = g.permits.filter (· != p) ∧ (∀ x ∈ g.queue ++ g.arrivals, x ∈ h.queue ++ h.arrivals) ∧
      ∃ x ∈ h.queue ++ h.arrivals, x.req = p.req ∧ x.cls = p.cls := by
  obtain ⟨h1, h2, -, h4⟩ := govAsk_spec { g with g := g.g - p.du, permits := g.permits.filter (· != p) } p.req p.cls p.du now
  exact ⟨congrArg (·.permits) h4, h2, h1⟩

theorem revokeOne_yields (g : Gov) (now : Nat) {p : Permit} (hp : p ∈ g.permits) : Yields g (revokeOne g now p) := by
  obtain ⟨hperm, hkeep, -⟩ := revokeOne_spec g now p
  obtain ⟨-, -, h3, h4⟩ := govAsk_spec { g with g := g.g - p.du, permits := g.permits.filter (· != p) } p.req p.cls p.du now
  refine ⟨?_, ?_, fun x hx => ?_, fun r hr => ⟨r, hkeep r hr, rfl, rfl⟩, fun x hx => ?_⟩
  · rw [revokeOne, h4]
    exact Nat.sub_le _ _
  · rw [revokeOne, h4]
  · rw [hperm] at hx
    exact List.mem_of_mem_filter hx
  · obtain h | ⟨h, h'⟩ := h3 x hx
    · exact .inl ⟨x, h, rfl, le_refl _⟩
    · exact .inr ⟨p, hp, h, h'⟩

/-- Of the permit found so far and one more, the one to take back first (R413). -/
def worseOf (b : Option Permit) (p : Permit) : Option Permit :=
  if unrevoked p.cls then b
  else match b with
    | none => some p
    | some q =>
      if revokeRank p.cls < revokeRank q.cls ∨ (revokeRank p.cls = revokeRank q.cls ∧ (q.at_ < p.at_ ∨ (q.at_ = p.at_ ∧ q.req < p.req))) then
        some p
      else b

theorem worst_eq (ps : List Permit) : worst ps = ps.foldl worseOf none := rfl

theorem worseOf_eq {b : Option Permit} {p q : Permit} (h : worseOf b p = some q) : b = some q ∨ q = p := by
  unfold worseOf at h
  split at h
  · exact .inl h
  · split at h
    · exact .inr (Option.some.inj h).symm
    · split at h
      · exact .inr (Option.some.inj h).symm
      · exact .inl h

theorem worst_mem {ps : List Permit} {p : Permit} (h : worst ps = some p) : p ∈ ps := by
  have hk : ∀ (l : List Permit) (b : Option Permit) (q : Permit), l.foldl worseOf b = some q → b = some q ∨ q ∈ l := by
    intro l
    induction l with
    | nil => exact fun b q hq => .inl hq
    | cons a l ih =>
      intro b q hq
      obtain h | h := ih _ q hq
      · exact (worseOf_eq h).imp_right fun h => by simp [h]
      · exact .inr (List.mem_cons_of_mem _ h)
  exact (hk ps none p h).resolve_left (by simp)

theorem revokeTo_yields (b now n : Nat) (g : Gov) : Yields g (revokeTo b now n g) := by
  induction n generalizing g with
  | zero => exact yields_refl g
  | succ n ih =>
    unfold revokeTo
    split
    · exact yields_refl g
    · split
      · exact yields_refl g
      · next p hp => exact (revokeOne_yields g now (worst_mem hp)).trans (ih _)

theorem revoke_yields (g : Gov) (b now : Nat) : Yields g (revoke g b now) := by
  unfold revoke
  split
  · exact yields_refl g
  · refine Yields.trans ?_ (revokeTo_yields b now g.permits.length _)
    refine ⟨Nat.sub_le _ _, rfl, fun _ h => h, fun r hr => ?_, fun x hx => ?_⟩
    · obtain hr | hr := List.mem_append.1 hr
      · exact ⟨_, List.mem_append_left _ (List.mem_map_of_mem hr), rfl, rfl⟩
      · exact ⟨r, List.mem_append_right _ hr, rfl, rfl⟩
    · obtain hx | hx := List.mem_append.1 hx
      · obtain ⟨r, hr, rfl⟩ := List.mem_map.1 hx
        exact .inl ⟨r, List.mem_append_left _ hr, rfl, Nat.zero_le _⟩
      · exact .inl ⟨x, List.mem_append_right _ hx, rfl, le_refl _⟩

/-! ### Requests admitted and granted (R413) -/

/-- Admission takes G up by no more than it may, never past B_eff, and changes no request but those it may let in. -/
theorem admitReqs_spec (ok : PReq → Bool) (b f k : Nat) (q : List PReq) (g : Nat) (hg : g ≤ b) : let t := admitReqs ok b f k q g
    t.2 ≤ g + k ∧ t.2 ≤ b ∧ (∀ r ∈ q, ∃ x ∈ t.1, x.req = r.req ∧ x.cls = r.cls) ∧
      ∀ x ∈ t.1, x ∈ q ∨ ∃ r ∈ q, ok r = true ∧ x.req = r.req ∧ x.cls = r.cls := by
  have hstay : ∀ q : List PReq, (∀ r ∈ q, ∃ x ∈ q, x.req = r.req ∧ x.cls = r.cls) ∧
      ∀ x ∈ q, x ∈ q ∨ ∃ r ∈ q, ok r = true ∧ x.req = r.req ∧ x.cls = r.cls :=
    fun q => ⟨fun r hr => ⟨r, hr, rfl, rfl⟩, fun x hx => .inl hx⟩
  -- a request before the others, which keeps its place
  have hcons : ∀ (r y : PReq) (rs l : List PReq), y.req = r.req ∧ y.cls = r.cls → (y = r ∨ ok r = true) →
      ((∀ r ∈ rs, ∃ x ∈ l, x.req = r.req ∧ x.cls = r.cls) ∧
        ∀ x ∈ l, x ∈ rs ∨ ∃ r ∈ rs, ok r = true ∧ x.req = r.req ∧ x.cls = r.cls) →
      (∀ r' ∈ r :: rs, ∃ x ∈ y :: l, x.req = r'.req ∧ x.cls = r'.cls) ∧
        ∀ x ∈ y :: l, x ∈ r :: rs ∨ ∃ r' ∈ r :: rs, ok r' = true ∧ x.req = r'.req ∧ x.cls = r'.cls := by
    intro r y rs l hk hy ⟨h1, h2⟩
    refine ⟨fun r' hr' => ?_, fun x hx => ?_⟩
    · obtain rfl | hr' := List.mem_cons.1 hr'
      · exact ⟨y, List.mem_cons_self, hk⟩
      · obtain ⟨x, hx, h⟩ := h1 r' hr'
        exact ⟨x, List.mem_cons_of_mem _ hx, h⟩
    · obtain rfl | hx := List.mem_cons.1 hx
      · exact hy.imp (fun h => by simp [h]) fun h => ⟨r, List.mem_cons_self, h, hk⟩
      · exact (h2 x hx).imp (List.mem_cons_of_mem _) fun ⟨z, hz, h⟩ => ⟨z, List.mem_cons_of_mem _ hz, h⟩
  induction f generalizing k q g with
  | zero => exact ⟨Nat.le_add_right _ _, hg, hstay q⟩
  | succ f ih =>
    match k, q with
    | 0, q => exact ⟨Nat.le_refl _, hg, hstay q⟩
    | k + 1, [] => exact ⟨Nat.le_add_right _ _, hg, hstay []⟩
    | k + 1, r :: rs =>
      simp only [admitReqs]
      split
      · obtain ⟨h1, h2, h⟩ := ih (k + 1) rs g hg
        exact ⟨h1, h2, hcons r r rs _ ⟨rfl, rfl⟩ (.inl rfl) h⟩
      · next hok =>
        have hok : ok r = true := by simpa using hok
        split
        · exact ⟨Nat.le_add_right _ _, hg, hstay _⟩
        · next hb =>
          have ha : min (k + 1) (r.du - r.admitted) ≤ k + 1 ∧ min (k + 1) (r.du - r.admitted) ≤ r.du - r.admitted :=
            ⟨min_le_left _ _, min_le_right _ _⟩
          split
          · exact ⟨by simp only; omega, by simp only; omega, hcons r _ rs rs ⟨rfl, rfl⟩ (.inr hok) (hstay rs)⟩
          · obtain ⟨h1, h2, h⟩ := ih (k + 1 - min (k + 1) (r.du - r.admitted)) rs (g + min (k + 1) (r.du - r.admitted)) (by omega)
            exact ⟨by simp only; omega, h2, hcons r _ rs _ ⟨rfl, rfl⟩ (.inr hok) h⟩

/-- The releases taken in, permits revoked and the requests of the last tick queued: a governor tick before it admits (R413, R417). -/
def tickQueued (s : State) : Gov :=
  let b := bEff s
  enqueue (revoke { s.gov with g := s.gov.g - s.gov.releases, releases := 0, bEffLast := b
                               bEffAt := if b < s.gov.bEffLast then s.boot.dtc else s.gov.bEffAt } b s.boot.dtc)

theorem govTick_eq (s : State) : govTick s =
    if bEff s < (tickQueued s).g then tickQueued s
    else
      let a := admitReqs (admits s) (bEff s) (tickQueued s).queue.length 4 (tickQueued s).queue (tickQueued s).g
      grant { tickQueued s with queue := a.1, g := a.2 } s.boot.dtc := rfl

/-- What a tick has done before it admits: G is no higher, every request is in the queue, and each stems from a request or a permit. -/
theorem tickQueued_spec (s : State) : let h := tickQueued s
    h.g ≤ s.gov.g - s.gov.releases ∧ h.releases = 0 ∧ h.arrivals = [] ∧ h.limitW = s.gov.limitW ∧ h.on = s.gov.on ∧ h.rising = s.gov.rising ∧
      (∀ p ∈ h.permits, p ∈ s.gov.permits) ∧ (∀ r ∈ s.gov.queue ++ s.gov.arrivals, ∃ x ∈ h.queue, x.req = r.req ∧ x.cls = r.cls) ∧
      ∀ x ∈ h.queue, (∃ r ∈ s.gov.queue ++ s.gov.arrivals, x.du = r.du ∧ x.admitted ≤ r.admitted) ∨
        ∃ p ∈ s.gov.permits, x.du = p.du ∧ x.admitted = 0 := by
  intro h
  obtain ⟨hle, hrest, hsub, hkeep, hask⟩ := revoke_yields { s.gov with
    g := s.gov.g - s.gov.releases, releases := 0, bEffLast := bEff s
    bEffAt := if bEff s < s.gov.bEffLast then s.boot.dtc else s.gov.bEffAt } (bEff s) s.boot.dtc
  refine ⟨hle, congrArg (·.releases) hrest, rfl, congrArg (·.limitW) hrest, congrArg (·.on) hrest, congrArg (·.rising) hrest, hsub,
    fun r hr => ?_, fun x hx => ?_⟩
  · obtain ⟨x, hx, hk⟩ := hkeep r hr
    exact ⟨x, by simpa [h, tickQueued, enqueue, mem_sortBy] using hx, hk⟩
  · exact hask x (by simpa [h, tickQueued, enqueue, mem_sortBy] using hx)

/-- A request that a grant takes from the queue has its permit (R413). -/
theorem grant_covers (g : Gov) (now : Nat) {x : PReq} (hx : x ∈ g.queue) :
    x ∈ (grant g now).queue ∨ ∃ p ∈ (grant g now).permits, p.req = x.req ∧ p.cls = x.cls := by
  by_cases h : x.du ≤ x.admitted
  · refine .inr ⟨{ req := x.req, cls := x.cls, du := x.du, at_ := now, delivered := false }, ?_, rfl, rfl⟩
    exact List.mem_append_right _ (List.mem_map.2 ⟨x, by simp [hx, h], rfl⟩)
  · exact .inl (by simp [grant, hx, h])

/-- A permit that a grant adds is that of a request fully admitted. -/
theorem grant_adds (g : Gov) (now : Nat) {p : Permit} (hp : p ∈ (grant g now).permits) :
    p ∈ g.permits ∨ ∃ x ∈ g.queue, x.du ≤ x.admitted ∧ p.req = x.req ∧ p.cls = x.cls := by
  refine (List.mem_append.1 hp).imp_right fun h => ?_
  obtain ⟨x, hx, rfl⟩ := List.mem_map.1 h
  obtain ⟨hx, hd⟩ := List.mem_filter.1 hx
  exact ⟨x, hx, by simpa using hd, rfl, rfl⟩

/-- Settles O30: the tick up to admission, then the admission by whether G is below B_eff. -/
theorem governorRisesByFourPerTick : Obligations.GovernorRisesByFourPerTick := by
  unfold Obligations.GovernorRisesByFourPerTick
  intro s hl
  refine ⟨_, guarded_next _ hl, rfl, ?_⟩
  change (govTick s).releases = 0 ∧ (govTick s).g ≤ _ ∧ (_ < (govTick s).g → (govTick s).g ≤ _) ∧ (govTick s).limitW = _ ∧
    (govTick s).on = _ ∧ (govTick s).rising = _ ∧ (govTick s).arrivals = _ ∧
    ∀ r ∈ s.gov.arrivals, (∃ x ∈ (govTick s).queue, _) ∨ ∃ x ∈ (govTick s).permits, _
  obtain ⟨hle, hrel, harr, hlim, hon, hris, -, hkeep, -⟩ := tickQueued_spec s
  have hkeep : ∀ r ∈ s.gov.arrivals, ∃ x ∈ (tickQueued s).queue, x.req = r.req ∧ x.cls = r.cls :=
    fun r hr => hkeep r (List.mem_append_right _ hr)
  rw [govTick_eq]
  split
  · exact ⟨hrel, by omega, fun h => by omega, hlim, hon, hris, harr, fun r hr => .inl (hkeep r hr)⟩
  · next hb =>
    obtain ⟨h1, h2, h3, -⟩ := admitReqs_spec (admits s) (bEff s) (tickQueued s).queue.length 4 (tickQueued s).queue (tickQueued s).g (by omega)
    refine ⟨hrel, le_trans h1 (by omega), fun _ => h2, hlim, hon, hris, harr, fun r hr => ?_⟩
    obtain ⟨x, hx, hxr, hxc⟩ := hkeep r hr
    obtain ⟨y, hy, hyr, hyc⟩ := h3 x hx
    obtain h | ⟨p, hp, hpr, hpc⟩ := grant_covers { tickQueued s with
      queue := (admitReqs (admits s) (bEff s) (tickQueued s).queue.length 4 (tickQueued s).queue (tickQueued s).g).1
      g := (admitReqs (admits s) (bEff s) (tickQueued s).queue.length 4 (tickQueued s).queue (tickQueued s).g).2 } s.boot.dtc hy
    · exact .inl ⟨y, h, hyr.trans hxr, hyc.trans hxc⟩
    · exact .inr ⟨p, hp, hpr.trans (hyr.trans hxr), hpc.trans (hyc.trans hxc)⟩

/-! ### Core voltage (R517, R518) -/

/-- A list of permits revoked: they are gone, the others stay, and each is asked for again. -/
theorem revokes_spec (now : Nat) (l : List Permit) (g : Gov) : let h := l.foldl (fun g p => revokeOne g now p) g
    (∀ p, p ∈ h.permits ↔ p ∈ g.permits ∧ p ∉ l) ∧ (∀ x ∈ g.queue ++ g.arrivals, x ∈ h.queue ++ h.arrivals) ∧
      ∀ p ∈ l, ∃ r ∈ h.queue ++ h.arrivals, r.req = p.req ∧ r.cls = p.cls := by
  induction l generalizing g with
  | nil => simp
  | cons a l ih =>
    obtain ⟨h1, h2, h3⟩ := revokeOne_spec g now a
    obtain ⟨h4, h5, h6⟩ := ih (revokeOne g now a)
    refine ⟨fun p => ?_, fun x hx => h5 x (h2 x hx), fun p hp => ?_⟩
    · rw [List.foldl_cons, h4 p, h1, List.mem_filter, List.mem_cons, not_or, bne_iff_ne, and_assoc]
    · obtain rfl | hp := List.mem_cons.1 hp
      · obtain ⟨x, hx, hk⟩ := h3
        exact ⟨x, h5 x hx, hk⟩
      · exact h6 p hp

theorem ite_lt_eq_min (v a : Nat) : (if a < v then a else v) = min v a := by
  split <;> omega

theorem getElem?_zip_map {α β γ : Type} (f : α × β → γ) {a : List α} {b : List β} {i : Nat} {x : α} {y : β} (ha : a[i]? = some x)
    (hb : b[i]? = some y) : ((a.zip b).map f)[i]? = some (f (x, y)) := by
  rw [List.getElem?_map, List.getElem?_zip_eq_some (z := (x, y)) |>.2 ⟨ha, hb⟩, Option.map_some]

/-- While a die's HOLD reads 1 a governor tick grants its clusters nothing (R518). -/
theorem govTick_held {s : State} {die : Nat} (hd : s.pins.vHold[die]? = some true)
    (hq : ∀ r ∈ s.gov.queue ++ s.gov.arrivals, r.admitted < r.du) (hp : ∀ p ∈ s.gov.permits, 0 < p.du) :
    ∀ p ∈ (govTick s).permits, clusterReq p.cls = true → dieOfReq p.req = die → p ∈ s.gov.permits := by
  obtain ⟨-, -, -, -, -, -, hsub, -, hask⟩ := tickQueued_spec s
  intro p hpm hc hdie
  rw [govTick_eq] at hpm
  split at hpm
  · exact hsub p hpm
  · next hb =>
    obtain ⟨-, -, -, hmem⟩ :=
      admitReqs_spec (admits s) (bEff s) (tickQueued s).queue.length 4 (tickQueued s).queue (tickQueued s).g (by omega)
    obtain h | ⟨x, hx, hfull, hxr, hxc⟩ := grant_adds _ _ hpm
    · exact hsub p h
    · exfalso
      obtain hx | ⟨r, -, hok, hr, hrc⟩ := hmem x hx
      · obtain ⟨r, hr, h1, h2⟩ | ⟨q, hq', h1, h2⟩ := hask x hx
        · have := hq r hr
          omega
        · have := hp q hq'
          omega
      · rw [hxc, hrc] at hc
        rw [hxr, hr] at hdie
        simp [admits, hc, hdie, hd, List.getD_eq_getElem?_getD] at hok

/-- Settles O33: V_req computed, a die's HOLD, the tick that grants it nothing, and its release. -/
theorem coreVoltageRequests : Obligations.CoreVoltageRequests := by
  unfold Obligations.CoreVoltageRequests
  refine fun s hl => ⟨⟨_, guarded_next _ hl, rfl, fun d fuse old hf ho => ?_⟩, fun die hd => ⟨?_, fun hv hq hp => ?_, inRange_guarded _ hd hl⟩⟩
  · refine (getElem?_zip_map _ hf ho).trans (congrArg some (ite_lt_eq_min _ _))
  · obtain ⟨h1, -, h3⟩ := revokes_spec s.boot.dtc (s.gov.permits.filter fun p => clusterReq p.cls && dieOfReq p.req == die) s.gov
    refine ⟨_, inRange_guarded _ hd hl, rfl, fun p hp hk => ?_, fun p hp hk => (h1 p).2 ⟨hp, by simpa [hp] using hk⟩,
      fun p hp hc hdie => h3 p (by simp [hp, hc, hdie])⟩
    obtain ⟨hp, hn⟩ := (h1 p).1 hp
    exact hn (by simp [hp, hk])
  · exact ⟨_, guarded_next _ hl, govTick_held hv hq hp⟩

end Sys2Proof.Machine
end

section
/-! SUPPORT. Permits that reach their requester, and domains that have risen (R245, R406, R407, R413). -/

namespace Sys2Proof.Machine

/-! ### Permits that reach their requester (R245, R413) -/

/-- A permit that reaches its requester. -/
def arrived (p : Permit) : Permit := { p with delivered := true }

/-- One permit's arrival, an array permit joining the one its cluster holds (R412, R413). -/
def arrive (g : Gov) (p : Permit) : Gov :=
  let g := { g with permits := g.permits.map fun x : Permit => if x == p then { x with delivered := false } else x }
  let g := if clusterReq p.cls && p.cls != .amvu then mergeArray g (arrived p) else g
  { g with permits := g.permits.map fun x : Permit => if x == p then arrived p else x }

/-- The permits after a merge: of the others none is lost, of the same requester's only one that is held comes in. -/
theorem mergeArray_spec (g : Gov) {d : Permit} (hd : d.delivered = true) :
    mergeArray g d = { g with permits := (mergeArray g d).permits } ∧
      (∀ x ∈ g.permits, x.req ≠ d.req → x ∈ (mergeArray g d).permits) ∧
      ∀ x ∈ (mergeArray g d).permits, x ∈ g.permits ∨ x.req = d.req ∧ x.delivered = true := by
  unfold mergeArray
  extract_lets isArr
  split
  · exact ⟨rfl, fun x hx _ => hx, fun x hx => .inl hx⟩
  · refine ⟨rfl, fun x hx hr => List.mem_append_left _ (List.mem_filter.2 ⟨hx, by simp [isArr, hr]⟩), fun x hx => ?_⟩
    obtain hx | hx := List.mem_append.1 hx
    · exact .inl (List.mem_of_mem_filter hx)
    · rw [List.mem_singleton.1 hx]
      exact .inr ⟨rfl, hd⟩

/-- The same of one permit's arrival: none of its like is left on its way. -/
theorem arrive_spec (g : Gov) {p : Permit} (hp : p.delivered = false) :
    arrive g p = { g with permits := (arrive g p).permits } ∧ (∀ x ∈ g.permits, x.req ≠ p.req → x ∈ (arrive g p).permits) ∧
      ∀ x ∈ (arrive g p).permits, x ∈ g.permits ∧ x ≠ p ∨ x.req = p.req ∧ x.delivered = true := by
  have hid : { g with permits := g.permits.map fun x : Permit => if x == p then { x with delivered := false } else x } = g := by
    have : (g.permits.map fun x : Permit => if x == p then { x with delivered := false } else x) = g.permits := by
      refine List.map_id'' (fun x => ?_) _
      split
      · next h => rw [beq_iff_eq.1 h, ← hp]
      · rfl
    rw [this]
  -- the permits before the last mapping
  have hmap : ∀ h : Gov, h = { g with permits := h.permits } → (∀ x ∈ g.permits, x.req ≠ p.req → x ∈ h.permits) →
      (∀ x ∈ h.permits, x ∈ g.permits ∨ x.req = p.req ∧ x.delivered = true) →
      let k := { h with permits := h.permits.map fun x : Permit => if x == p then arrived p else x }
      k = { g with permits := k.permits } ∧ (∀ x ∈ g.permits, x.req ≠ p.req → x ∈ k.permits) ∧
        ∀ x ∈ k.permits, x ∈ g.permits ∧ x ≠ p ∨ x.req = p.req ∧ x.delivered = true := by
    intro h h1 h2 h3
    refine ⟨by rw [h1], fun x hx hr => List.mem_map.2 ⟨x, h2 x hx hr, if_neg fun h => hr (by rw [beq_iff_eq.1 h])⟩, fun x hx => ?_⟩
    obtain ⟨y, hy, rfl⟩ := List.mem_map.1 hx
    split
    · exact .inr ⟨rfl, rfl⟩
    · next hne => exact (h3 y hy).imp_left fun h => ⟨h, by simpa using hne⟩
  unfold arrive
  rw [hid]
  split
  · obtain ⟨h1, h2, h3⟩ := mergeArray_spec g (d := arrived p) rfl
    exact hmap _ h1 h2 h3
  · exact hmap g rfl (fun x hx _ => hx) fun x hx => .inl hx

theorem arrives_spec (req : Nat) (l : List Permit) (g : Gov) (hl : ∀ p ∈ l, p.req = req ∧ p.delivered = false)
    (hg : ∀ x ∈ g.permits, x.req = req → x.delivered = true ∨ x ∈ l) : let h := l.foldl arrive g
    h = { g with permits := h.permits } ∧ (∀ x ∈ g.permits, x.req ≠ req → x ∈ h.permits) ∧
      ∀ x ∈ h.permits, x.req = req → x.delivered = true := by
  induction l generalizing g with
  | nil => exact ⟨rfl, fun x hx _ => hx, fun x hx hr => (hg x hx hr).resolve_right (by simp)⟩
  | cons p l ih =>
    obtain ⟨hpr, hpd⟩ := hl p List.mem_cons_self
    obtain ⟨h1, h2, h3⟩ := arrive_spec g hpd
    obtain ⟨h4, h5, h6⟩ := ih (arrive g p) (fun q hq => hl q (List.mem_cons_of_mem _ hq)) fun x hx hr => by
      obtain ⟨hx, hne⟩ | ⟨-, hd⟩ := h3 x hx
      · exact (hg x hx hr).imp_right fun h => (List.mem_cons.1 h).resolve_left hne
      · exact .inl hd
    refine ⟨?_, fun x hx hr => h5 x (h2 x hx (by rwa [hpr])) hr, h6⟩
    rw [List.foldl_cons, h4, h1]

/-- The Governor once a requester's grants have reached it. -/
def granted (s : State) (req : Nat) : Gov := (s.gov.permits.filter fun p => p.req == req && !p.delivered).foldl arrive s.gov

theorem granted_spec (s : State) (req : Nat) : let h := granted s req
    h = { s.gov with permits := h.permits } ∧ (∀ x ∈ s.gov.permits, x.req ≠ req → x ∈ h.permits) ∧
      ∀ x ∈ h.permits, x.req = req → x.delivered = true := by
  refine arrives_spec req _ s.gov (fun p hp => by simpa using (List.mem_filter.1 hp).2) fun x hx hr => ?_
  by_cases h : x.delivered = true
  · exact .inl h
  · exact .inr (by simp [hx, hr, h])

theorem exec_permitGranted {s : State} {req : Nat} (hr : req < 639) (hl : Live s) : exec (.permitGranted req) s = .next (
    let g := granted s req
    let t := { s with gov := g }
    if 400 ≤ req ∧ req < 412 then
      let has := fun c => g.permits.any fun p => p.req == req && p.cls == c && p.delivered
      if has .standing && has .linkTrain then pumpState (updPort t (req - 400) fun p => { p with permit := true }) (req - 400) else t
    else if 392 ≤ req ∧ req < 400 ∧ sealWaits t (req - 392) = false then { t with gov := govDrop g req .sinter }
    else t) := inRange_guarded _ hr hl

theorem domainExists_of {s : State} {dom : Nat} (hd : dom < 227) (h : s.boot.part = .swl9400 ∨ dom < 144 ∨
    (192 ≤ dom ∧ dom < 195)) :
    domainExists s dom = true := by
  obtain h | h := h
  · simp [domainExists, hd, h]
  · simp only [domainExists, hd, decide_true, Bool.true_and, Bool.or_eq_true, Bool.not_eq_true', Bool.or_eq_false_iff, decide_eq_false_iff_not,
      beq_eq_false_iff_ne]
    exact .inr ⟨⟨⟨⟨by omega, by omega⟩, by omega⟩, by omega⟩, by omega⟩

/-- Settles O31: the grants by the requester's kind, and a domain that has risen. -/
theorem permitsReachTheirRequester : Obligations.PermitsReachTheirRequester := by
  unfold Obligations.PermitsReachTheirRequester
  refine ⟨fun s req hr hl => ?_, fun s dom p hd hl hris hp hpr hpc hpd hpart => ?_⟩
  · obtain ⟨h1, h2, h3⟩ := granted_spec s req
    have hx := exec_permitGranted hr hl
    dsimp only at hx
    refine ⟨granted s req, h3, h2, h1, fun h => ?_, fun hlo hhi => ?_, fun hlo hhi => ?_⟩
    · rw [hx, if_neg (by omega), if_neg (by omega)]
    · rw [hx, if_neg (by omega)]
      have hs : sealWaits { s with gov := granted s req } (req - 392) = sealWaits s (req - 392) := rfl
      cases hw : sealWaits s (req - 392) with
      | true => simp [hs, hw]
      | false => simp [hs, hw, hlo, hhi]
    · rw [hx, if_pos ⟨hlo, hhi⟩]
      refine congrArg _ (if_congr ?_ rfl rfl)
      have hany : ∀ c, ((granted s req).permits.any fun p => p.req == req && p.cls == c && p.delivered) = true ↔
          ∃ x ∈ (granted s req).permits, x.req = req ∧ x.cls = c := fun c => by
        simp only [List.any_eq_true, Bool.and_eq_true, beq_iff_eq, and_assoc]
        exact exists_congr fun x => and_congr_right fun hx => and_congr_right fun hr => and_iff_left (h3 x hx hr)
      rw [Bool.and_eq_true, hany, hany]
  · refine ⟨_, (inRange_guarded _ hd hl).trans (congrArg _ (if_neg ?_)), ?_⟩
    · have hany : (s.gov.permits.any fun p => p.req == 412 + dom && p.cls == .domainUp && p.delivered) = true :=
        List.any_eq_true.2 ⟨p, hp, by simp [hpr, hpc, hpd]⟩
      simp [hris, hany, domainExists_of hd hpart]
    · dsimp only
      split
      · exact ⟨rfl, rfl, rfl⟩
      · exact ⟨rfl, rfl, rfl⟩

end Sys2Proof.Machine
end

section
/-! SUPPORT. Partitions created, modified, drained and aborted (R267, R268, R278, R297 to R299). -/

namespace Sys2Proof.Machine

/-! ### Partitions created and modified (R267, R268, R278, R380) -/

theorem descBytes_exact {n : Nat} {d : Bytes} (h : d.length = n) : descBytes n (some d) = some d := by
  simp [descBytes, h, List.take_of_length_le]

theorem withDesc_some {addr n : Nat} {d : Bytes} {core : State → Taken → Bytes → State} {s : State} {m : Taken}
    (ha : addr % 64 = 0)
    (hd : d.length = n) : withDesc addr n (some d) false core s m = core s m d := by
  simp [withDesc, aligned64, ha, descBytes_exact hd]

theorem withDesc_none {addr n : Nat} {isF : Bool} {core : State → Taken → Bytes → State} {s : State} {m : Taken}
    (ha : addr % 64 = 0) :
    withDesc addr n none isF core s m = refuse s m.ctx .descFault := by
  simp [withDesc, aligned64, ha, descBytes]

/-- Another partition in the way of some items of partition p (R278, R282). -/
def InTheWay (s : State) (p : Nat) (it : Items) : Prop :=
  ∃ q y, s.parts[q]? = some y ∧ q ≠ p ∧ y.st ≠ .disabled ∧ (∃ g, g < 24 ∧ bit it.groups g = true ∧ bit y.items.groups g = true) ∧
    ¬ (it.time = true ∧ y.items.time = true ∧ (upcoming y).time = true ∧ it.groupSize = y.items.groupSize)

theorem overlapOk_iff (s : State) (p : Nat) (it : Items) : overlapOk s p it = true ↔ ¬ InTheWay s p it := by
  have hz : ∀ e : Part × Nat, e ∈ s.parts.zipIdx ↔ s.parts[e.2]? = some e.1 := fun e => by
    rw [show e = (e.1, e.2) from rfl, List.mem_zipIdx_iff_getElem?]
  simp only [overlapOk, InTheWay, List.all_eq_true, hz, Prod.forall, Bool.or_eq_true, beq_iff_eq, Bool.not_eq_true', List.any_eq_false,
    List.mem_range, Bool.and_eq_true, not_exists, not_and]
  refine ⟨fun h q y hy hq hst hg => ?_, fun h y q hy => ?_⟩
  · obtain ⟨g, hg, h1, h2⟩ := hg
    obtain ((h' | h') | h') | h' := h y q hy
    · exact absurd h' hq
    · exact absurd h' hst
    · exact absurd h2 (h' g hg h1)
    · exact fun hn => hn h'.1.1.1 h'.1.1.2 h'.1.2 h'.2
  · by_cases hw : q = p ∨ y.st = .disabled ∨ ∀ g < 24, bit it.groups g = true → ¬ bit y.items.groups g = true
    · exact .inl (by tauto)
    · simp only [not_or] at hw
      obtain ⟨h1, h2, h3⟩ := hw
      simp only [not_forall, not_not] at h3
      obtain ⟨g, hg, hb, hb'⟩ := h3
      have := h q y hy h1 h2 ⟨g, hg, hb, hb'⟩
      exact .inr (by tauto)

/-- PARTITION_CREATE with a descriptor, behind the checks on its fields. -/
theorem createPart_passes {s : State} {m : Taken} {d : Bytes} (hf : createFormed m.cmd d false = true) (hc : itemCodesOk d = true)
    (hi : itemsOk (nGroups s) (readItems d) = true) (hr : rolesOk (rolesOf d) = true) : createPart s m d =
      if 1 < (readItems d).groupSize ∧ (groupFormed s = false ∨ s.group.size < (readItems d).groupSize) then refuse s m.ctx .wrongState
      else if (partOf s m.ctx.part).st != .disabled then refuse s m.ctx .indexInUse
      else if !overlapOk s m.ctx.part (readItems d) then refuse s m.ctx .conflict
      else if !granulesOk s m.ctx.part (readItems d) || !storeFits s m.ctx.part (readItems d) 0 then refuse s m.ctx .noResource
      else if itemsDiffer s m.ctx.part (readItems d) then refuse s m.ctx .conflict
      else respond (domainsUp (updPart s m.ctx.part fun x => createdPart x (readItems d) (rolesOf d) s.boot.dtc) m.ctx.part) m.ctx .success [] := by
  rw [createPart]
  exact if_neg (by simp [hf, hc, hi, hr])

/-- The same with MODIFY, of an ACTIVE partition. -/
theorem modifyPart_passes {s : State} {m : Taken} {d : Bytes} {it : Items} (hf : createFormed m.cmd d true = true)
    (hc : itemCodesOk d = true)
    (ha : (partOf s m.ctx.part).st = .active) (hit : maskItems (upcoming (partOf s m.ctx.part)) d (rd m.cmd 20 4) = it)
    (hi : itemsOk (nGroups s) it = true) : modifyPart s m d =
      if !overlapOk s m.ctx.part it then refuse s m.ctx .conflict
      else if !programsFit it (partOf s m.ctx.part) || !storeFits s m.ctx.part it (workMax it (partOf s m.ctx.part)) then
        refuse s m.ctx .noResource
      else if itemsDiffer s m.ctx.part it then refuse s m.ctx .conflict
      else respond (updPart s m.ctx.part fun y => { y with pendItems := some it }) m.ctx .success [] := by
  have hn : ((partOf s m.ctx.part).st == .disabled) = false := by simp [ha]
  simp only [modifyPart, hn, Bool.false_eq_true, if_false, hit]
  rw [if_neg (by simp [hf, hc, hi]), if_neg (by simp [ha])]

/-- Settles O35: create and modify, each by the first check that fails. -/
theorem partitionsAreCreatedAndModified : Obligations.PartitionsAreCreatedAndModified := by
  unfold Obligations.PartitionsAreCreatedAndModified
  refine ⟨fun _ _ _ _ => rfl, fun s fn via cmd d ha ho h64 hd => ?_⟩
  intro u c p others
  have hway : ∀ it, others it ↔ InTheWay u p it := fun it => Iff.rfl
  refine ⟨fun h0 hf hc hi hr => ?_, fun h1 hf hc hst => ?_⟩
  · intro it
    have hrow : ∀ desc, exec (.partitionCreate fn via desc) s =
        .next (withDesc (rd cmd 8 8) 128 desc false createPart u (ask s fn via cmd)) := fun desc =>
      exec_accepts rfl ha (by simp [isOp, ho, h0, bit]) (by simp [u])
    have hsome := (hrow (some d)).trans (congrArg _ ((withDesc_some h64 hd).trans
      (createPart_passes (s := u) (m := ask s fn via cmd) (by simpa using hf) hc hi hr)))
    rw [ask_ctx, show (askCtx s fn via cmd).part = p from ask_ctx_part s fn via cmd] at hsome
    refine ⟨(hrow none).trans (congrArg _ (withDesc_none h64)), fun hg => ?_, fun hg => ⟨fun hst => ?_, fun hst hov => ?_,
        fun hst hov => ⟨fun hfit => ?_,
      fun hgr hfit hdf => ?_, fun hgr hfit hdf => ?_⟩⟩⟩
    · rw [hsome, if_pos hg]
      rfl
    all_goals
      have hng : ¬ (1 < (readItems d).groupSize ∧ (groupFormed u = false ∨ u.group.size < (readItems d).groupSize)) := by
        rintro ⟨h1, h2⟩
        obtain h | ⟨h, h'⟩ := hg
        · exact absurd h1 (by simp only [it] at h; omega)
        · obtain h2 | h2 := h2
          · simp [h] at h2
          · exact absurd h2 (not_lt.2 h')
      rw [hsome, if_neg hng]
    · rw [if_pos (by simpa using hst)]
      rfl
    all_goals rw [if_neg (by simp [hst])]
    · rw [if_pos (by simpa [← Bool.not_eq_true, overlapOk_iff] using (hway _).1 hov)]
      rfl
    all_goals rw [if_neg (by simpa [overlapOk_iff] using mt (hway _).2 hov)]
    · rw [if_pos (by simpa [it] using hfit)]
      rfl
    all_goals rw [if_neg (by simpa [it] using And.intro hgr hfit)]
    · rw [if_pos hdf]
      rfl
    · rw [if_neg (by simpa using hdf)]
  · intro it hi
    have hsome : exec (.partitionModify fn via (some d)) s = .next (modifyPart u (ask s fn via cmd) d) :=
      exec_accepts rfl ha (by simp [isOp, ho, h1, bit]) (by simp only [ask_cmd]; exact withDesc_some h64 hd)
    rw [modifyPart_passes (m := ask s fn via cmd) (it := it) (by simpa using hf) hc (by simpa using hst) (by simp [it, p]) hi,
      ask_ctx, show (askCtx s fn via cmd).part = p from ask_ctx_part s fn via cmd] at hsome
    rw [hsome]
    refine ⟨fun hov => ?_, fun hov hfit => ?_, fun hov hpr hfit hdf => ?_, fun hov hpr hfit hdf => ?_⟩
    · rw [if_pos (by simpa [← Bool.not_eq_true, overlapOk_iff] using (hway _).1 hov)]
      rfl
    all_goals rw [if_neg (by simpa [overlapOk_iff] using mt (hway _).2 hov)]
    · rw [if_pos (by simpa using hfit)]
      rfl
    all_goals rw [if_neg (by simp [hpr, hfit])]
    · rw [if_pos hdf]
      rfl
    · rw [if_neg (by simp [hdf])]

/-! ### Partitions disabled (R297 to R299) -/

/-- A partition emptied has nothing left of its own (R299). -/
theorem emptyPart_spec (s : State) (p : Nat) : let t := emptyPart s p
    (∀ q ∈ t.reqs, q.part ≠ p) ∧ (∀ x ∈ t.tenants, x.part ≠ p) ∧ ∀ a ∈ t.adapters, a.part ≠ p :=
  ⟨fun _ h => by simpa using (List.mem_filter.1 h).2, fun _ h => by simpa using (List.mem_filter.1 h).2,
    fun _ h => by simpa using (List.mem_filter.1 h).2⟩

theorem classF_here {core : State → Taken → State} {s : State} {m : Taken} (h : goesToLeader s m = false) :
    classF core s m = core s m := by
  rw [classF, if_neg (by simp [h])]

/-- Settles O36: DRAIN and ABORT by the partition's state, and a drain that runs out of time. -/
theorem partitionsDrainAndAbort : Obligations.PartitionsDrainAndAbort := by
  unfold Obligations.PartitionsDrainAndAbort
  refine ⟨fun s fn via cmd ha ho hg => ?_, fun s p d lim hp hl hd hlim hst ht ⟨q, hq, hqp, hqs⟩ => ?_⟩
  · intro u c p v
    refine ⟨fun h1 hz hlt => ?_, fun h2 hz => ?_⟩
    · have hx : exec (.partitionDisableDrain fn via) s = .next (drainMsg u (ask s fn via cmd)) :=
        exec_accepts rfl ha (by simp [isOp, ho, h1]) (classF_here hg)
      have hm : drainMsg u (ask s fn via cmd) = if (partOf u p).st == .disabled then refuse u c .wrongState
          else if (partOf u p).st != .active then refuse u c .busy else startDrain v p c.accept (rd cmd 16 8) [c] := by
        simp only [drainMsg, ask_cmd, ask_ctx, show (askCtx s fn via cmd).part = p from ask_ctx_part s fn via cmd]
        rw [if_neg (by simpa [hz, h1] using hlt)]
      rw [hx, hm]
      refine ⟨fun h => by simp [h, refuse, respond], fun h => ?_, fun h => by simp [h, startDrain]⟩
      rw [if_neg (by obtain h | h := h <;> simp [h]), if_pos (by obtain h | h := h <;> simp [h])]
      rfl
    · have hx : exec (.partitionDisableAbort fn via) s = .next (abortMsg u (ask s fn via cmd)) :=
        exec_accepts rfl ha (by simp [isOp2, ho, h2]) (classF_here hg)
      have hm : abortMsg u (ask s fn via cmd) = if (partOf u p).st == .disabled then refuse u c .wrongState
          else if (partOf u p).st == .aborting then refuse u c .busy else startAbort v p c.accept [c] := by
        simp only [abortMsg, ask_cmd, ask_ctx, show (askCtx s fn via cmd).part = p from ask_ctx_part s fn via cmd]
        rw [if_neg (by simp [hz])]
      rw [hx, hm]
      refine ⟨fun h => by simp [h, refuse, respond], fun h => by simp [h, refuse, respond],
          fun h => ⟨startAbort v p c.accept [c], ?_, rfl, emptyPart_spec _ p⟩⟩
      rw [if_neg (by obtain h | h := h <;> simp [h]), if_neg (by obtain h | h := h <;> simp [h])]
  · refine ⟨_, (partRow_next _ hp hl).trans ?_, rfl, emptyPart_spec _ p⟩
    simp only [hd, hlim]
    exact congrArg _ (if_pos (by simp [hst, ht]; exact ⟨q, hq, hqp, hqs⟩))

end Sys2Proof.Machine
end

section
/-! SUPPORT. Models loaded and unloaded (R274, R276, R381). -/

namespace Sys2Proof.Machine

/-! ### Models loaded and unloaded (R274, R276, R376, R381) -/

/-- A load goes into the slot it names, or else into the lowest empty SPARE slot (R274). -/
theorem loadInto_eq {x : Part} {slot i : Nat} (h : modelAt x slot = none ∧ i = slot ∨ modelAt x slot ≠ none ∧ i < 4 ∧ i ≠ slot ∧
    modelAt x i = none ∧ x.roles.getD i .spare = .spare ∧ ∀ j, j < i → j ≠ slot → modelAt x j ≠ none ∨ x.roles.getD j .spare ≠ .spare) :
    loadInto x slot = some i := by
  obtain ⟨h, rfl⟩ | ⟨h, hi, hne, hm, hr, hj⟩ := h
  · simp [loadInto, h]
  · rw [loadInto, if_neg (by simpa using h), List.find?_range_eq_some]
    refine ⟨by simp only [hm, hr]; simpa using hne, List.mem_range.2 hi, fun j hji => ?_⟩
    by_cases hjs : j = slot
    · simp [hjs]
    · obtain h | h := hj j hji hjs
      · simp [Option.isSome_iff_ne_none.2 h]
      · simp only [h, beq_iff_eq, Bool.and_eq_true, not_and, Bool.not_eq_true', Bool.and_eq_false_iff, beq_eq_false_iff_ne, ne_eq,
          not_false_iff, or_true]

@[simp] theorem loadedModel_stream (l : Load) (w : Bytes) (prog : Program) (ts : List Tensor) (stream : Bool) (n : Nat) :
    (loadedModel l w prog ts stream n).stream = stream := by
  cases stream <;> rfl

@[simp] theorem loadedModel_resident (l : Load) (w : Bytes) (prog : Program) (ts : List Tensor) (stream : Bool) (n : Nat) :
    (loadedModel l w prog ts stream n).resident = n := by
  cases stream <;> rfl

/-- A load under way begins to end once the part serves and every stack holds its permit (R245, R274). -/
theorem exec_modelLoadDone {s : State} {p : Nat} {l : Load} (w g : ReadResult) (hp : p < 8) (hs : s.flt.pkg = .serving)
    (hlink : s.host.linkUp = true) (hl : (partOf s p).load = some l) (hr : l.ready = false) (h3 : mayStart (partOf s p) 3 = true)
    (h1 : mayStart (partOf s p) 1 = true) (hst : stacksHeld s = true) :
    exec (.modelLoadDone p w g) s = .next (endLoad s p l w g) := by
  refine (partRow_next _ hp (by simp [Live, hs])).trans ?_
  simp only [hl]
  exact congrArg _ (if_neg (by simp [hr, hs, hlink, h3, h1, hst]))

/-- The frames of a load taken for the parts of its images, sealed and charged (R274): `sealLoad` by the parts. -/
def sealParts (s : State) (p : Nat) (l : Load) (m : Model) (bs : List Bytes) : State :=
  match openFrames s p .transit (.model l.into) bs.length with
  | none => respond (updPart s p fun x => { x with load := none }) l.ctx .noResource []
  | some (ns, s) =>
    let s := (ns.zip bs).foldl (fun t e => sealFrame t e.1 .model e.2) s
    let s := charge s p 1 (65536 * bs.length)
    let res := (if m.stream then 2 else 1, m.resident, bs.length)
    if l.into = l.slot then
      let s := updPart s p fun x => { x with slots := x.slots.set l.into (some m), load := none }
      respond s l.ctx .success (loadBody res.1 res.2.1 0 res.2.2)
    else updPart s p fun x => { x with slots := x.slots.set l.into (some m), load := some { l with ready := true, result := res } }

theorem sealLoad_eq (s : State) (p : Nat) (l : Load) (m : Model) (g : Bytes) : sealLoad s p l m g = sealParts s p l m
    (loadBytes m g) := rfl

theorem sealParts_opened {u v : State} {p : Nat} {l : Load} {m : Model} {bs : List Bytes} {ns : List Nat}
    (h : openFrames u p .transit (.model l.into) bs.length = some (ns, v)) :
    let filled := charge ((ns.zip bs).foldl (fun t e => sealFrame t e.1 .model e.2) v) p 1 (65536 * bs.length)
    let res := (if m.stream then 2 else 1, m.resident, bs.length)
    sealParts u p l m bs = if l.into = l.slot then
        respond (updPart filled p fun x => { x with slots := x.slots.set l.into (some m), load := none }) l.ctx .success
          (loadBody res.1 res.2.1 0 res.2.2)
      else updPart filled p fun x => { x with slots := x.slots.set l.into (some m), load := some { l with ready := true, result := res } } := by
  simp only [sealParts, h]

/-- The accesses of a load's two homes ended and their bytes charged (R245, R287). -/
def homesRead (s : State) (p : Nat) (l : Load) : State :=
  charge (winUse (winUse s l.wHome.1 (-1)) l.pHome.1 (-1)) p 3 (l.wHome.2.2 + l.pHome.2.2)

theorem endLoad_fails {s : State} {p : Nat} {l : Load} {w g : Bytes} {code : Code} {short : Nat}
    (h : checkLoad (homesRead s p l) p l (some w) (some g) = .fails code short) : endLoad s p l (some w) (some g) =
      allRunsEnd (respond (updPart (homesRead s p l) p fun x => { x with load := none }) l.ctx code
        (if code = .noResource then loadBody 0 0 short 0 else [])) := by
  unfold homesRead at h ⊢
  unfold endLoad
  simp only [h, beq_iff_eq]

theorem endLoad_loads {s : State} {p : Nat} {l : Load} {w g : Bytes} {prog : Program} {ts : List Tensor} {stream : Bool}
    {n k : Nat}
    (h : checkLoad (homesRead s p l) p l (some w) (some g) = .loads prog ts stream n k) : endLoad s p l (some w) (some g) =
      allRunsEnd (sealLoad (homesRead s p l) p l (loadedModel l w prog ts stream n) g) := by
  unfold homesRead at h ⊢
  unfold endLoad
  simp only [h]

/-- MODEL_UNLOAD of a named slot, behind the checks on its fields and the partition's state (R276, R379). -/
theorem unloadModel_passes {u : State} {m : Taken} (hz : bodyZero m.cmd [(8, 1)] = true) (h4 : rd m.cmd 8 1 < 4)
    (hst : (partOf u m.ctx.part).st = .active ∨ (partOf u m.ctx.part).st = .draining) : unloadModel u m =
      match modelAt (partOf u m.ctx.part) (rd m.cmd 8 1) with
      | none => refuse u m.ctx .wrongState
      | some y =>
        if (match (partOf u m.ctx.part).load with | some l => l.slot == rd m.cmd 8 1 || l.into == rd m.cmd 8 1 | none => false) then
          refuse u m.ctx .busy
        else respond (reapModels (updModel u m.ctx.part (rd m.cmd 8 1) fun z => { z with unloading := true }) m.ctx.part) m.ctx .success
          (leBytes 4 (modelRefs u m.ctx.part y.key)) := by
  rw [unloadModel]
  refine (if_neg (by simp [hz, h4])).trans ((if_neg (by obtain h | h := hst <;> simp [h])).trans ?_)
  split <;> simp_all <;> rfl

/-- Settles O37: the message that starts a load, its end, and the unload. -/
theorem modelsLoadAndUnload : Obligations.ModelsLoadAndUnload := by
  unfold Obligations.ModelsLoadAndUnload
  refine ⟨fun s fn via cmd d ha ho h64 hd hf hst => ?_, fun s p l w g hp hs hlink hl hr h3 h1 hsh => ?_, fun s fn via cmd ha ho hz h4 hst => ?_⟩
  · intro u c p slot
    have hx : exec (.modelLoad fn via (some d)) s = .next (startLoad u (ask s fn via cmd) d) :=
      exec_accepts rfl ha (by simp [isOp, ho]) (by simp only [ask_cmd]; exact withDesc_some h64 hd)
    have hm : startLoad u (ask s fn via cmd) d = if (partOf s p).load.isSome then refuse u c .busy
        else match loadInto (partOf s p) slot with
          | none => refuse u c .noResource
          | some i =>
            if loadDiffers u p (loadOf (ask s fn via cmd) d i) then refuse u c .conflict
            else askStacks (winUse (winUse (updPart u p fun y => { y with load := some (loadOf (ask s fn via cmd) d i) })
              (loadOf (ask s fn via cmd) d i).wHome.1 1) (loadOf (ask s fn via cmd) d i).pHome.1 1) := by
      simp only [startLoad, ask_cmd, ask_ctx, show (askCtx s fn via cmd).part = p from ask_ctx_part s fn via cmd, took_partOf, u]
      refine (if_neg (by simp [hf])).trans ((if_neg (by simp [p, hst])).trans ?_)
      rfl
    rw [hx, hm]
    refine ⟨fun h => congrArg _ (if_pos (Option.isSome_iff_ne_none.2 h)), fun h i hi => ?_⟩
    intro l
    rw [if_neg (by simp [h]), loadInto_eq hi]
    exact ⟨fun hdf => congrArg _ (if_pos hdf), fun hdf => congrArg _ (if_neg (by simpa using hdf))⟩
  · intro u
    have hx := exec_modelLoadDone (some w) (some g) hp hs hlink hl hr h3 h1 hsh
    refine ⟨fun code short hc => hx.trans (congrArg _ (endLoad_fails hc)), fun prog ts stream n k ns v hc => ?_⟩
    intro m ho filled res
    have hseal := (sealLoad_eq u p l m g).trans (sealParts_opened ho)
    simp only [m, loadedModel_stream, loadedModel_resident] at hseal
    have hy := hx.trans (congrArg _ ((endLoad_loads hc).trans (congrArg allRunsEnd hseal)))
    refine ⟨fun h => hy.trans ?_, fun h => hy.trans ?_⟩
    · rw [if_pos h]
    · rw [if_neg h]
  · intro u c p slot
    have hx : exec (.modelUnload fn via) s = .next (unloadModel u (ask s fn via cmd)) := exec_accepts rfl ha (by simp [isOp, ho]) rfl
    have hm := unloadModel_passes (u := u) (m := ask s fn via cmd) (by simpa using hz) (by simpa using h4) (by simpa [u] using hst)
    simp only [ask_cmd, ask_ctx, show (askCtx s fn via cmd).part = p from ask_ctx_part s fn via cmd, took_partOf, u] at hm
    rw [hx, hm]
    refine ⟨fun h => ?_, fun l y hy hl hs => ?_, fun y hy hl => ?_⟩
    · rw [h]
      rfl
    · rw [hy, hl]
      exact congrArg _ (if_pos (by simpa using hs))
    · rw [hy]
      refine congrArg _ (if_neg ?_)
      split
      · next l h => simpa using hl l h
      · simp

end Sys2Proof.Machine
end

section
/-! SUPPORT. Tenants and their keys (R382, R383, R452 to R454). -/

namespace Sys2Proof.Machine

/-! ### What a message's checks read of the state it is taken from -/

@[simp] theorem askCtx_part (s : State) (fn : Nat) (via : Via) (cmd : Bytes) :
    (askCtx s fn via cmd).part = rd cmd 6 1 := ask_ctx_part s fn via cmd
@[simp] theorem askCtx_tenant (s : State) (fn : Nat) (via : Via) (cmd : Bytes) : (askCtx s fn via cmd).tenant = rd cmd 4 2 :=
  ask_ctx_tenant s fn via cmd
@[simp] theorem askCtx_accept (s : State) (fn : Nat) (via : Via) (cmd : Bytes) : (askCtx s fn via cmd).accept = acceptStamp s :=
  ask_ctx_accept s fn via cmd

theorem fnOf_updFn_or (s : State) (m n : Nat) (f : Fn → Fn) : fnOf (updFn s m f) n = fnOf s n ∨ fnOf (updFn s m f) n = f
    (fnOf s n) := by
  by_cases h : m = n
  · subst h
    by_cases hl : m < s.host.fns.length
    · exact .inr (fnOf_updFn_same s f hl)
    · left
      simp [fnOf, updFn, List.getD_eq_getElem?_getD, not_lt.1 hl]
  · exact .inl (fnOf_updFn_ne s f h)

/-- Taking a message leaves a function's session and the number of its queues. -/
theorem took_fn (s : State) (fn : Nat) (via : Via) (cmd : Bytes) (n : Nat) :
    (fnOf (took s fn via cmd) n).session = (fnOf s n).session ∧ (fnOf (took s fn via cmd) n).sqs.isEmpty = (fnOf s n).sqs.isEmpty := by
  let t : State := { s with host := { s.host with lastAccept := acceptStamp s, lastFn := some fn } }
  have ht : fnOf t n = fnOf s n := rfl
  cases via with
  | mailbox =>
    obtain h | h := fnOf_updFn_or t fn n fun f => { f with mbox := { f.mbox with taken := true } }
    all_goals
      change fnOf (took s fn .mailbox cmd) n = _ at h
      rw [h, ht]
      exact ⟨rfl, rfl⟩
  | sq q =>
    obtain h | h := fnOf_updFn_or t fn n fun x =>
      { x with sqs := x.sqs.map fun y => if y.qid == q then { y with fetched := y.fetched.drop 1 } else y }
    all_goals
      change fnOf (took s fn (.sq q) cmd) n = _ at h
      rw [h, ht]
      simp

@[simp] theorem took_session (s : State) (fn : Nat) (via : Via) (cmd : Bytes) (n : Nat) :
    (fnOf (took s fn via cmd) n).session = (fnOf s n).session := (took_fn s fn via cmd n).1

@[simp] theorem took_tenantOf (s : State) (fn : Nat) (via : Via) (cmd : Bytes) (id : Nat) :
    tenantOf (took s fn via cmd) id = tenantOf s id := by
  simp [tenantOf]

@[simp] theorem took_vfBusy (s : State) (fn : Nat) (via : Via) (cmd : Bytes) (v : Nat) : vfBusy
    (took s fn via cmd) v = vfBusy s v := by
  simp [vfBusy, (took_fn s fn via cmd v).2]

@[simp] theorem took_vfCode (s : State) (fn : Nat) (via : Via) (cmd : Bytes) (id old new : Nat) :
    vfCode (took s fn via cmd) id old new = vfCode s id old new := by
  simp [vfCode]

@[simp] theorem took_evictsNamed (s : State) (fn : Nat) (via : Via) (cmd : Bytes) (t : Tenant) :
    evictsNamed (took s fn via cmd) t = evictsNamed s t := by
  simp [evictsNamed]

@[simp] theorem took_tenantRanges (s : State) (fn : Nat) (via : Via) (cmd : Bytes) (b : TenantBody) :
    tenantRanges (took s fn via cmd) b = tenantRanges s b := by
  have h : (took s fn via cmd).host.vfs = s.host.vfs := by rw [took_host]
  simp only [tenantRanges, h]

/-! ### Tenants and their keys (R341, R382, R383, R452 to R454) -/

theorem withTenant_passes {core : State → Taken → TenantBody → State} {s : State} {m : Taken} (hf : tenantFormed m.cmd = true)
    (hst : (partOf s m.ctx.part).st = .active) (hr : tenantRanges s (readTenantBody m.cmd) = true) :
    withTenant core s m = core s m (readTenantBody m.cmd) := by
  rw [withTenant]
  exact (if_neg (by simp [hf])).trans ((if_neg (by simp [hst])).trans (if_neg (by simp [hr])))

theorem tenantDone_eq (v s : State) (fn : Nat) (via : Via) (cmd : Bytes) :
    tenantDone v (ask s fn via cmd) = respond v (askCtx s fn via cmd) .success (leBytes 2 v.tenants.length) := rfl

/-- Masking leaves what the mask does not name, and RATE, BURST and the bucket in any case (R382). -/
theorem maskTenant_spec (t : Tenant) (b : TenantBody) : (maskTenant t b).rate = t.rate ∧ (maskTenant t b).burst = t.burst ∧
    (maskTenant t b).bal = t.bal ∧ (bit b.mask 3 = true → (maskTenant t b).weight = b.weight) ∧
    (bit b.mask 3 = false → (maskTenant t b).weight = t.weight) :=
  ⟨rfl, rfl, rfl, fun h => by simp [maskTenant, h], fun h => by simp [maskTenant, h]⟩

theorem foldl_id {α : Type} {f : State → α → State} {l : List α} {s : State} (h : ∀ a ∈ l, ∀ t, f t a = t) : l.foldl f s = s := by
  induction l with
  | nil => rfl
  | cons a l ih =>
    rw [List.foldl_cons, h a List.mem_cons_self]
    exact ih fun b hb => h b (List.mem_cons_of_mem _ hb)

/-- No idle action is due where the tenant has no request. -/
theorem idleTenant_none {s : State} {id : Nat} (t : Nat) (h : ∀ q ∈ s.reqs, q.tenant ≠ id) : idleTenant s id t = s := by
  have hl : (s.reqs.filter fun q => q.tenant == id && living q && leads s q.part) = [] :=
    List.filter_eq_nil_iff.2 fun q hq => by simp [h q hq]
  rw [idleTenant, hl]
  rfl

/-- KEY_INSTALL behind its descriptor read, where the package still takes keys (R383, R462, R463). -/
theorem installKey_passes {u : State} {m : Taken} {d : Bytes} {t : Tenant} (hz : bodyZero m.cmd [(8, 4), (16, 8)] = true)
    (hb : u.boot.keyBar = false) (hk : u.boot.lock ≠ .retired) (hst : (partOf u m.ctx.part).st = .active ∨ (partOf u m.ctx.part).st = .draining)
    (ht : tenantOf u m.ctx.tenant = some t) (hp : t.part = m.ctx.part) : installKey u m d =
      if t.keys.any fun k => decide (rd m.cmd 8 4 ≤ k.gen) then refuse u m.ctx .invalidField
      else match (fnOf u m.fn).session with
        | none => refuse u m.ctx .wrongState
        | some k => match unwrapKey k t.id t.part (rd m.cmd 8 4) d with
          | none => refuse u m.ctx .keyInvalid
          | some key =>
            if evictsNamed u t then refuse u m.ctx .busy
            else if (leaderTold u t.part (partOf u t.part).items.groupSize .key (keyKey t.id (rd m.cmd 8 4))).any fun b => b != kcv key then
              refuse u m.ctx .conflict
            else respond (updTenant u t.id fun x => { x with keys := ({ gen := rd m.cmd 8 4, key := key, uses := 0 } :: x.keys).take 4 })
              m.ctx .success [] := by
  rw [installKey]
  refine (if_neg (by simp [hz])).trans ((if_neg (by obtain h | h := hst <;> simp [hb, hk, h])).trans ?_)
  simp only [ht]
  exact if_neg (by simp [hp])

/-- Settles O38: the three operations of TENANT_SET, and KEY_INSTALL by the first check that fails. -/
theorem tenantsAreSetAndKeyed : Obligations.TenantsAreSetAndKeyed := by
  unfold Obligations.TenantsAreSetAndKeyed
  refine ⟨fun s fn via cmd ha ho hf hst hr => ?_, fun s fn via cmd d t ha ho h64 hd hz hst => ?_⟩
  · intro u c b p done
    have hw : ∀ core, withTenant core u (ask s fn via cmd) = core u (ask s fn via cmd) b := fun core => by
      rw [withTenant_passes (by simpa using hf) (by simpa [u] using hst) (by simpa [u] using hr), ask_cmd]
    have hpart : (ask s fn via cmd).ctx.part = p := ask_ctx_part s fn via cmd
    refine ⟨fun h1 => ?_, fun h2 => ?_, fun h3 => ?_⟩
    · have hx : exec (.tenantSetCreate fn via) s = .next (createTenant u (ask s fn via cmd) b) :=
        exec_accepts rfl ha (by simp [isOp, ho, h1]) (hw _)
      rw [hx, createTenant]
      simp only [u, took_tenantOf, took_tenants, took_vfCode, hpart, tenantDone_eq]
      refine ⟨fun h => congrArg _ (if_pos (Option.isSome_iff_ne_none.2 h)), fun h hn => ?_, fun h hn hv => ⟨?_, rfl, rfl, rfl, rfl, rfl⟩⟩
      · rw [if_neg (by simp [h]), if_pos hn]
        rfl
      · rw [if_neg (by simp [h]), if_neg (by omega), hv]
    · have hx : exec (.tenantSetModify fn via) s = .next (modifyTenant u (ask s fn via cmd) b) :=
        exec_accepts rfl ha (by simp [isOp2, ho, h2]) (hw _)
      rw [hx]
      refine ⟨fun h => ?_, fun t ht htp hv => ?_⟩
      · rw [modifyTenant, show tenantOf u b.tenant = none by simpa [u] using h]
        rfl
      · intro v
        have hm : modifyTenant u (ask s fn via cmd) b = done (if bit b.mask 5 = true then idleTenant v t.id c.accept else v) := by
          rw [modifyTenant, show tenantOf u b.tenant = some t by simpa [u] using ht]
          refine (if_neg (by simp [p, htp])).trans ?_
          rw [show vfCode u t.id t.vf (if bit b.mask 0 = true then b.vf else t.vf) = none by simpa [u] using hv]
          rfl
        refine ⟨congrArg _ hm, fun hn => ?_, maskTenant_spec t b⟩
        have hn : ∀ q ∈ u.reqs, q.tenant ≠ t.id := by simpa [u] using hn
        have hv : v = updTenant u t.id fun x => maskTenant x b :=
          congrArg (updTenant · t.id fun x => maskTenant x b) (foldl_id fun q hq w => by simp [hn q hq])
        rw [hm, idleTenant_none (s := v) _ (by rw [hv]; exact hn), ite_self, hv]
    · have hx : exec (.tenantSetDelete fn via) s = .next (deleteTenant u (ask s fn via cmd) b) :=
        exec_accepts rfl ha (by simp [isOp2, ho, h3]) (hw _)
      rw [hx]
      refine ⟨fun h => ?_, fun t ht htp hvf hq had => ?_⟩
      · rw [deleteTenant, show tenantOf u b.tenant = none by simpa [u] using h]
        rfl
      · rw [deleteTenant, show tenantOf u b.tenant = some t by simpa [u] using ht]
        refine congrArg _ ((if_neg (by simp [p, htp])).trans (if_neg ?_))
        have h1 : (t.vf != 0 && vfBusy u t.vf) = false := by obtain h | h := hvf <;> simp [u, h]
        have h2 : (u.reqs.any fun q => q.tenant == t.id && living q) = false := by simpa [u] using hq
        have h3 : (u.adapters.any fun a => a.part == t.part && a.owner == t.id) = false := by simpa [u] using had
        simp [h1, h2, h3]
  · intro u c
    have hx : exec (.keyInstall fn via (some d)) s = .next (installKey u (ask s fn via cmd) d) :=
      exec_accepts rfl ha (by simp [isOp, ho]) (by simp only [ask_cmd]; exact withDesc_some h64 hd)
    refine ⟨fun h => ?_, fun hb hk ht htp => ?_⟩
    · rw [hx, installKey]
      refine congrArg _ ((if_neg (by simp [hz])).trans (if_pos ?_))
      obtain h | h := h <;> simp [u, h]
    · have hi := installKey_passes (u := u) (m := ask s fn via cmd) (d := d) (t := t) (by simpa using hz) (by simpa [u] using hb)
        (by simpa [u] using hk) (by simpa [u] using hst) (by simpa [u] using ht) (by simpa using htp)
      simp only [ask_cmd, ask_ctx, ask_fn, u, took_session, took_evictsNamed] at hi
      rw [hx, hi]
      refine ⟨fun ⟨k, hk, hg⟩ => congrArg _ (if_pos (List.any_eq_true.2 ⟨k, hk, by simpa using hg⟩)), fun hg => ?_⟩
      rw [if_neg (by simpa using hg)]
      refine ⟨fun h => ?_, fun k h hn => ?_, fun k key h hw he hb => ?_, fun k key h hw he hb => ?_⟩
      · rw [h]
        rfl
      · rw [h]
        simp only [hn]
        rfl
      · obtain ⟨b, hb, hne⟩ := hb
        simp only [h, hw, he, Bool.false_eq_true, if_false]
        exact congrArg _ (if_pos (by rw [hb]; simpa using hne))
      · simp only [h, hw, he, Bool.false_eq_true, if_false]
        refine congrArg _ (if_neg ?_)
        cases hl : leaderTold u t.part (partOf u t.part).items.groupSize .key (keyKey t.id (rd cmd 8 4)) with
        | none => simp [u] at hl; simp [hl]
        | some b => simp [hl, hb b hl]

end Sys2Proof.Machine
end

section
/-! SUPPORT. Ports in training (R307 to R310, R402). -/

namespace Sys2Proof.Machine

/-! ### Ports (R307 to R310) -/

theorem modAt_modAt {α : Type} (l : List α) (i : Nat) (f g : α → α) : modAt (modAt l i f) i g = modAt l i fun a => g (f a) := by
  refine List.ext_getElem? fun j => ?_
  simp only [modAt_getElem?]
  split
  · rw [Option.map_map]
    rfl
  · rfl

theorem updPort_updPort (s : State) (n : Nat) (f g : Port → Port) : updPort (updPort s n f) n g = updPort s n fun p => g
    (f p) := by
  simp only [updPort, modAt_modAt]

/-- A port that is in some state other than DISABLED is one of the package's. -/
theorem port_lt {s : State} {n : Nat} (h : (portOf s n).st ≠ .disabled) : n < s.ports.length := by
  by_contra hn
  exact h (by simp [portOf, List.getD_eq_getElem?_getD, not_lt.1 hn, Port.reset])

theorem portsOf_pow : ∀ n < 12, portsOf (2 ^ n) = [n] := by decide

theorem inLimit_iff (s : State) (p : Port) : inLimit s p = true ↔ s.boot.dtc ≤ p.since + stateLimit p.st := by simp [inLimit]

/-- One port enabled: in DETECT from now, or, while it sends HOLD, at the end of that (R307, R480). -/
theorem enablePorts_one {u : State} {n : Nat} (hn : n < 12) : enablePorts u (2 ^ n) =
    if (portOf u n).st = .disabled ∨ (portOf u n).st = .down then
      (if (portOf u n).holdUntil ≤ u.boot.dtc then detectPort u n else updPort u n fun p => { p with startAt := some (portOf u n).holdUntil })
    else u := by
  rw [enablePorts, portsOf_pow n hn]
  by_cases h : (portOf u n).st = .disabled ∨ (portOf u n).st = .down
  · have hf : [n].filter (fun n => (portOf u n).st == .disabled || (portOf u n).st == .down) = [n] := by
      simp [h]
    rw [hf, if_pos h]
    by_cases ht : (portOf u n).holdUntil ≤ u.boot.dtc
    · simp [ht]
    · have hm : max u.boot.dtc (portOf u n).holdUntil = (portOf u n).holdUntil := max_eq_right (not_le.1 ht).le
      simp [ht, hm]
  · have hf : [n].filter (fun n => (portOf u n).st == .disabled || (portOf u n).st == .down) = [] := by
      simp [not_or.1 h]
    rw [hf, if_neg h]
    rfl

/-- A port as LINK_INIT begins on it (R308). -/
def initPort (now : Nat) (info : TrainInfo) (p : Port) : Port :=
  { clearLink p with st := .linkInit, since := now, rxCount := 0, lostCw := none, txStart := p.wire.length, txSteers := [], turned := []
                     peer := none, spare := info.spare && decide (info.goodLanes = 5)
                     steered := if info.spare && decide (info.goodLanes = 5) then none else p.steered, rtt := 0, limited := false
                     lanes := retested p info
                     vcs := (List.range 4).map fun v => { VcState.reset with credits := bufferOf v } }

theorem beginInit_eq (s : State) (n : Nat) (info : TrainInfo) : beginInit s n info =
    portSend (updPort s n (initPort s.boot.dtc info)) n 3 (identMsg (updPort s n (initPort s.boot.dtc info)) n) := rfl

/-- A port as RECOVERY ends on it (R306, R316). -/
def recoveredPort (now : Nat) (info : TrainInfo) (p : Port) : Port :=
  let whole := info.spare && decide (info.goodLanes = 5)
  goBack { p with st := p.back, since := now, spare := whole, steered := if whole then none else p.steered, lanes := retested p info
                  rxCount := 0, lostCw := none, txStart := p.wire.length, turned := []
                  txSteers := if whole then [] else p.txSteers }

theorem finishRecovery_eq {s : State} {n : Nat} {info : TrainInfo} (h : 4 ≤ info.goodLanes) (hn : n < s.ports.length) :
    finishRecovery s n info =
    pumpState (if (portOf s n).back = .active then
      { updPort s n (recoveredPort s.boot.dtc info) with gov := govAsk s.gov (400 + n) .standing 1 s.boot.dtc }
      else updPort s n (recoveredPort s.boot.dtc info)) n := by
  have hst : (portOf (updPort s n (recoveredPort s.boot.dtc info)) n).st = (portOf s n).back := by
    rw [portOf_updPort_same _ _ hn]
    rfl
  rw [finishRecovery, if_neg (not_lt.2 h)]
  change (if (portOf (updPort s n (recoveredPort s.boot.dtc info)) n).st == .active then _ else _) = _
  rw [hst]
  split
  · next h => rw [if_pos (by simpa using h)]; rfl
  · next h => rw [if_neg (by simpa using h)]; rfl

/-- The states of a port that end well, within their limit (R307 to R310). -/
theorem exec_portStateDone {s : State} {n : Nat} (hn : n < 12) (hl : Live s)
    (hw : s.boot.dtc ≤ (portOf s n).since + stateLimit (portOf s n).st)
    (info : TrainInfo) : exec (.portStateDone n info) s = .next (
      match (portOf s n).st with
      | .detect => if 4 ≤ info.goodLanes ∧ s.gov.on.contains (portDomain n) = true then inState s n .eq else s
      | .eq => inState s n .align
      | .align => if 4 ≤ info.goodLanes then beginInit s n info else s
      | .linkInit => if (portOf s n).peer.isSome then sendPing (inState s n .rtt) n else s
      | .rtt => finishRtt s n
      | .recovery => finishRecovery s n info
      | _ => s) :=
  (portRow_next _ hn hl).trans (congrArg _ (if_neg (by simpa [inLimit] using hw)))

/-- RTT measured (R310): the port goes DOWN, or ACTIVE. -/
theorem finishRtt_eq {s : State} {n : Nat} (h : 16 ≤ (portOf s n).echoes) (hr : (portOf s n).rtt ≤ 120) :
    let u := updPort s n fun q => { q with st := .active, since := s.boot.dtc, limited := decide (60 < (portOf s n).rtt) }
    let t := if (match peerIndex s n with | some i => (bondPorts s i).isEmpty | none => false) then retell u else u
    finishRtt s n = pumpState { t with gov := govAsk t.gov (400 + n) .standing 1 t.boot.dtc } n := by
  intro u t
  have hu : updPort (inState s n .active) n (fun q => { q with limited := decide (60 < (portOf s n).rtt) }) = u := updPort_updPort s n _ _
  rw [finishRtt, if_neg (not_lt.2 h)]
  refine (if_neg (not_lt.2 hr)).trans ?_
  rw [hu] <;> rfl

theorem first_iff (s : State) (n : Nat) : (match peerIndex s n with | some i => (bondPorts s i).isEmpty | none => false) = true ↔
    ∃ i, peerIndex s n = some i ∧ bondPorts s i = [] := by
  cases peerIndex s n with
  | none => simp
  | some i => simp

/-- LINK_SET ENABLE and RETRAIN (R307, R379). -/
theorem linkSet_trains {s : State} {fn : Nat} {via : Via} {cmd : Bytes} (ha : Accepts s fn via cmd) (ho : rd cmd 0 2 = 0x0014)
    (h2 : rd cmd 8 1 = 2)
    (hok : linkSetOk cmd = true) : let u := took s fn via cmd
    (rd cmd 9 1 = 1 → exec (.linkSetPortEnable fn via) s =
      .next (respond (enablePorts u (rd cmd 10 2)) (askCtx s fn via cmd) .success [])) ∧
    (rd cmd 9 1 = 3 → ∀ n, n < 12 → rd cmd 10 2 = 2 ^ n → exec (.linkSetPortRetrain fn via) s = .next (respond (
      match (portOf u n).st with | .active => enterRecovery u n | .down => detectPort u n | _ => u) (askCtx s fn via cmd) .success [])) := by
  refine ⟨fun h1 => ?_, fun h3 n hn hm => ?_⟩
  · refine exec_accepts rfl ha (by simp [isOp2, ho, h2, h1]) ((if_neg (by simp [hok])).trans ?_)
    rw [ask_cmd]
    rfl
  · refine exec_accepts rfl ha (by simp [isLinkSet, isOp2, ho, h2, h3]) ((if_neg (by simp [hok])).trans ?_)
    simp only [ask_cmd]
    rw [hm, portsOf_pow n hn]
    rfl

/-- Settles O39: the two messages, then each state by how it ends, the messages of training, and the timeouts. -/
theorem portsTrainToActive : Obligations.PortsTrainToActive := by
  unfold Obligations.PortsTrainToActive
  refine ⟨fun s fn via cmd ha ho h2 hok => ?_, rfl, fun s n hn hl => ?_⟩
  · intro u c
    obtain ⟨h1, h3⟩ := linkSet_trains ha ho h2 hok
    refine ⟨fun h => ⟨h1 h, fun n hn hm => ?_⟩, h3⟩
    rw [hm, enablePorts_one hn]
    simp [u]
  · intro p within first askAct
    refine ⟨fun hw info => ?_, fun hw info => ?_, fun info hst => ?_, fun hst => ?_, fun t ts dtc hst hp => ?_, fun hw => ?_, fun hw hst => ?_,
      fun hst ht => ?_, fun hw hst => ?_, fun hst hh => ?_⟩
    · have hx := exec_portStateDone hn hl hw info
      refine ⟨fun hst h4 hon => ?_, fun hst => ?_, fun hst h4 => ⟨initPort s.boot.dtc info, fun q => ?_, ?_⟩, fun hst hp => ?_, fun hst he hr => ?_,
        fun hst he hr => ?_, fun hst h4 => ?_, fun hst h4 => ⟨recoveredPort s.boot.dtc info, fun q => ?_, ?_⟩⟩
      · rw [hx, show (portOf s n).st = _ from hst]
        exact congrArg _ (if_pos ⟨h4, by simpa [portDomain] using hon⟩)
      · rw [hx, show (portOf s n).st = _ from hst]
        rfl
      · exact ⟨rfl, rfl, rfl, rfl, rfl, rfl, rfl, rfl, rfl, rfl, fun h => by simp [initPort] at h; exact ⟨by omega, h.1⟩⟩
      · rw [hx, show (portOf s n).st = _ from hst]
        exact congrArg _ (if_pos h4)
      · rw [hx, show (portOf s n).st = _ from hst]
        refine congrArg _ ((if_pos (Option.isSome_iff_ne_none.2 hp)).trans ?_)
        exact congrArg (fun t => portSend t n 3 _) (updPort_updPort s n _ _)
      · rw [hx, show (portOf s n).st = _ from hst]
        exact congrArg _ ((if_neg (not_lt.2 he)).trans (if_pos hr))
      · intro u
        have hf := finishRtt_eq (s := s) (n := n) he hr
        rw [hx, show (portOf s n).st = _ from hst]
        refine ⟨fun h => congrArg _ (hf.trans ?_), fun h => congrArg _ (hf.trans ?_)⟩
        · rw [if_neg (mt (first_iff s n).1 h)]
        · rw [if_pos ((first_iff s n).2 h)]
      · rw [hx, show (portOf s n).st = _ from hst]
        exact congrArg _ (if_pos h4)
      · exact ⟨rfl, rfl, rfl, rfl, rfl, rfl⟩
      · rw [hx, show (portOf s n).st = _ from hst]
        exact congrArg _ (finishRecovery_eq h4 (port_lt (by rw [show (portOf s n).st = _ from hst]; simp)))
    · exact (portRow_next _ hn hl).trans (congrArg _ (if_pos (by simpa [inLimit, within, p] using hw)))
    · intro u
      have hx : exec (.ident n info) s = .next (if !identOk u info then portDown u n .groupMismatch else updPort u n fun q =>
          { q with peer := some info, vcs := (q.vcs.zipIdx).map fun e =>
              { e.1 with credits := info.buffers.getD e.2 0 - (e.1.txFlits - e.1.rxCredits) } }) :=
        (portRow_next _ hn hl).trans (congrArg _ (if_neg (by simp [show (portOf s n).st = _ from hst])))
      have hok : identOk u info = true ↔ info.groupId = s.group.id ∧ info.groupSize = s.group.size ∧ info.groupIndex ≠ s.group.index ∧
          info.groupIndex < s.group.size := by
        simp [identOk, u, takeLink, and_assoc]
      rw [hx]
      exact ⟨fun h => congrArg _ (if_neg (by simp [hok.2 h])), fun h => congrArg _ (if_pos (by simpa using mt hok.1 h))⟩
    · refine (portRow_next _ hn hl).trans (congrArg _ (if_pos ?_))
      obtain h | h | h := hst <;> simp [show (portOf s n).st = _ from h]
    · intro u
      refine (portRow_next _ hn hl).trans ?_
      simp only [show (portOf s n).st = _ from hst, show (portOf s n).pings = _ from hp] <;> rfl
    · exact (portRow_next _ hn hl).trans (congrArg _ (if_pos (by simpa [inLimit] using hw)))
    · refine (portRow_next _ hn hl).trans (congrArg _ ((if_neg (mt (inLimit_iff _ _).1 hw)).trans ?_))
      obtain h | h | h | h := hst <;> simp only [show (portOf s n).st = _ from h]
    · have hlim : ¬ inLimit s (portOf s n) = true := by
        rw [inLimit_iff, show (portOf s n).st = _ from hst]
        change ¬ _ ≤ _ + 100000
        have : (portOf s n).since + 1000000 ≤ s.boot.dtc := ht
        omega
      refine (portRow_next _ hn hl).trans (congrArg _ ((if_neg hlim).trans ?_))
      simp only [show (portOf s n).st = _ from hst]
      exact if_neg (not_lt.2 ht)
    · refine (portRow_next _ hn hl).trans (congrArg _ ((if_neg (mt (inLimit_iff _ _).1 hw)).trans ?_))
      simp only [show (portOf s n).st = _ from hst]
    · exact (portRow_next _ hn hl).trans (congrArg _ (if_pos (by simp [show (portOf s n).st = _ from hst, show (portOf s n).holding = _ from hh])))

end Sys2Proof.Machine
end

section
/-! SUPPORT. Ports that leave their bond and ports that go down (R326, R330 to R332). -/

namespace Sys2Proof.Machine

/-! ### Ports that leave and go down (R326, R330 to R332) -/

@[simp] theorem took_portOf (s : State) (fn : Nat) (via : Via) (cmd : Bytes) (n : Nat) : portOf
    (took s fn via cmd) n = portOf s n := by
  simp [portOf]

@[simp] theorem took_peerIndex (s : State) (fn : Nat) (via : Via) (cmd : Bytes) (n : Nat) : peerIndex
    (took s fn via cmd) n = peerIndex s n := by
  simp [peerIndex]

@[simp] theorem took_bondPorts (s : State) (fn : Nat) (via : Via) (cmd : Bytes) (i : Nat) : bondPorts
    (took s fn via cmd) i = bondPorts s i := by
  simp [bondPorts]

@[simp] theorem took_activeSpans (s : State) (fn : Nat) (via : Via) (cmd : Bytes) (p i : Nat) :
    activeSpans (took s fn via cmd) p i = activeSpans s p i := by
  simp [activeSpans, spansPeer]

/-- LINK_SET DISABLE of one port (R332). -/
theorem exec_linkSetPortDisable {s : State} {fn : Nat} {via : Via} {cmd : Bytes} {n : Nat} (ha : Accepts s fn via cmd)
    (ho : rd cmd 0 2 = 0x0014)
    (hok : linkSetOk cmd = true) (h2 : rd cmd 8 1 = 2) (h3 : rd cmd 9 1 = 2) (hn : n < 12) (hm : rd cmd 10 2 = 2 ^ n) :
    let u := took s fn via cmd
    let c := askCtx s fn via cmd
    let x := portOf s n
    exec (.linkSetPortDisable fn via) s = .next (
      if x.leaving.isSome then refuse u c .busy
      else if x.st == .down then respond (updPort u n fun p => { p with startAt := none }) c .success []
      else if x.st != .active then respond (updPort (portPowerOff u n) n fun p => { clearLink p with st := .disabled }) c .success []
      else
        let last := match peerIndex s n with
          | some i => (bondPorts s i) == [n] && (List.range 8).any fun p => activeSpans s p i
          | none => false
        if last then refuse u c .conflict
        else leaveStep (updPort u n fun p => { p with leaving := some (c, 0) }) n) := by
  intro u c x
  refine exec_accepts rfl ha (by simp [isLinkSet, isOp2, ho, h2, h3]) ?_
  simp only [ask_cmd, hm, portsOf_pow n hn, hok, Bool.not_true, Bool.false_eq_true, if_false, took_portOf, took_peerIndex, took_bondPorts,
    took_activeSpans] <;> rfl

/-- A port that leaves for good and has been used last at a time of its own keeps it (R332). -/
theorem markIdlePorts_leaving {s : State} {n t : Nat} {c : MsgCtx} (h : (portOf s n).leaving = some (c, t)) (ht : 0 < t) :
    (portOf (markIdlePorts s) n).leaving = some (c, t) := by
  have hn : n < s.ports.length := by
    by_contra hn
    simp [portOf, List.getD_eq_getElem?_getD, not_lt.1 hn, Port.reset] at h
  have hp : portOf s n = s.ports[n] := by simp [portOf, List.getD_eq_getElem?_getD, hn]
  rw [hp] at h
  obtain ⟨t, rfl⟩ := Nat.exists_eq_succ_of_ne_zero ht.ne'
  simp only [markIdlePorts, portOf, List.getD_eq_getElem?_getD, List.getElem?_map, List.getElem?_zipIdx, List.getElem?_eq_getElem hn,
    Option.map_some, Option.getD_some, Nat.zero_add, h]

theorem finishLeaving_eq {s : State} {n t : Nat} {c : MsgCtx} (h : (portOf s n).leaving = some (c, t)) : finishLeaving s n =
    respond (updPort (portPowerOff s n) n fun p => { clearLink p with st := .disabled, leaving := none }) c .success [] := by
  rw [finishLeaving, h]

/-- A port's link given up: DOWN with its reason, its downs counted (R330). -/
def downed (r : DownReason) (q : Port) : Port :=
  { clearLink q with st := .down, reason := r, downs := satAdd 32 q.downs 1, replay := q.replay, txq := q.txq, rxSeq := q.rxSeq }

theorem portDown_stays {s : State} {n : Nat} (r : DownReason) (h : (portOf s n).st = .disabled ∨ (portOf s n).st = .down) :
    portDown s n r = s := by
  rw [portDown]
  exact if_pos (by obtain h | h := h <;> simp [h])

/-- What follows a port's way DOWN for the member its bond led to, if it was part of one (R330, R331). -/
def downAfter (n : Nat) (s : State) : Option Nat → State
  | none => finishLeaving s n
  | some i =>
    match bondPorts s i with
    | via :: _ => finishLeaving (sendPortLost (killBond (forgetPort s n) n) n via) n
    | [] =>
      let t := forgetMember (finishLeaving s n) i
      if (List.range 8).any fun p => activeSpans t p i then doubt t 0x10 0xFF n 0 else t

theorem portDown_eq {s : State} {n : Nat} (r : DownReason) (hd : (portOf s n).st ≠ .disabled) (hn : (portOf s n).st ≠ .down) :
    let u := updPort (portPowerOff s n) n (downed r)
    portDown s n r = downAfter n u
      (if (portOf s n).st == .active || ((portOf s n).st == .recovery && (portOf s n).back == .active) then peerIndex u n else none) := by
  rw [portDown]
  exact if_neg (by simp [hd, hn])

theorem any_range_iff {n : Nat} {f : Nat → Bool} : ((List.range n).any f = true) ↔ ∃ i, i < n ∧ f i = true := by
  simp

/-- Settles O40: the two messages, the notices between the ends, the timeout, and a port that goes down. -/
theorem portsLeaveAndGoDown : Obligations.PortsLeaveAndGoDown := by
  unfold Obligations.PortsLeaveAndGoDown
  refine ⟨fun s fn via cmd ha ho hok => ?_, fun s n hn hl => ?_⟩
  · intro u c
    refine ⟨fun h1 => ?_, fun n hn h2 h3 hm => ?_⟩
    · have hx : exec (.linkSetGroup fn via) s = .next (setGroup u (ask s fn via cmd)) := exec_accepts rfl ha (by simp [isOp, ho, h1]) rfl
      rw [hx, setGroup, if_neg (by simp [hok])]
      simp only [u, took_ports, took_parts, took_group, ask_cmd]
      refine ⟨fun hp hx => ?_, fun h => ?_⟩
      · refine congrArg _ (if_neg ?_)
        simp only [Bool.or_eq_true, List.any_eq_true, not_or, not_exists, not_and, Bool.and_eq_true, bne_iff_ne, decide_eq_true_eq, ne_eq, not_lt]
        exact ⟨fun p hm hd => by simpa [hd] using hp p hm, fun x hm hd => hx x hm hd⟩
      · refine congrArg _ (if_pos ?_)
        simpa [Bool.or_eq_true, List.any_eq_true] using h
    · have hx := exec_linkSetPortDisable ha ho hok h2 h3 hn hm
      dsimp only at hx
      rw [hx]
      refine ⟨fun h => congrArg _ (if_pos (Option.isSome_iff_ne_none.2 h)), fun h hd => ?_, fun h hna hnd => ?_, fun h hst => ?_⟩
      all_goals rw [if_neg (by simp [h])]
      · rw [if_pos (by simp [hd])]
      · rw [if_neg (by simp [hnd]), if_pos (by simp [hna])]
      · rw [if_neg (by simp [hst]), if_neg (by simp [hst])]
        refine ⟨fun i p hp hi hb ha => congrArg _ (if_pos ?_), fun hno => congrArg _ (if_neg ?_)⟩
        · rw [hi]
          simp only [hb, beq_self_eq_true, Bool.true_and]
          exact any_range_iff.2 ⟨p, hp, ha⟩
        · cases hi : peerIndex s n with
          | none => simp
          | some i =>
            simp only [Bool.and_eq_true, beq_iff_eq, any_range_iff, not_and, not_exists]
            exact fun hb p hp ha => by simp [hno i p hp hi hb] at ha
  · intro p
    refine ⟨fun hst hu => ?_, fun c t hs hlv => ?_, fun c t ht hd hlv => ?_, fun r h => ?_, fun r hd hn' => ?_⟩
    · exact (portRow_next _ hn hl).trans (congrArg _ (if_neg (by simp [show (portOf s n).st = _ from hst, hu])))
    · exact (portRow_next _ hn hl).trans (congrArg _ ((if_pos hs).trans (finishLeaving_eq hlv)))
    · have hlv' := markIdlePorts_leaving (s := s) (n := n) hlv ht
      have hx : exec (.portDisableTimeout n) s = .next (
          if (portOf (markIdlePorts s) n).st == .down then finishLeaving (markIdlePorts s) n
          else if (portOf (markIdlePorts s) n).st == .active && !drained (portOf (markIdlePorts s) n) then
            doubt (markIdlePorts s) 0x0F 0xFF n 0
          else leaveStep (markIdlePorts s) n) := by
        refine (portRow_next _ hn hl).trans ?_
        simp only [hlv']
        exact congrArg _ (if_neg (by change ¬ (t = 0 ∨ s.boot.dtc < t + 10000); omega))
      rw [hx]
      exact ⟨fun ha hdr => by simp [ha, hdr], fun h => by simp [h]⟩
    · exact (portRow_next _ hn hl).trans (congrArg _ (portDown_stays _ h))
    · intro u was
      have hx : exec (.portDown n r) s = .next (downAfter n u
          (if (portOf s n).st == .active || ((portOf s n).st == .recovery && (portOf s n).back == .active) then peerIndex u n else none)) :=
        (portRow_next _ hn hl).trans (congrArg _ (portDown_eq _ hd hn'))
      have hwas : was ↔ ((portOf s n).st == .active || ((portOf s n).st == .recovery && (portOf s n).back == .active)) = true := by
        simp [was, p]
      refine ⟨fun h => ?_, fun i hw hi => ?_⟩
      · have hj : (if (portOf s n).st == .active || ((portOf s n).st == .recovery && (portOf s n).back == .active) then peerIndex u n
            else none) = none := by
          obtain h | h := h
          · exact if_neg (mt hwas.2 h)
          · rw [h, ite_self]
        rw [hx, hj]
        rfl
      · rw [if_pos (hwas.1 hw), hi] at hx
        refine ⟨fun via rest hb => ?_, fun hb => ?_⟩
        · simp only [hx, downAfter, hb]
        · simp only [hx, downAfter, hb]
          refine ⟨fun q hq ha => congrArg _ (if_pos (any_range_iff.2 ⟨q, hq, ha⟩)), fun hno => congrArg _ (if_neg ?_)⟩
          rw [any_range_iff]
          rintro ⟨q, hq, ha⟩
          rw [hno q hq] at ha
          simp at ha

end Sys2Proof.Machine
end

section
/-! SUPPORT. A port's lanes: what a flit counts on them, and how they are steered (R303 to R306). -/

namespace Sys2Proof.Machine

/-! ### What a flit's reception does to the port's lanes (R303 to R306) -/

theorem foldl_updLane {α : Type} (l : List α) (g : α → Nat) (f : α → Lane → Lane) (p : Port) :
    l.foldl (fun q a => updLane q (g a) (f a)) p = { p with lanes := l.foldl (fun ls a => modAt ls (g a) (f a)) p.lanes } := by
  induction l generalizing p with
  | nil => rfl
  | cons a l ih => exact ih _

/-- Counting a flit's codewords changes the lanes' counts and the last codeword lost, nothing else. -/
theorem countFec_eq (p : Port) (fec : FecInfo) :
    countFec p fec = { p with lanes := (countFec p fec).lanes, lostCw := (countFec p fec).lostCw } := by
  simp only [countFec, foldl_updLane]

theorem framed_eq (p : Port) (fec : FecInfo) : (framed p fec).due = (atBoundary p).due ∧ (framed p fec).steered =
    (atBoundary p).steered ∧
    (framed p fec).recal = (atBoundary p).recal ∧ (framed p fec).rxCount = (atBoundary p).rxCount + 1 ∧
    (framed p fec).rxSeq = (atBoundary p).rxSeq := by
  simp only [framed]
  rw [countFec_eq]
  exact ⟨rfl, rfl, rfl, rfl, rfl⟩

theorem atBoundary_none {p : Port} (h : p.due = none) : atBoundary p = p := by
  rw [atBoundary, h, ite_self]

theorem steerNow_spec (p : Port) (l : Nat) (act : SteerAct) : (steerNow { p with due := none } l act).due = none ∧
    (steerNow { p with due := none } l act).steered = (if act = .replace then some l else p.steered) ∧
    (steerNow { p with due := none } l act).recal = if act = .recal then some l else none := by
  cases act <;> simp [steerNow, steerOn, updLane]

theorem foldl_modAt_range {α : Type} (f : Nat → α → α) (ls : List α) (k l : Nat) :
    ((List.range k).foldl (fun ls a => modAt ls a (f a)) ls)[l]? = if l < k then ls[l]?.map (f l) else ls[l]? := by
  induction k with
  | zero => simp
  | succ k ih =>
    rw [List.range_succ, List.foldl_append, List.foldl_cons, List.foldl_nil, modAt_getElem?, ih]
    by_cases h : k = l
    · simp [h]
    · have : l < k + 1 ↔ l < k := by omega
      simp [h, this]

/-- The lanes after a flit on a port that is not steered: each counts what it carried (R303, R304). -/
theorem framed_lane {p : Port} {fec : FecInfo} {l : Nat} (hlen : p.lanes.length = 5) (hl : l < 4) (hd : p.due = none)
    (hs : p.steered = none)
    (hr : p.recal = none) : (framed p fec).lanes.getD l .reset =
      { corrected ((2048 * p.rxCount + 2047) / cwBits) (fec.corr.getD l 0) (p.lanes.getD l .reset) with
        uncorr := satAdd 32 (p.lanes.getD l .reset).uncorr ((lostCws p fec).filter fun c => p.lostCw != some c).length } := by
  have hc : carrier p = id := by
    funext k
    simp [carrier, hs, hr]
  have h5 : l < p.lanes.length := by omega
  simp only [framed, atBoundary_none hd, countFec, foldl_updLane, hc, id]
  simp [List.getD_eq_getElem?_getD, foldl_modAt_range, hl, h5]

theorem corrected_corr (cw k : Nat) (x : Lane) : (corrected cw k x).corr = if k = 0 then x.corr else satAdd 32 x.corr k := by
  unfold corrected
  split <;> rfl

/-! ### Steering and recalibration (R305, R306) -/

theorem spareFree_iff (p : Port) : spareFree p = true ↔ p.spare = true ∧ p.steered = none ∧
    (∀ e, p.asked = some e → e.2 ≠ .replace) ∧
    ∀ e, p.due = some e → e.2 ≠ .replace := by
  simp only [spareFree, Bool.and_eq_true, Option.isNone_iff_eq_none, Bool.not_eq_true', Option.any_eq_false, and_assoc, beq_eq_false_iff_ne]

/-- Settles O41: the steers themselves, then each command by what the port carries on S. -/
theorem lanesAreSteeredAndRecalibrated : Obligations.LanesAreSteeredAndRecalibrated := by
  unfold Obligations.LanesAreSteeredAndRecalibrated
  refine ⟨fun q l => ⟨rfl, rfl, rfl, rfl, rfl⟩, fun q fec l act hd => ⟨fun h => ?_, fun h => ?_⟩, fun _ _ => rfl, fun s n l hn hl => ?_⟩
  · obtain ⟨h1, h2, h3, -⟩ := framed_eq q fec
    have hb : atBoundary q = steerNow { q with due := none } l act := by
      rw [atBoundary, if_neg (by simpa [superFlits] using h), hd]
    rw [h1, h2, h3, hb]
    exact steerNow_spec q l act
  · obtain ⟨h1, h2, h3, -⟩ := framed_eq q fec
    have hb : atBoundary q = q := if_pos (by simpa [superFlits] using h)
    rw [h1, h2, h3, hb]
    exact ⟨rfl, rfl, rfl⟩
  · intro p free failed bad
    refine ⟨fun h4 hup act => ?_, fun h5 hup lock => ?_, fun h5 hst hrec hask hdue => ?_, fun h5 hrec hask hdue => ?_⟩
    · intro u
      have hx : ∀ agree, exec (.steer n ⟨l, act, agree⟩) s = .next (if agree then
            updPort u n fun p => if p.asked == some (l, act) then { p with asked := none, due := some (l, act) } else p
          else portSend (updPort u n fun p => steerTx p l act) n 3 (steerMsg l act true)) := fun agree =>
        (if_pos h4).trans ((portRow_next _ hn hl).trans (congrArg _ (if_neg (by simp [hup, p]))))
      exact ⟨hx false, by simpa using hx true⟩
    · have hbad : (lock || ratioBad (p.lanes.getD l .reset) (cwNow p)) = true ↔ bad lock := by simp [bad, cwNow, cwBits]
      have hfree : spareFree p = true ↔ free := spareFree_iff p
      have hx : exec (.laneFailure n ⟨l, lock⟩) s = .next (
          if !linkUp p || !(lock || ratioBad (p.lanes.getD l .reset) (cwNow p)) then s
          else if l < 4 && spareFree p then askSteer (updPort s n failed) n l .replace
          else if l = 4 && p.steered.isNone then
            match p.recal with
            | some k => if k < 4 then askSteer (updPort s n fun q => { failed q with spare := false }) n k .back
              else updPort (updPort s n fun q => { failed q with spare := false }) n fun q => { q with recal := none }
            | none => updPort s n fun q => { failed q with spare := false }
          else enterRecovery (updPort s n failed) n) := (if_pos h5).trans (portRow_next _ hn hl)
      rw [hx]
      refine ⟨fun hb => congrArg _ (if_pos ?_), fun hb h4 hf => ?_, fun hb h4 hf => ?_, fun hb h4 hst k hk hk4 => ?_, fun hb h4 hst hk => ?_,
        fun hb h4 hst => ?_⟩
      · rw [Bool.or_eq_true, Bool.not_eq_true', Bool.not_eq_true', ← Bool.not_eq_true (lock || _), hbad]
        exact .inr hb
      all_goals rw [if_neg (by rw [hbad.2 hb, hup]; decide)]
      · rw [if_pos (by simp [h4, hfree.2 hf])]
      · rw [if_neg (by simpa [h4] using mt hfree.1 hf), if_neg (by simp; omega)]
      all_goals rw [if_neg (by simp [h4])]
      · simp [h4, hst, hk, hk4]
      · simp [h4, hst, hk]
      · rw [if_neg (by simp [hst])]
    · have hx : exec (.laneRecalStart n l) s = .next (
          if p.steered.isSome then updPort s n fun p => updLane p l fun x => { x with paused := satAdd 32 x.paused 1 }
          else if !p.spare || !turnDue p l then s
          else if l = 4 then updPort s n fun p => { p with recal := some 4 }
          else askSteer s n l .recal) := by
        refine (if_pos h5).trans ((portRow_next _ hn hl).trans (congrArg _ (if_neg ?_)))
        simp [show (portOf s n).st = _ from hst, show (portOf s n).recal = _ from hrec, show (portOf s n).asked = _ from hask,
          show (portOf s n).due = _ from hdue]
      rw [hx]
      refine ⟨fun h => congrArg _ (if_pos (Option.isSome_iff_ne_none.2 h)), fun hs hsp => ?_⟩
      rw [if_neg (by simp [hs])]
      refine ⟨fun h4 ht => ?_, fun h4 ht => ?_, fun h4 ht => ?_, fun h4 ht => ?_⟩
      · rw [if_neg (by simp [hsp, turnDue, h4.ne, ht]), if_neg h4.ne]
      · rw [if_pos (by simp [hsp, turnDue, h4.ne, ht])]
      · rw [if_neg (by simpa [hsp, turnDue, h4] using ht), if_pos h4]
      · rw [if_pos (by simpa [hsp, turnDue, h4] using ht)]
    · intro done
      have hx : ∀ good, exec (.laneRecalDone n l good) s = .next (
          if l = 4 then
            updPort (updPort s n done) n fun p =>
              if good then { p with recal := none } else { updLane p 4 (fun x => { x with failed := true }) with spare := false, recal := none }
          else if good then askSteer (updPort s n done) n l .back
          else updPort (updPort s n done) n fun p => steerOn p l) := fun good => by
        refine (if_pos h5).trans ((portRow_next _ hn hl).trans (congrArg _ (if_neg ?_)))
        simp [show (portOf s n).recal = _ from hrec, show (portOf s n).asked = _ from hask, show (portOf s n).due = _ from hdue]
      refine ⟨fun h4 => ⟨?_, ?_⟩, fun h4 => ⟨?_, ?_⟩⟩
      · rw [hx, if_neg h4.ne, if_pos rfl]
      · rw [hx, if_neg h4.ne, if_neg (by simp), updPort_updPort]
      · rw [hx, if_pos h4, updPort_updPort]
        rfl
      · rw [hx, if_pos h4, updPort_updPort]
        subst h4
        rfl

end Sys2Proof.Machine
end

section
/-! SUPPORT. Flits checked, acknowledged and counted (R313 to R315, R335). -/

namespace Sys2Proof.Machine

/-! ### Flits and the link ledger (R303, R304, R313 to R315, R335) -/

/-- A flit received that transmits its check: framed, checked, and acted on by its type. -/
theorem exec_linkFlitReceived {s : State} {n : Nat} {flit : Bytes} {fec : FecInfo} (hn : n < 12) (hl : Live s)
    (ht : txOn (portOf s n) = true) :
    let h := rd flit 0 8
    let r := updPort s n fun q => framed q fec
    let good := (lostCws (portOf s n) fec).isEmpty && flit.length == 256 && slice flit 248 8 == leBytes 8 (crc64 (slice flit 0 248)).toNat
    exec (.linkFlitReceived n flit fec) s = .next (
      let t :=
        if !good then updPort r n fun p => badFlit p (bits h 37 36 == 1 || bits h 37 36 == 2)
        else if bits h 37 36 = 0 then
          (if bits h 63 52 = (portOf s n).rxSeq then dataIn (updPort r n fun p => applyHeader p h) n (bits h 39 38) (slice flit 8 240)
           else updPort r n nakOnce)
        else if bits h 37 36 = 1 then updPort r n fun p => applyHeader p h
        else if bits h 37 36 = 2 then nakIn (updPort r n fun p => applyHeader p h) n
        else r
      leaveStep (pumpState t n) n) :=
  (portRow_next _ hn hl).trans (congrArg _ (if_neg (by simp [ht])))

theorem dataIn_full {s : State} {n v : Nat} (payload : Bytes) (h : bufferOf v ≤ (vcOf (portOf s n) v).rxUsed) :
    dataIn s n v payload = doubt s 0x0E 0xFF n 0 := if_pos h

theorem dataIn_room {s : State} {n v : Nat} (payload : Bytes) (h : (vcOf (portOf s n) v).rxUsed < bufferOf v) :
    dataIn s n v payload = updPort (takePayload (updPort s n fun q =>
        updVc { q with rxSeq := (q.rxSeq + 1) % 4096, naking := false, unacked := q.unacked + 1 } v
          fun c => { c with rxUsed := c.rxUsed + 1, rxFlits := (c.rxFlits + 1) % 2 ^ 48 }) n v payload) n
      fun q => if 16 ≤ q.unacked ∧ txOn q = true then putIdle q else q := by
  rw [dataIn, if_neg (not_le.2 h)]
  simp only [Bool.and_eq_true, decide_eq_true_eq]

/-- Settles O42: the header, the codewords and the lanes, then each flit by its checks and its type, and the ledger. -/
theorem flitsAreCheckedAndAcknowledged : Obligations.FlitsAreCheckedAndAcknowledged := by
  unfold Obligations.FlitsAreCheckedAndAcknowledged
  refine ⟨fun p h => ?_, fun _ => rfl, fun p fec l hlen hl4 hd hs hr => ?_, fun s n hn hl => ?_⟩
  · by_cases hb : bit h 35 = true
    · simp [applyHeader, creditFlits, updVc, ackFlits, hb]
    · simp [applyHeader, creditFlits, updVc, hb]
  · intro x y
    have hx : x = _ := framed_lane (fec := fec) hlen hl4 hd hs hr
    obtain ⟨-, -, -, hc, -⟩ := framed_eq p fec
    refine ⟨by rw [hc, atBoundary_none hd], ?_, ?_⟩
    · rw [hx]
      exact corrected_corr _ _ _
    · rw [hx]
      dsimp only
      congr 3
      funext c
      exact Bool.eq_iff_iff.2 (by simp)
  · intro p after
    refine ⟨fun flit fec ht => ?_, ?_, ?_, fun hst tf tc => ?_, fun hst hh => ?_⟩
    · intro h r good
      have hx := exec_linkFlitReceived (flit := flit) (fec := fec) hn hl ht
      have hg : ((lostCws (portOf s n) fec).isEmpty && flit.length == 256 &&
          slice flit 248 8 == leBytes 8 (crc64 (slice flit 0 248)).toNat) = true ↔ good := by
        simp [good, p, and_assoc]
      dsimp only at hx
      rw [hx]
      refine ⟨fun hb => ?_, fun hb h1 => ?_, fun hb h2 => ?_, fun hb h0 hs => ?_, fun hb h0 hs => ?_⟩
      · rw [if_pos (by rw [Bool.not_eq_true', ← Bool.not_eq_true, hg]; exact hb)]
      all_goals rw [if_neg (by rw [hg.2 hb]; decide)]
      · rw [if_neg (by change ¬ bits h 37 36 = 0; omega), if_pos h1]
      · rw [if_neg (by change ¬ bits h 37 36 = 0; omega), if_neg (by change ¬ bits h 37 36 = 1; omega), if_pos h2]
      · rw [if_pos h0, if_neg hs]
      · rw [if_pos h0, if_pos hs]
        intro u v
        exact ⟨fun hf => by rw [dataIn_full _ hf], fun hf => by rw [dataIn_room _ hf]⟩
    · refine (portRow_next _ hn hl).trans ?_
      simp only [Bool.and_eq_true]
    · exact portRow_next _ hn hl
    · intro u
      have hx : exec (.ledger n tf tc) s = .next (if tf == (portOf u n).vcs.map (·.rxFlits) && tc == (portOf u n).vcs.map (·.rxCredits) then u
          else doubt u 0x0F 0xFF n 0) :=
        (portRow_next _ hn hl).trans (congrArg _ (if_neg (by simp [show (portOf s n).st = _ from hst])))
      rw [hx]
      refine ⟨fun h1 h2 => congrArg _ (if_pos (by simp [h1, h2])), fun h => congrArg _ (if_neg ?_)⟩
      rw [Bool.and_eq_true, beq_iff_eq, beq_iff_eq, not_and_or]
      exact h
    · exact (portRow_next _ hn hl).trans (congrArg _ (if_neg (by simp [show (portOf s n).st = _ from hst, show (portOf s n).holding = _ from hh])))

end Sys2Proof.Machine
end

section
/-! SUPPORT. Messages of a peer, and class F messages between members (R318 to R324, R368, R369). -/

namespace Sys2Proof.Machine

/-! ### Messages of a peer (R318 to R321, R324) -/

theorem tensorMsg_unknown {s : State} {n ty v : Nat} {m : LinkMsg} {f : State → Nat → Cx → State}
    (h : msgKnown v ty m.kind m.body.length = false) : tensorMsg s n ty v m f = linkDoubt s n := by
  rw [tensorMsg]
  exact if_pos (by simp [h])

/-- A tensor message of known form, by what its TAG names. -/
theorem tensorMsg_known {s : State} {n ty v : Nat} {m : LinkMsg} {f : State → Nat → Cx → State}
    (h : msgKnown v ty m.kind m.body.length = true) : (tagKind s n m = .early → tensorMsg s n ty v m f = s) ∧
      (tagKind s n m = .killed → tensorMsg s n ty v m f = takeLink s n ty (· == m)) ∧
      (tagKind s n m = .nothing → tensorMsg s n ty v m f = linkDoubt s n) ∧
      ∀ a c x, tagKind s n m = .executing a → a.clusters[m.destRank]? = some c → cxOf s c = some x →
        tensorMsg s n ty v m f = f (takeLink s n ty (· == m)) c x := by
  simp only [tensorMsg, h, Bool.not_true, Bool.false_eq_true, if_false]
  refine ⟨fun ht => ?_, fun ht => ?_, fun ht => ?_, fun a c x ht hc hx => ?_⟩
  · rw [ht]
  · rw [ht]
  · rw [ht]
  · simp only [ht, hc, hx]

theorem linkUp_of {p : Port} (h : linkUp p = true) : (!linkUp p) = false := by rw [h]; rfl

/-- Settles O43: tensor messages by their TAG, then the other messages of a peer one by one. -/
theorem peerMessagesReachTheirAttempt : Obligations.PeerMessagesReachTheirAttempt := by
  unfold Obligations.PeerMessagesReachTheirAttempt
  intro s n m hn hl
  refine ⟨fun hs => ?_, fun hup hlen => ?_, fun a hk ha hp ht => ?_, fun hd hd' => ?_, fun lost seq hlost hd ha => ?_⟩
  · have hserv : ¬ (s.flt.pkg != .serving) = true := by simp [hs]
    have htw : exec (.tensorWrite n m) s = .next (tensorMsg s n 1 1 m fun t c x => putBodies t c x m) :=
      (portRow_next _ hn hl).trans (congrArg _ (if_neg hserv))
    have hxp : exec (.xpReduce n m) s = .next (tensorMsg s n 2 2 m fun t c x =>
        let src := (tagMember m.tag, tagRank m.tag, sourceChannel t x m)
        deliverHead (chanPut t c m.destChannel { port := 4, base := m.arg, body := m.body, xp := m.kind, esc := 0, layer := 0, src := src })
          c m.destChannel) := (portRow_next _ hn hl).trans (congrArg _ (if_neg hserv))
    refine ⟨fun h => htw.trans (congrArg _ (tensorMsg_unknown h)), fun h => hxp.trans (congrArg _ (tensorMsg_unknown h)), fun h => ?_, fun h => ?_,
      fun a c hk hb ha ht hc => ?_, fun h1 h7 hb hp => ?_⟩
    · obtain ⟨h1, h2, h3, h4⟩ := tensorMsg_known (s := s) (n := n) (f := fun t c x => putBodies t c x m) h
      rw [htw]
      exact ⟨fun h => congrArg _ (h1 h), fun h => congrArg _ (h2 h), fun h => congrArg _ (h3 h), fun a c x hk hc hx => congrArg _ (h4 a c x hk hc hx)⟩
    · rw [hxp]
      exact ⟨fun hk => congrArg _ ((tensorMsg_known h).1 hk), fun a c x hk hc hx => congrArg _ ((tensorMsg_known h).2.2.2 a c x hk hc hx)⟩
    · refine (portRow_next _ hn hl).trans (congrArg _ ((if_neg hserv).trans ((if_neg (by simp [msgKnown, hb])).trans ?_)))
      have ha' : (partOf (takeLink s n 1 (· == m)) m.part).attempt = some a := ha
      simp only [ha', hc]
      exact if_neg (by rw [bne_iff_ne, not_not]; exact ht)
    · refine (portRow_next _ hn hl).trans (congrArg _ ((if_neg hserv).trans (if_neg ?_)))
      simp [msgKnown, hb, h1, h7, hp]
  · intro u
    have hx : exec (.creditReclaimReq n m) s = .next (if !reached (portOf u n) m.body then u
        else updPort (portSend (updPort (takeLink u n 6 (· == m)) n (idleFlits 5)) n 3 (linkHeader 0x06 0x02 0 m.part 0 0 m.tag 0)) n
          fun p => { p with reclaimRx := p.reclaimRx.filter (· != (m.part, m.tag / 65536)) }) :=
      (portRow_next _ hn hl).trans (congrArg _ ((if_neg (by simp [hup])).trans (if_neg (by simp [msgKnown, hlen]))))
    have hr : reached (portOf u n) m.body = true ↔
        (vcOf (portOf u n) 1).rxFlits = rd m.body 0 8 ∧ (vcOf (portOf u n) 2).rxFlits = rd m.body 8 8 := by
      rw [reached, Bool.and_eq_true, beq_iff_eq, beq_iff_eq]
    rw [hx]
    refine ⟨fun h => congrArg _ (if_pos ?_), fun h1 h2 => congrArg _ (if_neg (by simp [hr.2 ⟨h1, h2⟩]))⟩
    rw [Bool.not_eq_true', ← Bool.not_eq_true, hr, not_and_or]
    exact h
  · refine (portRow_next _ hn hl).trans ?_
    have ha' : (partOf (takeLink s n 6 fun x => x.kind == 2 && x == m) m.part).attempt = some a := ha
    have ht' : attemptTag (partOf (takeLink s n 6 fun x => x.kind == 2 && x == m) m.part) a = m.tag / 65536 := ht
    simp only [ha']
    exact congrArg _ (if_pos (by rw [ht', hp]; simp))
  · intro u
    have hnot : ¬ ((portOf s n).st == .disabled || (portOf s n).st == .down) = true := by simp [hd, hd']
    have hx : exec (.holdReceived n) s = .next (match peerIndex s n with
        | some i => if (forgetMember u i).flt.pkg == .serving then forgetPort (endSpanning (forgetMember u i) i) n else forgetMember u i
        | none => u) := (portRow_next _ hn hl).trans (congrArg _ (if_neg hnot))
    rw [hx]
    have hf : ∀ i, (forgetMember u i).flt = s.flt := fun i => rfl
    refine ⟨fun hi => by rw [hi], fun i hi hs => ?_, fun i hi hs => ?_⟩
    · rw [hi]
      exact congrArg _ (if_neg (by simpa [hf] using hs))
    · rw [hi]
      exact congrArg _ (if_pos (by simpa [hf] using hs))
  · exact (if_pos hlost).trans ((portRow_next _ hn hl).trans (congrArg _ (if_neg (by simp [hd, ha]))))

/-! ### Class F messages (R323, R368, R369) -/

theorem descParts_nil (p fn : Nat) : descParts p fn [] = [] := rfl

/-- A class F message of this host that another member decides leaves a FORWARD and its context (R323). -/
theorem classF_forwards {s : State} {fn : Nat} {via : Via} {cmd : Bytes} (core : State → Taken → State)
    (hg : goesToLeader (took s fn via cmd) (ask s fn via cmd) = true) :
    let u := took s fn via cmd
    let v : State := { u with host := { u.host with forwarded := u.host.forwarded ++ [askCtx s fn via cmd] } }
    classF core u (ask s fn via cmd) = sendMember v (partOf s (rd cmd 6 1)).items.groupSize 0 0
      (linkHeader 0x05 0x01 72 (rd cmd 6 1) 0 0 0 0 ++ leBytes 2 fn ++ zeroBytes 6 ++ cmd) := by
  intro u v
  rw [classF, if_pos hg]
  simp only [forwardMsg, ask_ctx, askCtx_part, ask_cmd, ask_fn, took_partOf, u, descParts_nil, List.append_nil, List.foldl_cons, List.foldl_nil]
  rfl

/-- Settles O44: the member's forward, then what the leader, a member and the sender do with a message of the link. -/
theorem forwardedMessagesReachTheLeader : Obligations.ForwardedMessagesReachTheLeader := by
  unfold Obligations.ForwardedMessagesReachTheLeader
  refine ⟨fun s fn via cmd ha hg => ?_, fun s n m d hn hs => ?_⟩
  · intro u p v sent
    have hf := fun core => classF_forwards core hg
    exact ⟨fun ho h2 => exec_accepts rfl ha (by simp [isOp, ho, h2]) (hf _), fun ho => exec_accepts rfl ha (by simp [isOp, ho]) (hf _),
      fun ho => exec_accepts rfl ha (by simp [isOp, ho]) (hf _)⟩
  · have hserv : ¬ (s.flt.pkg != .serving) = true := by simp [hs]
    have hl : Live s := by simp [Live, hs]
    refine ⟨fun h => ?_, fun hk hlen => ?_⟩
    · exact (portRow_next _ hn hl).trans (congrArg _ ((if_neg hserv).trans (if_pos (by simpa using h))))
    · intro u cmd fn
      have hx : exec (.mgmtForward n m d) s = .next (if m.part = 0xFF then responseIn u fn cmd else if fn = relayFn then relayIn u m.body d
          else if fn = noticeFn then noticeIn u n m.part m.body else leaderTakes u n fn cmd d) :=
        (portRow_next _ hn hl).trans (congrArg _ ((if_neg hserv).trans (if_neg (by simp [hk, hlen]))))
      rw [hx]
      refine ⟨fun hp c hc => ?_, fun hp hfn i hi => ?_, fun hp h1 h2 hsp hld => ?_, fun hp hfn hsp hld hst => ?_⟩
      · rw [if_pos hp, responseIn]
        simp only [show (u.host.forwarded.find? fun c => c.opcode == rd cmd 0 2 && c.cid == rd cmd 2 2 && ctxFn c == fn) = some c from hc]
      · intro b v
        rw [if_neg hp, if_neg (by rw [hfn]; decide), if_pos (show fn = noticeFn from hfn), noticeIn]
        simp only [hi]
        exact ⟨fun h => congrArg _ (if_neg (by simpa [v] using h)), fun h => congrArg _ (if_pos h)⟩
      · intro a
        rw [if_neg hp, if_neg (show ¬ fn = relayFn from h1), if_neg (show ¬ fn = noticeFn from h2), leaderTakes]
        exact congrArg _ (if_neg (by simp [hsp, hld]))
      · intro own
        rw [if_neg hp, if_pos (show fn = relayFn from hfn), relayIn]
        exact congrArg _ (if_neg (by change ¬ (!spans u (rd cmd 6 1) || leads u (rd cmd 6 1) || (partOf u (rd cmd 6 1)).st == .disabled) = true; simp [hsp, hld, hst]))

end Sys2Proof.Machine
end

section
/-! SUPPORT. Adapters registered, fetched, evicted and retired (R77 to R100, R384, R385). -/

namespace Sys2Proof.Machine

/-! ### Frames sealed and their runs ended (R244, R245) -/

/-- Only the frames and the Governor differ. -/
def RunsOnly (s t : State) : Prop := t = { s with frames := t.frames, gov := t.gov }

theorem runsOnly_refl (s : State) : RunsOnly s s := rfl

theorem RunsOnly.trans {s t u : State} (h : RunsOnly s t) (g : RunsOnly t u) : RunsOnly s u := by
  unfold RunsOnly at *
  rw [g, h]

theorem foldl_runsOnly {α : Type} {f : State → α → State} (hf : ∀ t a, RunsOnly t (f t a)) (l : List α) (s : State) :
    RunsOnly s (l.foldl f s) := foldl_keeps runsOnly_refl RunsOnly.trans hf l s

theorem runEnds_runsOnly (s : State) (h : Nat) : RunsOnly s (runEnds s h) := by
  unfold runEnds
  split <;> rfl

theorem sealPool_runsOnly (s : State) (ns : List Nat) (im : Bytes) : RunsOnly s (sealPool s ns im) :=
  (foldl_runsOnly (fun t (e : Nat × Bytes) => show RunsOnly t (sealFrame t e.1 .pool e.2) from rfl) _ _).trans (foldl_runsOnly runEnds_runsOnly _ _)

theorem winUse_host (s : State) (d : Nat) (k : Int) : winUse s d k = { s with host := (winUse s d k).host } := by
  unfold winUse
  split <;> rfl

/-! ### Adapters (R77 to R100, R384, R385) -/

/-- ADAPTER_REGISTER of an ACTIVE partition (R77 to R79, R384). -/
theorem registerAdapter_active {s : State} {m : Taken} (h : rd m.cmd 15 1 < 2) (hst : (partOf s (regOf m).part).st = .active) :
    registerAdapter s m = match ownerCode s m (regOf m) with
      | some c => refuse s m.ctx c
      | none => match indexCode s (regOf m) with
        | some c => refuse s m.ctx c
        | none =>
          let v := winUse { s with regs := s.regs ++ [regOf m] } (regOf m).window 1
          if adapterFrames (regOf m).length ≤ poolFree v (regOf m).part then
            match openPool v (regOf m).part (regOf m).idx (adapterFrames (regOf m).length) with | some t => t.2 | none => v
          else v :=
  (if_neg (not_le.2 h)).trans (if_neg (by simp [hst]))

/-- A registration's home read and its window's access ended (R384). -/
def regRead (s : State) (r : PendReg) : State :=
  charge (winUse { s with regs := s.regs.filter fun g => !(g.part == r.part && g.idx == r.idx) } r.window (-1)) r.part 3
    (homeSpan r.length r.homeSealed)

/-- The adapter that a registration makes (Table ADP-2). -/
def regAdapter (s : State) (r : PendReg) (im : Bytes) (md : Digest) : Adapter :=
  let ns := regFrames s r
  { part := r.part, idx := r.idx, owner := r.owner, window := r.window, offset := r.offset, length := r.length, digest := r.digest
    companion := r.companion, homeSealed := r.homeSealed, model := md, st := if !ns.isEmpty then .resident else .absent, pins := 0
    retiring := false, forced := false, bad := false, lastUse := if !ns.isEmpty then s.boot.dtc else 0, tries := 0, byPlan := false, frames := ns
    image := if !ns.isEmpty then im else [] }

/-- The state in which a registration has made its adapter, its frames sealed. -/
def regMade (s : State) (r : PendReg) (im : Bytes) (md : Digest) : State :=
  let v := { regRead s r with adapters := (regRead s r).adapters ++ [regAdapter s r im md] }
  if !(regFrames s r).isEmpty then charge (sealPool v (regFrames s r) im) r.part 1 (65536 * (regFrames s r).length) else v

theorem regRead_boot (s : State) (r : PendReg) : (regRead s r).boot = s.boot := by
  rw [regRead, winUse_host]
  rfl

theorem regRead_kept (s : State) (r : PendReg) : (regRead s r).adapters = s.adapters ∧ (regRead s r).reqs = s.reqs := by
  rw [regRead, winUse_host]
  exact ⟨rfl, rfl⟩

theorem endReg_eq (s : State) (r : PendReg) (home : ReadResult) : endReg s r home =
    let v := checkReg (regRead s r) r home
    if v.1 != .success then refuse (freeFrames (regRead s r) (regFrames s r)) r.ctx v.1
    else if adapterDiffers (regRead s r) r.part r.idx r.owner r.companion r.digest then
      refuse (freeFrames (regRead s r) (regFrames s r)) r.ctx .conflict
    else respond (regMade s r v.2.1 v.2.2) r.ctx .success
      (leBytes 1 (if !(regFrames s r).isEmpty then 3 else 1) ++ zeroBytes 3 ++ leBytes 4 (regFrames s r).length) := by
  unfold regMade regAdapter
  rw [← regRead_boot s r]
  rfl

theorem regMade_spec (s : State) (r : PendReg) (im : Bytes) (md : Digest) :
    (regMade s r im md).adapters = s.adapters ++ [regAdapter s r im md] ∧ (regMade s r im md).reqs = s.reqs := by
  obtain ⟨ha, hq⟩ := regRead_kept s r
  have hs := sealPool_runsOnly { regRead s r with adapters := (regRead s r).adapters ++ [regAdapter s r im md] } (regFrames s r) im
  unfold regMade
  dsimp only
  split
  · exact ⟨(congrArg (·.adapters) hs).trans (by rw [← ha]), (congrArg (·.reqs) hs).trans hq⟩
  · exact ⟨by rw [← ha], hq⟩

theorem exec_adapterRegisterDone {s : State} {p i : Nat} {r : PendReg} (home : ReadResult) (hp : p < 8)
    (hs : s.flt.pkg = .serving)
    (hlink : s.host.linkUp = true) (hr : (s.regs.find? fun r => r.part == p && r.idx == i) = some r) (h3 : mayStart (partOf s p) 3 = true)
    (h1 : mayStart (partOf s p) 1 = true) (hrun : runsHeld s (regFrames s r) = true) :
    exec (.adapterRegisterDone p i home) s = .next (endReg s r home) := by
  refine (partRow_next _ hp (by simp [Live, hs])).trans ?_
  simp only [hr]
  exact congrArg _ (if_neg (by simp [hs, hlink, h3, h1, hrun]))

/-- A fetch's home read (R84, R90). -/
def fetchGood (u : State) (a : Adapter) (home : ReadResult) : Option Bytes :=
  match home with
  | some bs => if winOk u 0 a.window 0 a.offset (homeSpan a.length a.homeSealed) && bs.length == homeSpan a.length a.homeSealed then some bs else none
  | none => none

theorem fetchGood_eq_some {u : State} {a : Adapter} {home : ReadResult} {bs : Bytes} : fetchGood u a home = some bs ↔
    home = some bs ∧ winOk u 0 a.window 0 a.offset (homeSpan a.length a.homeSealed) = true ∧ bs.length = homeSpan a.length a.homeSealed := by
  cases home with
  | none => simp [fetchGood]
  | some b =>
    simp only [fetchGood, Option.ite_none_right_eq_some, Bool.and_eq_true, beq_iff_eq, Option.some.injEq]
    constructor
    · rintro ⟨⟨h1, h2⟩, rfl⟩
      exact ⟨rfl, h1, h2⟩
    · rintro ⟨rfl, h1, h2⟩
      exact ⟨⟨h1, h2⟩, rfl⟩

theorem endFetch_eq (s : State) (a : Adapter) (home : ReadResult) : endFetch s a home =
    let u := charge s a.part 3 (homeSpan a.length a.homeSealed)
    match fetchGood u a home with
    | none => retryFetch u a
    | some bs =>
      match homeImage u a.owner a.length a.homeSealed a.digest bs with
      | none => failFetch u a
      | some im =>
        let v := charge (sealPool (winUse u a.window (-1)) a.frames im) a.part 1 (65536 * a.frames.length)
        settleRetiring (updAdapter v a.part a.idx fun b => { b with st := .resident, image := im, tries := 0, lastUse := v.boot.dtc }) a.part := rfl

theorem sealed_boot (s : State) (d : Nat) (k : Int) (ns : List Nat) (im : Bytes) :
    (sealPool (winUse s d k) ns im).boot = s.boot := by
  have h := sealPool_runsOnly (winUse s d k) ns im
  rw [RunsOnly] at h
  rw [h, winUse_host]

/-- ADAPTER_RETIRE of a partition that runs, up to the adapter (R99, R385). -/
theorem retireAdapter_runs {force : Bool} {u : State} {m : Taken} (hz : bodyZero m.cmd [(8, 3)] = true)
    (hk : rd m.cmd 10 1 = (if force = true then 2 else 1)) (hst : (partOf u m.ctx.part).st = .active ∨ (partOf u m.ctx.part).st = .draining) :
    retireAdapter force u m = match adapterOf u m.ctx.part (rd m.cmd 8 2) with
      | none => refuse u m.ctx .adapterUnknown
      | some a =>
        if m.fn != 0 && a.owner != m.ctx.tenant then refuse u m.ctx .adapterUnknown
        else if (u.adapters.any fun b => b.part == m.ctx.part && b.companion == some (rd m.cmd 8 2)) ||
            (u.regs.any fun r => r.part == m.ctx.part && r.companion == some (rd m.cmd 8 2)) then refuse u m.ctx .companionInUse
        else if a.retiring && (!force || a.forced) then respond u m.ctx .success (leBytes 4 a.pins)
        else respond (settleRetiring (retireUsers (updAdapter u m.ctx.part (rd m.cmd 8 2) fun b => { b with retiring := true, forced := force })
          m.ctx.part (rd m.cmd 8 2) m.ctx.accept force) m.ctx.part) m.ctx .success (leBytes 4 a.pins) := by
  refine (if_neg (by simp [hz, hk])).trans (if_neg ?_)
  obtain h | h := hst <;> simp [h]

@[simp] theorem took_adapterOf (s : State) (fn : Nat) (via : Via) (cmd : Bytes) (p i : Nat) :
    adapterOf (took s fn via cmd) p i = adapterOf s p i := by
  simp [adapterOf]

/-- Settles O45: the message that registers, the end of a registration, the fetch by its home, the eviction, and the two retires. -/
theorem adaptersAreRegisteredFetchedAndRetired : Obligations.AdaptersAreRegisteredFetchedAndRetired := by
  unfold Obligations.AdaptersAreRegisteredFetchedAndRetired
  refine ⟨fun s fn via cmd ha ho h2 hst => ?_, fun s p i r home hp hs hlink hr h3 h1 hrun => ?_, fun s p i a hp hs => ?_,
    fun s fn via cmd force ha ho hk hz hst => ?_⟩
  · intro u c r
    have hx : exec (.adapterRegister fn via) s = .next (registerAdapter u (ask s fn via cmd)) := exec_accepts rfl ha (by simp [isOp, ho]) rfl
    have hp : r.part = rd cmd 6 1 := ask_ctx_part s fn via cmd
    have hm := registerAdapter_active (s := u) (m := ask s fn via cmd) (by simpa using h2)
      (show (partOf u r.part).st = .active by rw [hp]; simpa [u] using hst)
    rw [hx, hm]
    refine ⟨fun k hk => by rw [hk]; rfl, fun hk => ⟨fun k hi => ?_, fun hi => ?_⟩⟩
    · rw [hk, show indexCode u (regOf (ask s fn via cmd)) = some k from hi]
      rfl
    · intro v
      rw [hk, show indexCode u (regOf (ask s fn via cmd)) = none from hi]
      exact ⟨fun h => congrArg _ (if_neg (not_le.2 h)),
          fun h ns t ho => congrArg _ ((if_pos h).trans (congrArg (fun o : Option (List Nat × State) => match o with | some t => t.2 | none => v) ho))⟩
  · have hx := exec_adapterRegisterDone home hp hs hlink hr h3 h1 hrun
    obtain ⟨rfl, rfl⟩ : r.part = p ∧ r.idx = i := by simpa using List.find?_some hr
    intro ns u
    have hu : regRead s r = u := rfl
    rw [hx, endReg_eq, hu]
    refine ⟨fun k im md hc hk => ?_, fun im md hc hd => ?_, fun im md hc hd => ?_⟩
    · simp only [hc]
      exact congrArg _ (if_pos (by simpa using hk))
    · simp only [hc]
      exact congrArg _ ((if_neg (by simp)).trans (if_pos hd))
    · obtain ⟨h1, h2⟩ := regMade_spec s r im md
      refine ⟨regMade s r im md, regAdapter s r im md, ?_, h1, rfl, rfl, rfl, rfl, rfl, rfl, rfl, rfl, rfl, h2, fun hn => ?_, fun hn => ?_⟩
      · simp only [hc]
        refine congrArg _ ((if_neg (by simp)).trans ((if_neg (by simp [hd])).trans ?_))
        by_cases hn : regFrames s r = [] <;> simp [ns, hn]
      · simp [regAdapter, show regFrames s r = [] from hn]
      · simp [regAdapter, show regFrames s r ≠ [] from hn]
  · have hl : Live s := by simp [Live, hs]
    refine ⟨fun plan q hlink hst hq hd => ?_, fun home hlink ha hst h3 h1 hrun => ?_, fun ha hst => ?_⟩
    · have hpump : pump s p (q.length + 1) ((i, plan) :: q) = beginFetch (updPart s p fun x => { x with fetchQ := q }) p a plan := by
        simp only [pump, hd]
      refine (partRow_next _ hp hl).trans (congrArg _ ((if_neg ?_).trans (by rw [hq]; exact hpump)))
      obtain h | h := hst <;> simp [hs, hlink, h]
    · have hx : exec (.adapterFetchDone p i home) s = .next (endFetch s a home) := by
        refine (partRow_next _ hp hl).trans ?_
        simp only [ha]
        exact congrArg _ (if_neg (by simp [hst, hs, hlink, h3, h1, hrun]))
      intro n u read once
      have hu : charge s a.part 3 (homeSpan a.length a.homeSealed) = u := rfl
      have hread : ∀ bs, fetchGood u a home = some bs → read := fun bs h => by
        obtain ⟨h1, h2, h3⟩ := fetchGood_eq_some.1 h
        exact ⟨bs, h1, h2, h3⟩
      have hgood : ∀ bs, read → home = some bs → fetchGood u a home = some bs := by
        rintro bs ⟨b, hb, h1, h2⟩ h
        obtain rfl : b = bs := Option.some.inj (hb.symm.trans h)
        exact fetchGood_eq_some.2 ⟨h, h1, h2⟩
      have hnone : ¬ read → fetchGood u a home = none := fun h => Option.eq_none_iff_forall_ne_some.2 fun bs hb => h (hread bs hb)
      rw [hx, endFetch_eq, hu]
      refine ⟨fun h ht => ?_, fun h ht => ?_, fun bs h hb him => ?_, fun bs im h hb him => ?_⟩
      · simp only [hnone h]
        exact congrArg _ (if_neg (not_le.2 ht))
      · simp only [hnone h]
        exact congrArg _ (if_pos ht)
      · simp only [hgood bs h hb, him]
      · intro v
        simp only [hgood bs h hb, him]
        have hboot : v.boot = s.boot := sealed_boot u a.window (-1) a.frames im
        rw [← hboot]
    · refine (partRow_next _ hp hl).trans ?_
      simp only [ha]
      exact congrArg _ (if_neg (by simp [hst]))
  · intro u c p i run
    have hx : run = .next (retireAdapter force u (ask s fn via cmd)) := by
      cases force with
      | true => exact exec_accepts rfl ha (by simp [isOp2, ho, hk]) rfl
      | false => exact exec_accepts rfl ha (by simp [isOp, ho, hk]) rfl
    have hm := retireAdapter_runs (force := force) (u := u) (m := ask s fn via cmd) (by simpa using hz) (by simpa using hk) (by simpa [u] using hst)
    simp only [ask_cmd, ask_ctx, askCtx_part, askCtx_tenant, ask_fn, u, took_adapterOf, took_adapters, took_regs] at hm
    rw [hx, hm]
    refine ⟨fun h => by rw [show adapterOf s (rd cmd 6 1) (rd cmd 8 2) = none from h]; rfl, fun a h hown => ?_⟩
    rw [show adapterOf s (rd cmd 6 1) (rd cmd 8 2) = some a from h]
    have hno : ¬ (fn != 0 && a.owner != rd cmd 4 2) = true := by obtain h | h := hown <;> simp [h]
    refine ⟨fun hc => ?_, fun hc1 hc2 => ?_⟩
    · refine congrArg _ ((if_neg hno).trans (if_pos ?_))
      simpa [List.any_eq_true, p, i] using hc
    · have hcomp : ¬ ((s.adapters.any fun b => b.part == rd cmd 6 1 && b.companion == some (rd cmd 8 2)) ||
          s.regs.any fun r => r.part == rd cmd 6 1 && r.companion == some (rd cmd 8 2)) = true := by
        simp only [Bool.or_eq_true, List.any_eq_true, Bool.and_eq_true, beq_iff_eq, not_or, not_exists, not_and]
        exact ⟨fun b hb hp => hc1 b hb hp, fun r hr hp => hc2 r hr hp⟩
      have hret : (a.retiring && (!force || a.forced)) = true ↔ a.retiring = true ∧ (force = false ∨ a.forced = true) := by simp
      exact ⟨fun hr => congrArg _ ((if_neg hno).trans ((if_neg hcomp).trans (if_pos (hret.2 hr)))),
        fun hr => congrArg _ ((if_neg hno).trans ((if_neg hcomp).trans (if_neg (mt hret.1 hr))))⟩

end Sys2Proof.Machine
end

section
/-! SUPPORT. Messages that name a request: submit and cancel (R177, R373, R387, R388). -/

namespace Sys2Proof.Machine

/-! ### Messages that name a request by its handle (R373, R388 to R390) -/

section
variable {expires : Bool} {fields : List (Nat × Nat)} {okIn : PartState → Bool} {core : State → Taken → Req → State}
  {gone : State → Taken → Option Ended → State} {s : State} {m : Taken}

theorem withHandle_unknown (hz : bodyZero m.cmd fields = true) (hok : okIn (partOf s m.ctx.part).st = true)
    (h : findHandle (lapse expires s m.ctx.accept m.ctx.part (rd m.cmd 8 8)) m (rd m.cmd 8 8) = .unknown) :
    withHandle expires fields okIn core gone s m =
      refuse (lapse expires s m.ctx.accept m.ctx.part (rd m.cmd 8 8)) m.ctx .unknownHandle := by
  refine (if_neg (by simp [hz])).trans ((if_neg (by simp [hok])).trans ?_)
  simp only [h]

theorem withHandle_ended {e : Option Ended} (hz : bodyZero m.cmd fields = true) (hok : okIn (partOf s m.ctx.part).st = true)
    (h : findHandle (lapse expires s m.ctx.accept m.ctx.part (rd m.cmd 8 8)) m (rd m.cmd 8 8) = .ended e) :
    withHandle expires fields okIn core gone s m = gone (lapse expires s m.ctx.accept m.ctx.part (rd m.cmd 8 8)) m e := by
  refine (if_neg (by simp [hz])).trans ((if_neg (by simp [hok])).trans ?_)
  simp only [h]

theorem withHandle_live {q : Req} (hz : bodyZero m.cmd fields = true) (hok : okIn (partOf s m.ctx.part).st = true)
    (h : findHandle (lapse expires s m.ctx.accept m.ctx.part (rd m.cmd 8 8)) m (rd m.cmd 8 8) = .live q) :
    withHandle expires fields okIn core gone s m = core (lapse expires s m.ctx.accept m.ctx.part (rd m.cmd 8 8)) m q := by
  refine (if_neg (by simp [hz])).trans ((if_neg (by simp [hok])).trans ?_)
  simp only [h]

end

theorem serves_of {st : PartState} (h : st = .active ∨ st = .draining) : serves st = true := by
  obtain rfl | rfl := h <;> rfl

theorem withDesc_here {addr n : Nat} {d : Bytes} {core : State → Taken → Bytes → State} {s : State} {m : Taken}
    (ha : addr % 64 = 0)
    (hd : d.length = n) (hg : goesToLeader s m = false) : withDesc addr n (some d) true core s m = core s m d := by
  simp [withDesc, aligned64, ha, descBytes_exact hd, hg]

/-- Nothing comes due for a request that is LIVE, with no freeze of its partition ahead. -/
theorem lapse_id {t : State} (b : Bool) (i : Nat) {p h : Nat} (hf : (partOf t p).freezeAt = none)
    (hq : ∀ q, reqOf t h = some q → q.conv = .live) :
    lapse b t i p h = t := by
  unfold lapse
  split
  · rfl
  · have h1 : freezeBy t i p = t := by
      rw [freezeBy, hf]
    have h2 : idleBy t i h = t := by
      unfold idleBy
      split
      · rfl
      · next q hq' =>
        split
        · rfl
        · simp [idleInstant, hq q hq']
    have h3 : expireBy t i h = t := by
      unfold expireBy
      split
      · rfl
      · next q hq' =>
        split
        · simp [hq q hq']
        · rfl
    rw [h1, h2]
    dsimp only
    rw [h3, ite_self]

/-! ### REQUEST_SUBMIT and REQUEST_CANCEL (R177, R373, R387, R388) -/

/-- REQUEST_SUBMIT of a tenant of the partition, its fields in order. -/
theorem exec_requestSubmit {s : State} {fn : Nat} {via : Via} {cmd d : Bytes} {t : Tenant} (ha : Accepts s fn via cmd)
    (ho : rd cmd 0 2 = 0x0040)
    (hn : 144 ≤ rd cmd 16 4) (hd : d.length = rd cmd 16 4) (h64 : rd cmd 8 8 % 64 = 0)
    (hg : goesToLeader (took s fn via cmd) (ask s fn via cmd) = false) (hr : reqReserved cmd d = true) (ht : tenantOf s (rd cmd 4 2) = some t)
    (htp : t.part = rd cmd 6 1) (hf : reqFormed (rd cmd 16 4) d (readReqDesc d) = true) :
    exec (.requestSubmit fn via (some d)) s = .next (submitReq (took s fn via cmd) (ask s fn via cmd) d t) := by
  refine exec_accepts rfl ha (by simp [isOp, ho]) ?_
  simp only [submitDesc, ask_cmd]
  rw [if_neg (not_lt.2 hn), withDesc_here h64 hd hg]
  simp only [submitMsg, ask_cmd, ask_ctx, askCtx_tenant, askCtx_part, took_tenantOf, hr, ht, htp, hf, Bool.not_true, Bool.false_eq_true, if_false,
    bne_self_eq_false]

/-- What each check of a submit answers, in their order (R387, Table MSG-11). -/
theorem submitReq_checks (u : State) (m : Taken) (d : Bytes) (t : Tenant) :
    let p := m.ctx.part
    let r := readReqDesc d
    let x := partOf u p
    let run := submitReq u m d t
    (x.st ≠ .active → run = refuse u m.ctx .wrongState) ∧
    (x.st = .active → offered u p .base = none → run = refuse u m.ctx .modelNotResident) ∧
    (∀ b, x.st = .active → offered u p .base = some b →
      (promptOk b r = false → run = refuse u m.ctx .invalidField) ∧
      (promptOk b r = true →
        (∀ k, adapterCode u p t.id b.key.weights ([r.ad0, r.ad1].filterMap id) = some k → run = refuse u m.ctx k) ∧
        (adapterCode u p t.id b.key.weights ([r.ad0, r.ad1].filterMap id) = none →
          let q := bornReq u (birthOf u m (p * 2 ^ 56 + (x.handles + 1)) (fromHost m)) r b t
          run = if 2 ^ 48 ≤ x.handles + 1 || !canReserve u p (reqQuota x q) then refuse u m.ctx .noResource
            else respond (acceptReq (relay u m q.h d) q) m.ctx .success (leBytes 8 q.h ++ leBytes 8 q.seq)))) := by
  intro p r x run
  refine ⟨fun h => if_pos (by simpa using h), fun h ho => ?_, fun b h ho => ?_⟩
  · refine (if_neg (by simp [x, p] at h; simp [h])).trans ?_
    simp only [show offered u m.ctx.part .base = none from ho]
  · have hx : run = if !promptOk b r then refuse u m.ctx .invalidField
        else match adapterCode u p t.id b.key.weights ([r.ad0, r.ad1].filterMap id) with
          | some c => refuse u m.ctx c
          | none =>
            let n := x.handles + 1
            let q := bornReq u (birthOf u m (p * 2 ^ 56 + n) (fromHost m)) r b t
            if 2 ^ 48 ≤ n || !canReserve u p (reqQuota x q) then refuse u m.ctx .noResource
            else respond (acceptReq (relay u m q.h d) q) m.ctx .success (leBytes 8 q.h ++ leBytes 8 q.seq) := by
      refine (if_neg (by simp [x, p] at h; simp [h])).trans ?_
      simp only [show offered u m.ctx.part .base = some b from ho] <;> rfl
    rw [hx]
    refine ⟨fun hp => if_pos (by simp [hp]), fun hp => ?_⟩
    rw [if_neg (by simp [hp])]
    exact ⟨fun k hk => by rw [hk], fun hk => by rw [hk]⟩

/-- Settles O46: the submit by its checks, what comes due, and the cancel by what the handle names. -/
theorem requestsAreSubmittedAndCancelled : Obligations.RequestsAreSubmittedAndCancelled := by
  unfold Obligations.RequestsAreSubmittedAndCancelled
  refine ⟨fun s fn via cmd d t ha ho hn hd h64 hg hr ht htp hf => ?_, fun t b i p h hf hq => lapse_id b i hf hq,
      fun s fn via cmd ha ho hg hz hst => ?_⟩
  · intro u m c p r x run
    have hx : run = .next (submitReq u m d t) := exec_requestSubmit ha ho hn hd h64 hg hr ht htp hf
    have hpart : m.ctx.part = p := ask_ctx_part s fn via cmd
    obtain ⟨h1, h2, h3⟩ := submitReq_checks u m d t
    rw [hpart] at h1 h2 h3
    rw [hx]
    refine ⟨fun h => congrArg _ (h1 h), fun h hb => congrArg _ (h2 h hb), fun b h hb => ?_⟩
    obtain ⟨h4, h5⟩ := h3 b h hb
    refine ⟨fun hp => congrArg _ (h4 hp), fun hp => ?_⟩
    intro ads
    obtain ⟨h6, h7⟩ := h5 hp
    refine ⟨fun k hk => congrArg _ (h6 k hk), fun hk => ?_⟩
    intro q
    rw [h7 hk]
    refine ⟨fun hlt hc => ⟨congrArg _ (if_neg ?_), rfl, ?_, ?_, ?_, ?_, rfl, rfl, rfl, rfl, rfl⟩, fun hbad => congrArg _ (if_pos ?_)⟩
    · rw [Bool.or_eq_true, decide_eq_true_eq, not_or]
      exact ⟨not_le.2 hlt, by rw [Bool.not_eq_true', hc]; simp⟩
    · change (partOf u m.ctx.part).submits + 1 = _
      rw [hpart]
    · exact hpart
    · exact ask_ctx_tenant s fn via cmd
    · rfl
    · rw [Bool.or_eq_true, decide_eq_true_eq, Bool.not_eq_true']
      exact hbad
  · intro m c u
    have hpart : m.ctx.part = rd cmd 6 1 := ask_ctx_part s fn via cmd
    have hcmd : m.cmd = cmd := ask_cmd s fn via cmd
    have hx : exec (.requestCancel fn via) s = .next (cancelCore (took s fn via cmd) m) :=
      exec_accepts rfl ha (by simp [isOp, ho]) (classF_here hg)
    have hz : bodyZero m.cmd [(8, 8)] = true := by rwa [hcmd]
    have hok : (fun st : PartState => st != .disabled) (partOf (took s fn via cmd) m.ctx.part).st = true := by simpa [hpart] using hst
    have hu : lapse true (took s fn via cmd) m.ctx.accept m.ctx.part (rd m.cmd 8 8) = u := by rw [hpart, hcmd]; rfl
    have hfind : findHandle u m (rd cmd 8 8) =
        findHandle (lapse true (took s fn via cmd) m.ctx.accept m.ctx.part (rd m.cmd 8 8)) m (rd m.cmd 8 8) := by rw [hu, hcmd]
    rw [hfind, hx, cancelCore]
    refine ⟨fun h => ?_, fun h => ?_, fun e h => ?_, fun q h => ?_⟩
    · rw [withHandle_unknown hz hok h, hu]
      rfl
    · rw [withHandle_ended hz hok h, hu]
      rfl
    · rw [withHandle_ended hz hok h, hu]
      simp only [cancelGone, beq_iff_eq, hpart]
      rfl
    · rw [withHandle_live hz hok h, hu]
      rfl

end Sys2Proof.Machine
end

section
/-! SUPPORT. Conversations paused and resumed by the host (R139 to R141, R389, R390). -/

namespace Sys2Proof.Machine

/-! ### Conversations paused and resumed (R139 to R141, R389, R390) -/

/-- A message of the host that names a live request of a partition that serves. -/
theorem exec_withHandle {s : State} {fn : Nat} {via : Via} {cmd : Bytes} {q : Req} {i : Instr} {expires : Bool}
    {fields : List (Nat × Nat)}
    {core : State → Taken → Req → State} {gone : State → Taken → Option Ended → State}
    (hst : (partOf s (rd cmd 6 1)).st = .active ∨ (partOf s (rd cmd 6 1)).st = .draining) (hz : bodyZero cmd fields = true)
    (hx : exec i s = .next (withHandle expires fields serves core gone (took s fn via cmd) (ask s fn via cmd)))
    (h : findHandle (lapse expires (took s fn via cmd) (askCtx s fn via cmd).accept (rd cmd 6 1) (rd cmd 8 8))
        (ask s fn via cmd) (rd cmd 8 8) = .live q) :
    exec i s = .next (core (lapse expires (took s fn via cmd) (askCtx s fn via cmd).accept (rd cmd 6 1) (rd cmd 8 8)) (ask s fn via cmd) q) := by
  have hcmd : (ask s fn via cmd).cmd = cmd := ask_cmd s fn via cmd
  have hpart : (ask s fn via cmd).ctx.part = rd cmd 6 1 := ask_ctx_part s fn via cmd
  have hok : serves (partOf (took s fn via cmd) (ask s fn via cmd).ctx.part).st = true := by
    rw [hpart, took_partOf]
    exact serves_of hst
  have hl := withHandle_live (core := core) (gone := gone) (s := took s fn via cmd) (m := ask s fn via cmd) (by rwa [hcmd]) hok
    (by rw [hpart, hcmd]; exact h)
  rw [hpart, hcmd] at hl
  exact hx.trans (congrArg _ hl)

theorem acceptPause_eq (s : State) (h : Nat) (w : ConvMsg) (c : Option MsgCtx) : acceptPause s h w c =
    match reqOf s h with
    | none => s
    | some q => if planned s q then updReq s h fun x => { x with want := some w, wantCtx := c }
      else applyWant (updReq s h fun x => { x with want := some w, wantCtx := c }) h := rfl

/-- A resume accepted, by the state the conversation is in (R141). -/
theorem acceptResume_spec {w : State} {h fdl tdl a : Nat} {app : List Nat} {c : MsgCtx} {x : Req} (hx : reqOf w h = some x) :
    let t := jrnOut w h (resumeEntries (resumeState x) x.next a app)
    (x.conv = .held → acceptResume w h app fdl tdl a (some c) = respond (goLive t h app fdl tdl a) c .success []) ∧
    (x.conv = .parked → acceptResume w h app fdl tdl a (some c) = endIfBad (askStacks (updReq (clearWork t h) h fun y =>
      { y with conv := .resuming, slot := true, quota := reqQuota (partOf w x.part) x, want := some (.resume app fdl tdl a), wantCtx := some c })) h) ∧
    (∀ k, x.conv = .condensed → x.cond = some k → acceptResume w h app fdl tdl a (some c) = endIfBad (respond (goLive (updReq t h fun y =>
      { y with slot := true, quota := reqQuota (partOf w x.part) x, condIn := k.s }) h app fdl tdl a) c .success []) h) := by
  simp only [acceptResume, hx]
  refine ⟨fun hc => ?_, fun hc => ?_, fun k hc hk => ?_⟩
  · rw [hc]
  · rw [hc]
  · simp only [hc, hk]

/-- Settles O47: park, condense and drop by their checks, and the resume by the state it finds. -/
theorem conversationsPauseAndResume : Obligations.ConversationsPauseAndResume := by
  unfold Obligations.ConversationsPauseAndResume
  intro s fn via cmd q ha hg hst m c u r v waits
  have hcmd : m.cmd = cmd := ask_cmd s fn via cmd
  have hwaits : ∀ w, acceptPause v q.h w (some m.ctx) = waits w := fun w => by
    rw [acceptPause_eq]
    rfl
  refine ⟨fun hf => ⟨fun ho hz => ?_, fun ho hz => ?_, fun ho hz => ?_⟩, fun hf ho hz d hd h4 h64 => ?_⟩
  · have hx : exec (.convPark fn via) s = .next (parkMsg u m q) :=
      exec_withHandle hst hz (exec_accepts rfl ha (by simp [isOp, ho]) (classF_here hg)) hf
    rw [hx]
    refine ⟨fun k hk => ?_, fun hk => ?_⟩
    · rw [parkMsg, hk]
      rfl
    · rw [parkMsg, hk, ← hwaits, ← hcmd]
      rfl
  · have hx : exec (.convCondense fn via) s = .next (condenseMsg u m q) :=
      exec_withHandle hst hz (exec_accepts rfl ha (by simp [isOp, ho]) (classF_here hg)) hf
    rw [hx]
    refine ⟨fun k hk => ?_, fun hk => ?_⟩
    · rw [condenseMsg, hk]
      rfl
    · rw [condenseMsg, hk, ← hwaits] <;> rfl
  · have hx : exec (.convDrop fn via) s = .next (dropMsg u m q) :=
      exec_withHandle hst hz (exec_accepts rfl ha (by simp [isOp, ho]) (classF_here hg)) hf
    rw [hx]
    exact ⟨fun hr => congrArg _ (if_pos (by simp [hr])), fun hr => congrArg _ (if_neg (by simp [hr]))⟩
  · intro app w
    have hcore : resumeDesc (some d) (took s fn via cmd) m = resumeCore (took s fn via cmd) m d := by
      simp only [resumeDesc, hcmd]
      rw [if_neg (not_lt.2 h4)]
      by_cases h0 : rd cmd 40 4 = 0
      · have hd0 : d = [] := List.eq_nil_of_length_eq_zero (by rw [hd, h0])
        rw [if_pos h0, hd0]
        exact classF_here hg
      · rw [if_neg h0]
        exact withDesc_here (h64 h0) hd hg
    have hx : exec (.convResume fn via (some d)) s = .next (resumeMsg d r m q) :=
      exec_withHandle hst hz (exec_accepts rfl ha (by simp [isOp, ho]) hcore) hf
    have hm : resumeMsg d r m q = match resumeCode r q app c.accept with
        | some .parkExpired => respond r c .parkExpired (endedBody c.accept (termVal .expired) 2 q.next)
        | some k => refuse r c k
        | none => acceptResume w q.h app (rd cmd 24 8) (rd cmd 32 8) c.accept (some c) := by
      rw [resumeMsg, hcmd] <;> rfl
    rw [hx, hm]
    refine ⟨fun k hk hne => ?_, fun hk => ?_, fun hk x hq => ?_⟩
    · rw [hk]
      split
      · next h => exact absurd (Option.some.inj h) hne
      · next h => rw [Option.some.inj h]; rfl
      · next h => simp at h
    · rw [hk]
    · rw [hk]
      obtain ⟨h1, h2, h3⟩ := acceptResume_spec (fdl := rd cmd 24 8) (tdl := rd cmd 32 8) (a := c.accept) (app := app) (c := c) hq
      exact ⟨fun hc => congrArg _ (h1 hc), fun hc => congrArg _ (h2 hc), fun k hc hk => congrArg _ (h3 k hc hk)⟩

end Sys2Proof.Machine
end

section
/-! SUPPORT. Paused conversations: idle actions, parking and the end of a resume (R137, R138, R144, R148, R149). -/

namespace Sys2Proof.Machine

/-! ### What restoring a stream leaves (R149) -/

/-- Which partitions span members, and what each request waits for, are as before. -/
structure WantsKept (s t : State) : Prop where
  spans : ∀ p, Machine.spans t p = Machine.spans s p
  req : ∀ h q, reqOf s h = some q → ∃ y, reqOf t h = some y ∧ y.want = q.want ∧ y.wantCtx = q.wantCtx

theorem wantsKept_of_eq {s t : State} (hp : t.parts = s.parts) (hr : t.reqs = s.reqs) : WantsKept s t where
  spans p := by simp [Machine.spans, partOf, hp]
  req h q hq := ⟨q, by rwa [reqOf, hr], rfl, rfl⟩

theorem wantsKept_refl (s : State) : WantsKept s s := wantsKept_of_eq rfl rfl

theorem WantsKept.trans {s t u : State} (h : WantsKept s t) (g : WantsKept t u) : WantsKept s u where
  spans p := (g.spans p).trans (h.spans p)
  req k q hq := by
    obtain ⟨y, hy, h1, h2⟩ := h.req k q hq
    obtain ⟨z, hz, h3, h4⟩ := g.req k y hy
    exact ⟨z, hz, h3.trans h1, h4.trans h2⟩

theorem foldl_wantsKept {α : Type} {f : State → α → State} (hf : ∀ t a, WantsKept t (f t a)) (l : List α) (s : State) :
    WantsKept s (l.foldl f s) := foldl_keeps wantsKept_refl WantsKept.trans hf l s

theorem partOf_updPart_or (s : State) (p n : Nat) (f : Part → Part) :
    partOf (updPart s p f) n = partOf s n ∨ partOf (updPart s p f) n = f (partOf s n) := by
  by_cases h : p = n
  · subst h
    by_cases hl : p < s.parts.length
    · exact .inr (partOf_updPart_same s f hl)
    · left
      simp [partOf, updPart, List.getD_eq_getElem?_getD, not_lt.1 hl]
  · exact .inl (partOf_updPart_ne s f h)

/-- A change of a partition that leaves its items leaves every partition's items. -/
theorem updPart_spans (s : State) (p n : Nat) {f : Part → Part} (hf : ∀ x, (f x).items = x.items) : spans
    (updPart s p f) n = spans s n := by
  obtain h | h := partOf_updPart_or s p n f
  · rw [spans, h, spans]
  · rw [spans, h, hf, spans]

theorem charge_spans (s : State) (p i b n : Nat) : spans (charge s p i b) n = spans s n :=
  updPart_spans s p n fun x => by split <;> rfl

theorem reqOf_updReq_any (s : State) (h k : Nat) {f : Req → Req} (hf : ∀ x, (f x).h = x.h) :
    reqOf (updReq s h f) k = (reqOf s k).map fun q => if q.h == h then f q else q := by
  have hkey : ((fun x : Req => x.h == k) ∘ fun x : Req => if x.h == h then f x else x) = fun x => x.h == k := by
    funext x
    dsimp only [Function.comp]
    split
    · rw [hf]
    · rfl
  simp only [reqOf, updReq, List.find?_map, hkey]

theorem charge_wantsKept (s : State) (p i b : Nat) : WantsKept s (charge s p i b) where
  spans n := charge_spans s p i b n
  req h q hq := ⟨q, hq, rfl, rfl⟩

theorem updReq_wantsKept (s : State) (h : Nat) {f : Req → Req}
    (hf : ∀ x, (f x).h = x.h ∧ (f x).want = x.want ∧ (f x).wantCtx = x.wantCtx) :
    WantsKept s (updReq s h f) where
  spans _ := rfl
  req k q hq := by
    rw [reqOf_updReq_any s h k fun x => (hf x).1, hq]
    refine ⟨_, rfl, ?_⟩
    dsimp only
    split
    · exact (hf q).2
    · exact ⟨rfl, rfl⟩

theorem openFrames_parts {s t : State} {p k : Nat} {cls : FrameClass} {o : Owner} {ns : List Nat}
    (h : openFrames s p cls o k = some (ns, t)) :
    t.parts = s.parts ∧ t.reqs = s.reqs := by
  induction k generalizing s t ns with
  | zero =>
    obtain ⟨-, rfl⟩ := Prod.mk.inj (Option.some.inj h)
    exact ⟨rfl, rfl⟩
  | succ k ih =>
    unfold openFrames at h
    split at h
    · simp at h
    · next n u hu =>
      split at h
      · simp at h
      · next ns' v hv =>
        obtain ⟨-, rfl⟩ := Prod.mk.inj (Option.some.inj h)
        obtain ⟨h1, h2⟩ := ih hv
        have h3 : u.parts = s.parts ∧ u.reqs = s.reqs := by
          unfold openFrame at hu
          dsimp only at hu
          split at hu
          · split at hu
            · obtain ⟨-, rfl⟩ := Prod.mk.inj (Option.some.inj hu)
              exact ⟨rfl, rfl⟩
            · simp at hu
          · simp at hu
        exact ⟨h1.trans h3.1, h2.trans h3.2⟩

theorem restoreStream_wantsKept (s : State) (h : Nat) (fb : Bool) (kv : List Bytes) : WantsKept s (restoreStream s h fb kv) := by
  unfold restoreStream
  split
  · exact wantsKept_refl s
  · next q hq =>
    extract_lets g n k
    split
    · exact wantsKept_refl s
    · next ns u hu =>
      obtain ⟨h1, h2⟩ := openFrames_parts hu
      have h0 : WantsKept s (updReq s h fun x => { x with quota := x.quota - k }) := updReq_wantsKept _ _ fun _ => ⟨rfl, rfl, rfl⟩
      refine (h0.trans (wantsKept_of_eq h1 h2)).trans ?_
      refine WantsKept.trans ?_ (foldl_wantsKept (fun t e => ?_) _ _)
      · refine WantsKept.trans ?_ (charge_wantsKept _ _ _ _)
        refine updReq_wantsKept _ _ fun x => ?_
        split <;> exact ⟨rfl, rfl, rfl⟩
      · split <;> exact wantsKept_of_eq rfl rfl

theorem chargeEntry_wantsKept (s : State) (q : Req) : WantsKept s (chargeEntry s q) := by
  unfold chargeEntry
  split
  · exact charge_wantsKept _ _ _ _
  · exact wantsKept_refl s

theorem chargeEntry_reqOf (s : State) (q : Req) (h : Nat) : reqOf (chargeEntry s q) h = reqOf s h := by
  unfold chargeEntry
  split <;> rfl

theorem AnswerOnly.tenants {s t : State} (h : AnswerOnly s t) : t.tenants = s.tenants := congrArg (·.tenants) h

theorem relay_linkOnly (s : State) (m : Taken) (id : Nat) (d : Bytes) : LinkOnly s (relay s m id d) := by
  unfold relay
  extract_lets p body
  split
  · exact foldl_linkOnly (fun _ _ => sendOthers_linkOnly _ _ _ _) _ _
  · exact linkOnly_refl s

theorem failResume_eq (s : State) (q : Req) (c : Code) : failResume s q c =
    let v := updReq (dropKv s q.h) q.h fun x => { x with record := none, want := none, wantCtx := none }
    let w := allRunsEnd (endTold v q.h .withheld 3)
    match q.wantCtx with | some k => refuse w k c | none => w := rfl

/-! ### Paused conversations (R137, R138, R144, R148, R149) -/

/-- A row of a live request, in SERVING. -/
theorem reqRow_live {s : State} {h : Nat} {q : Req} (f : Req → State) (hs : s.flt.pkg = .serving) (hq : reqOf s h = some q)
    (hv : living q = true) : reqRow s h f = .next (f q) := by
  rw [reqRow, if_neg (by simp [hs]), hq]
  exact congrArg _ (if_pos hv)

theorem reqOf_h {s : State} {h : Nat} {q : Req} (hq : reqOf s h = some q) : q.h = h := by
  simpa using List.find?_some hq

theorem tenantOf_id {s : State} {i : Nat} {t : Tenant} (ht : tenantOf s i = some t) : t.id = i := by
  simpa using List.find?_some ht

theorem finishPark_eq {s : State} {h : Nat} {q : Req} {k : Parking} (hq : reqOf s h = some q) (hk : q.parking = some k) :
    let u := updReq (dropPins (dropKv s h) h) h fun x =>
      { x with conv := .parked, parking := none, want := none, wantCtx := none, record := some k.record }
    let v := jrnOut (reapModels u q.part) h [{ kind := .park, ty := 7, len := 32, body := eventEntry 4 0 0 q.next k.stamp k.ttl }]
    finishPark s h = match q.wantCtx with
      | some c => respond v c .success (leBytes 8 k.record.entryLen ++ leBytes 8 k.record.expiresAt)
      | none => v := by
  simp only [finishPark, hq, hk] <;> rfl

theorem abandonPark_eq {s : State} {h : Nat} {q : Req} {k : Parking} (hq : reqOf s h = some q) (hk : q.parking = some k) :
    abandonPark s h = pauseRefused (updReq (unsealStreams s q) h fun z =>
      { z with parking := none, conv := k.from_, idleAt := if k.from_ = .held then some s.boot.dtc else none }) h .parkFault := by
  simp only [abandonPark, hq, hk, beq_iff_eq] <;> rfl

theorem resumeDone_eq {r : State} {h fdl tdl acc : Nat} {app : List Nat} {y : Req} (hy : reqOf r h = some y)
    (hw : y.want = some (.resume app fdl tdl acc)) :
    let v := allRunsEnd (goLive (updReq r h fun x => { x with record := none }) h app fdl tdl acc)
    resumeDone r h = match y.wantCtx with | some c => respond v c .success [] | none => v := by
  simp only [resumeDone, hy, hw] <;> rfl

/-- Settles O48: the idle action, the expiry, the park's end either way, and the resume's. -/
theorem pausedConversationsMoveOn : Obligations.PausedConversationsMoveOn := by
  unfold Obligations.PausedConversationsMoveOn
  intro s h q hs hq hv
  obtain rfl : q.h = h := reqOf_h hq
  refine ⟨fun t a ht hc hb hr hi ha hle => ?_, fun r hc hr hle => ?_, fun k ecc hk hlt => ?_, fun k ecc hk hle hbar hst => ?_,
    fun k part hk => ?_, fun entry => ?_⟩
  · intro i tells
    have hx : exec (.idleAction q.h) s = .next (if leads s q.part then idleBy s s.boot.dtc q.h else s) := reqRow_live _ hs hq hv
    rw [hx]
    refine ⟨fun hl => congrArg _ (if_neg (by simp [hl])), fun hl => congrArg _ ((if_pos hl).trans ?_)⟩
    have hinst : idleInstant q t = some i := by simp [idleInstant, hc, hb, hr, hi, ha, i]
    have hact : idleBy s s.boot.dtc q.h = idleAct s q t i := by
      simp only [idleBy, hq, ht, hinst]
      exact if_pos hle
    have hkey : ∀ op rest, currentKey (tells op rest) t.id = currentKey s t.id := fun op rest => by
      have ht := (relay_linkOnly s (ownMsg q op i rest) q.h []).answerOnly.tenants
      simp only [currentKey, tenantOf, tells, ht]
    rw [hact, idleAct]
    cases t.idleAction with
    | park =>
      dsimp only
      rw [idlePark, ← hkey 0x0050 (leBytes 8 t.parkOffset ++ leBytes 8 t.parkStride ++ leBytes 8 t.parkTtl ++ leBytes 1 1)] <;> rfl
    | condense => rfl
    | drop => rfl
  · have hx : exec (.parkExpiry q.h) s = .next (if leads s q.part then expireBy s s.boot.dtc q.h else s) := reqRow_live _ hs hq hv
    rw [hx]
    refine ⟨fun hl => congrArg _ ((if_pos hl).trans ?_), fun hl => congrArg _ (if_neg (by simp [hl]))⟩
    simp only [expireBy, hq, hr]
    exact if_pos (by simp [hc, hle])
  · refine (reqRow_live _ hs hq hv).trans ?_
    simp only [hk]
    exact congrArg _ (if_pos hlt)
  · intro u v
    have hx : exec (.parkComplete ⟨q.h, ecc⟩) s = .next (ownPark s q.h true) := by
      refine (reqRow_live _ hs hq hv).trans ?_
      simp only [hk]
      exact congrArg _ ((if_neg (not_lt.2 hle)).trans (if_pos (by simp [hbar, hst])))
    have hp : ownPark s q.h true = if spans s q.part then settlePark (report s q.part q.h .parked) q.h else finishPark s q.h := by
      simp only [ownPark, hq, if_true]
    rw [hx, hp]
    refine ⟨fun hsp => congrArg _ (if_pos hsp), fun hsp hw => ?_, fun c hsp hw => ?_⟩
    all_goals rw [if_neg (by simp [hsp]), finishPark_eq hq hk, hw]
  · intro u v
    have hx : exec (.parkAbandon ⟨q.h, part⟩) s = .next (if parkFailed v q.h then ownPark v q.h false else v) := by
      refine (reqRow_live _ hs hq hv).trans ?_
      have hu : (match part with
          | some n => if n < k.written && decide (k.tries < 3) then rewritePart s q.h n else s
          | none => s) = u := by
        cases part with
        | none => rfl
        | some n => simp only [u, Bool.and_eq_true, decide_eq_true_eq]
      simp only [hk, v, ← hu] <;> rfl
    rw [hx]
    refine ⟨fun hf => congrArg _ (if_neg (by simp [hf])), fun x y hf hx hy => ?_⟩
    have hp : ownPark v q.h false = if spans v x.part then settlePark (report v x.part q.h .parkFails) q.h else abandonPark v q.h := by
      simp [ownPark, hx]
    rw [if_pos hf, hp]
    refine ⟨fun hsp => congrArg _ (if_pos hsp), fun hsp => congrArg _ ((if_neg (by simp [hsp])).trans (abandonPark_eq hx hy))⟩
  · intro u
    have hu := chargeEntry_wantsKept s q
    have huq : reqOf u q.h = some q := (chargeEntry_reqOf s q q.h).trans hq
    refine ⟨fun b f app fdl tdl acc hc hw => ?_, fun hsp => ?_, fun hc ht => ?_⟩
    · intro r v
      have hr : WantsKept s r := (hu.trans (restoreStream_wantsKept _ _ _ _)).trans (restoreStream_wantsKept _ _ _ _)
      obtain ⟨y, hy, hyw, hyc⟩ := hr.req q.h q hq
      have hx : exec (.resumeComplete q.h entry) s = .next (ownResume r q .resumed) := by
        refine (reqRow_live _ hs hq hv).trans ?_
        simp only [hc] <;> rfl
      rw [hx, ownResume, hr.spans]
      refine ⟨fun hsp => congrArg _ (if_pos hsp), fun hsp => congrArg _ ((if_neg (by simp [hsp])).trans ?_)⟩
      have hend : resumeEnd r q.h .resumed = resumeDone r q.h := by simp only [resumeEnd, hy]
      rw [hend, resumeDone_eq hy (hyw.trans hw), hyc] <;> rfl
    · intro fails
      have hown : ∀ k, ownResume u q k = resumeEnd u q.h k := fun k => by
        rw [ownResume, hu.spans, if_neg (by simp [hsp])]
      refine ⟨fun hc => ?_, fun hc => ?_, fun hc ht => ?_⟩
      · refine (reqRow_live _ hs hq hv).trans ?_
        simp only [hc]
        rw [hown, resumeEnd, huq] <;> rfl
      · refine (reqRow_live _ hs hq hv).trans ?_
        simp only [hc]
        rw [hown, resumeEnd, huq]
        exact congrArg _ (failResume_eq _ _ _)
      · refine (reqRow_live _ hs hq hv).trans ?_
        simp only [hc, resumeReadFails, if_neg (not_lt.2 ht)]
        rw [hown, resumeEnd, huq]
        exact congrArg _ (failResume_eq _ _ _)
    · refine (reqRow_live _ hs hq hv).trans ?_
      simp only [hc]
      exact congrArg _ (if_pos ht)

end Sys2Proof.Machine
end

section
/-! SUPPORT. Capsules, replays and output buffers (R195, R198, R201, R370, R394, R396). -/

namespace Sys2Proof.Machine

/-! ### CAPSULE_EXPORT, REPLAY_START and REPLAY_STATUS (R195, R198, R201) -/

theorem ask_fromHost (s : State) (fn : Nat) (via : Via) (cmd : Bytes) : fromHost (ask s fn via cmd) = true := by
  cases via <;> rfl

theorem capsuleMayStart_of {s : State} {fn : Nat} {via : Via} {cmd : Bytes} (ha : Accepts s fn via cmd)
    (h : mayStart (partOf s (rd cmd 6 1)) 3 = true) : capsuleMayStart s fn via = true := by
  obtain ⟨⟨_, _, hm⟩, _⟩ := ha
  simp only [capsuleMayStart, hm, h]

/-- A capsule asked for by the ring's owner is appended to those that wait; its SEAL is written at once unless a plan or
another SEAL takes it (R195). -/
theorem exportMsg_owned {u : State} {m : Taken} {q : Req} (hown : q.ownsRing = true) :
    let t := updReq u q.h fun x => { x with exports := x.exports ++ [m.ctx] }
    (planned u q = true ∨ (∃ w ∈ q.jrn.waiting, w.ty = 9) → exportMsg u m q = t) ∧
    (planned u q = false → (∀ w ∈ q.jrn.waiting, w.ty ≠ 9) →
      exportMsg u m q = jrnOut t q.h [{ kind := .interim, ty := 9, len := 56, body := [] }]) := by
  intro t
  have hm : exportMsg u m q = if planned u q || q.jrn.waiting.any (fun w => w.ty == 9) then t
      else jrnOut t q.h [{ kind := .interim, ty := 9, len := 56, body := [] }] := if_neg (by simp [hown])
  refine ⟨fun hw => hm.trans (if_pos ?_), fun hp hw => hm.trans (if_neg ?_)⟩
  · obtain hp | ⟨w, hw, h9⟩ := hw
    · simp [hp]
    · simpa using .inr ⟨w, hw, h9⟩
  · simpa [hp] using hw

/-- A REPLAY_START that passes its field checks charges the regulator and answers the first check of Table CAP-9 that fails. -/
theorem startReplay_passes {u : State} {m : Taken} {t : Tenant} {capsule : ReadResult}
    (hz : bodyZero m.cmd [(8, 2), (16, 16)] = true)
    (hk : rd m.cmd 9 1 < 2) (hn : rd m.cmd 24 8 % 64 = 0) (hst : (partOf u m.ctx.part).st = .active) (ht : tenantOf u m.ctx.tenant = some t)
    (hp : t.part = m.ctx.part) :
      let v := charge u m.ctx.part 3 (rd m.cmd 24 8)
      let got := if winOk v m.fn (winNo m.ctx.part (rd m.cmd 8 1)) 0 (rd m.cmd 16 8) (rd m.cmd 24 8) then
        descBytes (rd m.cmd 24 8) capsule else none
      (∀ k, checkReplay v m got t = (k, none) → startReplay capsule u m = refuse v m.ctx k) ∧
      ∀ k o q n, checkReplay v m got t = (k, some (o, q, n)) →
        startReplay capsule u m = respond (acceptReplay (relay v m q.h (got.getD [])) q o n) m.ctx .success (leBytes 4 q.replayId) := by
  intro v got
  have h1 : ¬ (!bodyZero m.cmd [(8, 2), (16, 16)] || !decide (rd m.cmd 9 1 < 2) || rd m.cmd 24 8 % 64 != 0) = true := by simp [hz, hk, hn]
  simp only [startReplay, if_neg h1, hst, ht, hp, bne_self_eq_false, Bool.false_eq_true, if_false]
  refine ⟨fun k hc => ?_, fun k o q n hc => ?_⟩
  · rw [show checkReplay _ _ _ _ = (k, none) from hc] <;> rfl
  · rw [show checkReplay _ _ _ _ = (k, some (o, q, n)) from hc] <;> rfl

theorem statusMsg_passes {u : State} {m : Taken} (hz : bodyZero m.cmd [(8, 4), (16, 8)] = true) (h64 : rd m.cmd 16 8 % 64 = 0)
    (hst : (partOf u m.ctx.part).st ≠ .disabled) : statusMsg u m =
      match (partOf u m.ctx.part).replayStats.find? fun r => r.id == rd m.cmd 8 4 && (m.fn == 0 || r.tenant == m.ctx.tenant) with
      | none => refuse u m.ctx .unknownReplay
      | some r => respond (if rd m.cmd 16 8 = 0 || !fromHost m then u
          else issueBarrier (issue u { fn := m.fn, kind := .output, addr := rd m.cmd 16 8, data := divergence r }) m.fn .none)
            m.ctx .success (statusBody r) :=
  (if_neg (by simp [hz, aligned64, h64])).trans (if_neg (by simp [hst]))

/-- Settles O49: exports by what their handle names, replays by the first check that fails, and a replay's status. -/
theorem capsulesAreExportedAndReplayed : Obligations.CapsulesAreExportedAndReplayed := by
  unfold Obligations.CapsulesAreExportedAndReplayed
  refine ⟨fun s fn via cmd ha ho hz hst => ?_, fun s fn via cmd t capsule ha ho hg hms hz hk hn hst ht htp => ?_,
    fun s fn via cmd ha ho hg hz h64 hst => ?_⟩
  · have hx : exec (.capsuleExport fn via) s = .next (withHandle true [(8, 8)] (fun st => st != .disabled) exportMsg exportGone
        (took s fn via cmd) (ask s fn via cmd)) := exec_accepts rfl ha (by simp [isOp, ho]) rfl
    have hcmd : (ask s fn via cmd).cmd = cmd := ask_cmd s fn via cmd
    have hpart : (ask s fn via cmd).ctx.part = rd cmd 6 1 := ask_ctx_part s fn via cmd
    have hok : (fun st : PartState => st != .disabled) (partOf (took s fn via cmd)
        (ask s fn via cmd).ctx.part).st = true := by simpa [hpart] using hst
    have hz' : bodyZero (ask s fn via cmd).cmd [(8, 8)] = true := by rwa [hcmd]
    intro c u found
    have hu : lapse true (took s fn via cmd) (ask s fn via cmd).ctx.accept (ask s fn via cmd).ctx.part (rd (ask s fn via cmd).cmd 8 8) = u := by
      rw [hpart, hcmd] <;> rfl
    have hfind : found = findHandle (lapse true (took s fn via cmd) (ask s fn via cmd).ctx.accept (ask s fn via cmd).ctx.part
        (rd (ask s fn via cmd).cmd 8 8)) (ask s fn via cmd) (rd (ask s fn via cmd).cmd 8 8) := by rw [hu, hcmd]
    rw [hfind, hx]
    clear_value found
    refine ⟨fun q hq hown => ?_, fun e he hown => ?_, fun e he hown => ?_, fun hu' => ?_⟩
    · rw [withHandle_live hz' hok hq, hu]
      clear_value u
      obtain ⟨h1, h2⟩ := exportMsg_owned (u := u) (m := ask s fn via cmd) hown
      exact ⟨fun h => congrArg _ (h1 h), fun h h' => congrArg _ (h2 h h')⟩
    · rw [withHandle_ended hz' hok he, hu]
      exact congrArg _ (if_pos (by simp [hown]))
    · rw [withHandle_ended hz' hok he, hu]
      exact congrArg _ (if_neg (by simp [hown]))
    · rw [withHandle_unknown hz' hok hu', hu]
      rfl
  · intro p m u got
    have hx : exec (.replayStart fn via capsule) s = .next (startReplay capsule (took s fn via cmd) m) :=
      (if_pos (capsuleMayStart_of ha hms)).trans ((msgRow_accepts _ ha (by simp [isOp, ho])).trans (congrArg _ (classF_here hg)))
    obtain ⟨h1, h2⟩ := startReplay_passes (u := took s fn via cmd) (m := m) (capsule := capsule) (t := t) (by simpa [m] using hz)
      (by simpa [m] using hk) (by simpa [m] using hn) (by simpa [m] using hst) (by simpa [m] using ht) (by simpa [m] using htp)
    rw [show m.ctx.part = p from ask_ctx_part s fn via cmd, show m.cmd = cmd from ask_cmd s fn via cmd,
      show m.fn = fn from ask_fn s fn via cmd] at h1 h2
    rw [hx]
    exact ⟨fun k hc => congrArg _ (h1 k hc), fun k o q n hc => congrArg _ (h2 k o q n hc)⟩
  · intro u c seen
    have hx : exec (.replayStatus fn via) s = .next (statusMsg u (ask s fn via cmd)) :=
      exec_accepts rfl ha (by simp [isOp, ho]) (classF_here hg)
    have hs : seen = (partOf u (ask s fn via cmd).ctx.part).replayStats.find? fun r =>
        r.id == rd (ask s fn via cmd).cmd 8 4 && ((ask s fn via cmd).fn == 0 || r.tenant == (ask s fn via cmd).ctx.tenant) := by
      simp [seen, u]
    rw [hx, statusMsg_passes (m := ask s fn via cmd) (by simpa using hz) (by simpa using h64) (by simpa [u] using hst), ← hs]
    refine ⟨fun h => ?_, fun r h => ?_⟩
    · rw [h] <;> rfl
    · rw [h]
      refine ⟨fun h0 => ?_, fun h0 => ?_⟩
      · simp only [ask_cmd, h0, decide_true, Bool.true_or, if_true]
        rfl
      · simp only [ask_cmd, ask_fn, h0, decide_false, Bool.false_or, ask_fromHost, Bool.not_true, Bool.false_eq_true, if_false]
        rfl

/-! ### TELEMETRY_READ, ACCOUNTING_READ and SPDM_TRANSPORT (R370, R394, R396) -/

theorem telemetryMsg_passes {u : State} {m : Taken} (hz : bodyZero m.cmd [(8, 2), (12, 20)] = true) (h64 : rd m.cmd 16 8 % 64 = 0)
    (h16 : rd m.cmd 12 4 % 16 = 0) (hlo : 1 ≤ rd m.cmd 8 2) (hhi : rd m.cmd 8 2 ≤ 6) (hsel : rd m.cmd 8 2 = 3 ∨ rd m.cmd 24 8 = 0) :
    telemetryMsg u m = output u m (match pageFor u (readerOf u m) (rd m.cmd 8 2) (rd m.cmd 24 8) with
      | some rs => pageBytes u (rd m.cmd 8 2) rs | none => []) (rd m.cmd 16 8) (rd m.cmd 12 4) := by
  rw [telemetryMsg, if_neg (by simpa [hz, outOk, aligned64, h64, h16, hlo, hhi, or_iff_not_imp_left] using hsel)] <;> rfl

theorem accountingMsg_passes {u : State} {m : Taken} (hz : bodyZero m.cmd [(8, 2), (12, 12)] = true)
    (h64 : rd m.cmd 16 8 % 64 = 0)
    (h16 : rd m.cmd 12 4 % 16 = 0) (hst : (partOf u m.ctx.part).st ≠ .disabled)
    (hknown : rd m.cmd 8 2 = 0xFFFF ∨ (∃ x, readerOf u m = some x ∧ rd m.cmd 8 2 = x.1) ∨
      readerOf u m = none ∧ ∃ t, tenantOf u (rd m.cmd 8 2) = some t ∧ t.part = m.ctx.part) :
    accountingMsg u m = output u m (pageBytes u 0x10 (page10 u (readerOf u m) m.ctx.part (rd m.cmd 8 2))) (rd m.cmd 16 8) (rd m.cmd 12 4) := by
  rw [accountingMsg, if_neg (by simp [hz, outOk, aligned64, h64, h16]), if_neg (by simpa using hst), if_neg]
  obtain h | ⟨x, hx, h⟩ | ⟨hx, t, ht, htp⟩ := hknown
  · cases hr : readerOf u m <;> simp [h]
  · simp [hx, h]
  · simp [hx, ht, htp]

/-- An SPDM request that passes its field checks is BUSY where one is pending, and else answered if it could be read. -/
theorem spdm_passes {u : State} {m : Taken} (r : ReadResult) (hz : bodyZero m.cmd [(8, 24)] = true)
    (hn : 1 ≤ rd m.cmd 16 4 ∧ rd m.cmd 16 4 ≤ 4096)
    (hc : 64 ≤ rd m.cmd 20 4 ∧ rd m.cmd 20 4 ≤ 4096) :
    spdm r u m = if (fnOf u m.fn).spdmPending then refuse u m.ctx .busy else match descBytes (rd m.cmd 16 4) r with
      | none => refuse u m.ctx .descFault
      | some bs =>
        let out := (spdmOut u m.fn bs).take (rd m.cmd 20 4)
        issueBarrier (issue (updFn { u with freeCtr := u.freeCtr + 1 } m.fn fun f =>
          { f with session := if spdmAnswered u bs then spdmSession f.session bs u.freeCtr else f.session, spdmPending := true })
          { fn := m.fn, kind := .output, addr := rd m.cmd 24 8, data := out }) m.fn (.output m.ctx out.length (leBytes 4 out.length)) := by
  rw [spdm, if_neg (by simp [hz, hn, hc])] <;> rfl

/-- Settles O50: pages and answers are written to the output buffer behind a barrier. -/
theorem outputsAreWrittenBehindABarrier : Obligations.OutputsAreWrittenBehindABarrier := by
  unfold Obligations.OutputsAreWrittenBehindABarrier
  refine ⟨fun s fn via cmd ha => ?_, fun s fn via cmd req ha ho hz hn1 hn2 hc1 hc2 hlen => ?_⟩
  · intro u c written
    have hw : ∀ data addr len, output u (ask s fn via cmd) data addr len = written data addr len := fun data addr len => by
      simp only [output, written, u, c, took_boot, ask_fn, ask_ctx]
    refine ⟨fun ho hz h64 h16 hlo hhi hsel => ?_, fun ho hz h64 h16 hst hknown => ?_⟩
    · have hm := telemetryMsg_passes (u := u) (m := ask s fn via cmd) (by simpa using hz) (by simpa using h64) (by simpa using h16)
        (by simpa using hlo) (by simpa using hhi) (by simpa using hsel)
      rw [hw, ask_cmd] at hm
      exact exec_accepts rfl ha (by simp [isOp, ho]) hm
    · have hm := accountingMsg_passes (u := u) (m := ask s fn via cmd) (by simpa using hz) (by simpa using h64) (by simpa using h16)
        (by simpa [u] using hst) (by simpa [u] using hknown)
      rw [hw, ask_cmd, ask_ctx_part] at hm
      exact exec_accepts rfl ha (by simp [isOp, ho]) hm
  · intro u c
    have hx : ∀ r, exec (.spdmTransport fn via r) s = .next (spdm r u (ask s fn via cmd)) := fun r =>
      exec_accepts rfl ha (by simp [isOp, ho]) rfl
    have hm := fun r => spdm_passes (u := u) (m := ask s fn via cmd) r (by simpa using hz) (by simpa using ⟨hn1, hn2⟩) (by simpa using ⟨hc1, hc2⟩)
    simp only [ask_fn, ask_cmd, ask_ctx] at hm
    simp only [hx, hm]
    refine ⟨fun hp => by rw [if_pos hp] <;> rfl, fun hp => ?_⟩
    simp only [hp, Bool.false_eq_true, if_false, descBytes_exact hlen]
    exact ⟨rfl, rfl⟩

end Sys2Proof.Machine
end

section
/-! SUPPORT. Plans frozen, placed and committed (R108, R120, R277, R282, R322). -/

namespace Sys2Proof.Machine

/-! ### Freezing, placing and committing a plan (R108, R120, R277, R282, R322) -/

theorem mayGrant_claim {s : State} {p : Nat} (h : mayGrant s p = true) : isClaim s p = true ∧ clustersFree s p = true := by
  simp only [mayGrant, Bool.and_eq_true] at h
  exact ⟨h.1.1.2, h.1.2⟩

/-- A partition whose cluster is held, or behind an earlier claim of its TIME set, may not be granted (R277, R280). -/
theorem mayGrant_held {s : State} {p : Nat} (h : ∃ c ∈ clusterSet (partOf s p).items, (clusterOf s c).holder ≠ none) :
    mayGrant s p = false := by
  obtain ⟨c, hc, hh⟩ := h
  refine Bool.eq_false_iff.2 fun hg => hh ?_
  have hf := (mayGrant_claim hg).2
  simp only [clustersFree, List.all_eq_true, Bool.and_eq_true, Option.isNone_iff_eq_none] at hf
  exact (hf c hc).1

theorem mayGrant_behind {s : State} {p : Nat} (ht : (partOf s p).items.time = true)
    (h : ∃ q, q ∈ (turnOrder s (timeSet s p)).takeWhile (· != p) ∧ isClaim s q = true ∧ clustersFree s q = true) : mayGrant s p = false := by
  obtain ⟨q, hq, h1, h2⟩ := h
  refine Bool.eq_false_iff.2 fun hg => ?_
  simp only [mayGrant, ht, Bool.not_true, Bool.false_or, Bool.and_eq_true, List.all_eq_true] at hg
  simpa [h1, h2] using hg.2 q hq

theorem placed_here {s : State} {p : Nat} (h : groupTurns s p = true → leads s p = true) : placed s p = mayGrant s p := by
  refine if_neg ?_
  cases hg : groupTurns s p with
  | false => simp
  | true => simp [h hg]

theorem sendTurn_linkOnly (s : State) (p method point : Nat) : LinkOnly s (sendTurn s p method point) := by
  unfold sendTurn
  split
  · split
    · exact sendOthers_linkOnly _ _ _ _
    · exact linkOnly_refl s
  · exact linkOnly_refl s

theorem grantClaim_fresh {t : State} {p : Nat} {a : Attempt} (ha : (partOf t p).attempt = some a) (hph : a.phase = .claim)
    (hr : a.plan.rows ≠ []) :
    grantClaim t p = grantFresh t p a := by
  simp only [grantClaim, ha]
  exact (if_neg (by simp [hph])).trans (if_neg (by simpa using hr))

/-- The leader's commit of an attempt at DTC c: the members are released with the cut, and the next plan is frozen (R120, R122). -/
def commitAt (s : State) (p : Nat) (a : Attempt) (c : Nat) : State :=
  let cut := cutHandles s a c
  let body := leBytes 8 c ++ cut.flatMap (leBytes 8)
  let s := if spans s p then
    sendOthers s (partOf s p).items.groupSize 0 (linkHeader 0x04 0x03 body.length p 0 0 (hubTag s p a) cut.length ++ body) else s
  nextPlan (commitItems s p c cut) p c

/-- Settles O51: when a plan is frozen, placed, joined, noted ready and committed. -/
theorem stepsFreezeAndCommit : Obligations.StepsFreezeAndCommit := by
  unfold Obligations.StepsFreezeAndCommit
  intro s p hp hl x
  refine ⟨fun f hf hna hcf => ?_, fun a ha hph hr hlead => ?_, fun pieces hlead hsp hst hpk => ?_,
    fun a port member entries ha hport hlead hph hpk => ?_, fun a ha hph hpk => ⟨fun hlead hlink => ?_, fun hlead body => ?_⟩⟩
  · have hrow : exec (.idleFreeze p) s = .next (if (partOf s p).attempt.isNone && canFreeze s p && decide (f ≤ s.boot.dtc) then
        freeze s p f 0 else s) := by
      refine (partRow_next _ hp hl).trans ?_
      rw [hf] <;> rfl
    rw [hrow]
    exact ⟨fun h => congrArg _ (if_pos (by simp [show (partOf s p).attempt = none from hna, hcf, h])),
      fun h => congrArg _ (if_neg (by simp [h]))⟩
  · have hrow : exec (.stepPlace p) s = .next (if !mayGrant s p then s else grantClaim (if groupTurns s p then sendTurn s p 0 0 else s) p) := by
      refine (partRow_next _ hp hl).trans (congrArg _ ?_)
      rw [placed_here hlead, show (partOf s p).attempt = some a from ha]
      simp only [hph, beq_self_eq_true, if_true]
    have hstay : mayGrant s p = false → exec (.stepPlace p) s = .next s := fun h => hrow.trans (congrArg _ (if_pos (by simp [h])))
    refine ⟨fun hg => hrow.trans (congrArg _ ((if_neg (by simp [hg])).trans (grantClaim_fresh ?_ hph hr))), fun h => hstay (mayGrant_held h),
      fun h ht => hstay (mayGrant_behind ht h)⟩
    have hlo : LinkOnly s (if groupTurns s p then sendTurn s p 0 0 else s) := by
      split
      · exact sendTurn_linkOnly _ _ _ _
      · exact linkOnly_refl s
    rw [hlo] <;> exact ha
  · have hrow : exec (.stepSyncPlan p pieces) s = .next ((planMsgs pieces.length pieces).foldl (fun t m => planPiece t p m)
        (match (partOf s p).attempt with
          | some a => if a.phase == .killing && a.reclaims.isEmpty then completeKill s p else s
          | none => s)) :=
      (partRow_next _ hp hl).trans (congrArg _ (if_neg (by simpa [hlead, hsp, hpk] using hst)))
    rw [hrow]
    refine ⟨fun a ha hph hre => ?_, fun h => ?_⟩
    · rw [show (partOf s p).attempt = some a from ha]
      simp [hph, hre]
    · cases ha : (partOf s p).attempt with
      | none => rfl
      | some a =>
        have hn : ¬ (a.phase == .killing && a.reclaims.isEmpty) = true := by simpa using h a ha
        simp only [if_neg hn]
  · refine (if_pos hport).trans ((partRow_next _ hp hl).trans (congrArg _ ?_))
    rw [show (partOf s p).attempt = some a from ha]
    exact if_neg (by obtain h | h := hph <;> simp [hlead, h, hpk])
  · have hrow : exec (.stepCommit p) s = .next (if a.phase != .ready || !leads s p || s.flt.pkg != .serving || !s.host.linkUp || !allReady s p a then s
        else match residue s a with
          | some c => doubt s 0x09 p c 0
          | none => commitAt s p a (max s.boot.dtc (s.host.lastAccept + 1))) := by
      refine (partRow_next _ hp hl).trans ?_
      rw [show (partOf s p).attempt = some a from ha] <;> rfl
    rw [hrow]
    refine ⟨fun h => congrArg _ (if_pos (by simp [h])), fun h => ?_⟩
    rw [if_neg (by simp [hph, hlead, hpk, hlink, h])]
    refine ⟨fun c hc => by rw [hc], fun hc => ?_⟩
    rw [hc]
    exact ⟨fun h => by simp only [commitAt, h, Bool.false_eq_true, if_false], fun h => by simp only [commitAt, h, if_true]; rfl⟩
  · refine (partRow_next _ hp hl).trans (congrArg _ ?_)
    rw [show (partOf s p).attempt = some a from ha]
    exact if_neg (by simp [hph, hlead, hpk])

end Sys2Proof.Machine
end

section
/-! SUPPORT. Kills and re-runs (R228, R292, R324). -/

namespace Sys2Proof.Machine

/-! ### What a kill leaves of the partitions (R228, R292, R324) -/

theorem part_lt_of_attempt {s : State} {p : Nat} {a : Attempt} (h : (partOf s p).attempt = some a) : p < s.parts.length := by
  by_contra hp
  rw [partOf, List.getD_eq_default _ _ (not_lt.1 hp)] at h
  cases h

@[simp] theorem updPart_count (s : State) (p : Nat) (f : Part → Part) : (updPart s p f).parts.length = s.parts.length := by
  simp [updPart, modAt]

theorem foldl_parts {α : Type} {f : State → α → State} (hf : ∀ t a, (f t a).parts = t.parts) (l : List α) (s : State) :
    (l.foldl f s).parts = s.parts :=
  foldl_keeps (R := fun s t => t.parts = s.parts) (fun _ => rfl) (fun h g => g.trans h) hf l s

theorem addPins_parts (s : State) (q : Req) (k : Int) : (addPins s q k).parts = s.parts := by
  rw [addPins, foldl_parts]
  exact fun _ _ => rfl

theorem dropProvisional_parts (s : State) (p : Nat) (hs : List Nat) : (dropProvisional s p hs).parts = s.parts := by
  refine foldl_parts (fun t h => ?_) hs s
  split
  · split
    · exact addPins_parts _ _ _
    · rfl
  · rfl

theorem reserveAll_parts (s : State) (rs : List (Nat × Nat)) (k : Int) : (reserveAll s rs k).parts = s.parts := by
  rw [reserveAll, foldl_parts]
  exact fun _ _ => rfl

theorem takePins_parts (s : State) (rows : List PlanRow) : (takePins s rows).parts = s.parts := by
  refine foldl_parts (fun t h => ?_) _ s
  split
  · split
    · exact addPins_parts _ _ _
    · rfl
  · rfl

theorem freeClusters_parts (s : State) (cs : List Nat) : (freeClusters s cs).parts = s.parts := by
  rw [freeClusters, foldl_parts]
  exact fun _ _ => rfl

theorem releaseAttempt_count (s : State) (p : Nat) (a : Attempt) : (releaseAttempt s p a).parts.length = s.parts.length := by
  rw [releaseAttempt, dropProvisional_parts, reserveAll_parts]
  obtain ⟨_, g, hg, _⟩ := freeFrames_poolOnly (a.clusters.foldl (fun t c =>
    putCluster (dropClusterPermits t c) { idleCluster c with holder := (clusterOf t c).holder }) s) a.shelfFrames
  rw [hg, List.length_map, foldl_parts]
  exact fun _ _ => rfl

theorem countPreempt_count (s : State) (p : Nat) (a : Attempt) (kill : Bool) :
    (countPreempt s p a kill).parts.length = s.parts.length := by
  unfold countPreempt
  split
  · rfl
  · dsimp only
    rw [foldl_parts, updPart_count]
    exact fun _ _ => rfl

theorem LinkOnly.parts {s t : State} (h : LinkOnly s t) : t.parts = s.parts := by rw [h]

theorem breakSems_count (s : State) (p : Nat) : (breakSems s p).parts.length = s.parts.length := by
  refine (congrArg List.length (LinkOnly.parts (foldl_linkOnly (fun t m => ?_) _ _))).trans (updPart_count _ _ _)
  split
  · exact sendOthers_linkOnly _ _ _ _
  · exact linkOnly_refl t

theorem openReclaim_parts (s : State) (p tag n : Nat) : (openReclaim s p tag n).parts = s.parts := rfl

theorem reclaimPort_parts (s : State) (p tag member n : Nat) : (reclaimPort s p tag member n).parts = s.parts :=
  (portSend_linkOnly _ _ _ _).parts

/-- A kill of an attempt that is not being killed leaves it KILLING, with the re-run of its cause and a reclaim to come from each port used. -/
theorem killStart_attempt {s : State} {p reason : Nat} {rr : Rerun} {a : Attempt} (ha : (partOf s p).attempt = some a)
    (hph : a.phase ≠ .killing) :
    (partOf (killStart s p reason rr false) p).attempt = some
      { a with phase := .killing, rerun := rr, reclaims := a.used, staged := [], sampled := [], twins := [], uSums := [], amRead := [],
               satRows := [], condVecs := [], shelf := [], shelfFrames := [] } := by
  simp only [killStart, ha]
  rw [if_neg (by simpa using hph)]
  simp only [Bool.false_and, Bool.false_eq_true, if_false]
  rw [partOf_updPart_same]
  rw [foldl_parts (fun t n => reclaimPort_parts t p _ _ n), foldl_parts (fun t n => openReclaim_parts t p _ n), breakSems_count, countPreempt_count, releaseAttempt_count]
  split
  · simpa [closeInterval] using part_lt_of_attempt ha
  · exact part_lt_of_attempt ha

/-- What a completed kill that re-runs the plan leaves: the next attempt as a claim, and no semaphore. -/
theorem completeKill_again {s : State} {p : Nat} {a : Attempt} {esc : Bool} (ha : (partOf s p).attempt = some a)
    (hr : a.rerun = if esc then .escape else .same) :
    (partOf (completeKill s p) p).attempt = some (rerunAttempt a s.boot.dtc esc) ∧ (partOf (completeKill s p) p).sems = [] := by
  have key : ∀ u : State, u.parts.length = s.parts.length →
      let t := markIdlePorts (updPart (freeClusters u a.clusters) p fun x => { x with sems := [], probes := [], attempt := none })
      let v := updPart (takePins (reserveAll t a.plan.reserved 1) a.plan.rows) p fun x => { x with attempt := some (rerunAttempt a s.boot.dtc esc) }
      (partOf v p).attempt = some (rerunAttempt a s.boot.dtc esc) ∧ (partOf v p).sems = [] := by
    intro u hu t v
    have hp : p < (freeClusters u a.clusters).parts.length := by
      rw [freeClusters_parts, hu]
      exact part_lt_of_attempt ha
    have hparts : (takePins (reserveAll t a.plan.reserved 1) a.plan.rows).parts = (updPart (freeClusters u a.clusters) p fun x =>
        { x with sems := [], probes := [], attempt := none }).parts := by
      rw [takePins_parts, reserveAll_parts]
      rfl
    have hv : partOf v p = { partOf (takePins (reserveAll t a.plan.reserved 1) a.plan.rows) p with
        attempt := some (rerunAttempt a s.boot.dtc esc) } := partOf_updPart_same _ _ (by rw [hparts, updPart_count]; exact hp)
    refine ⟨by rw [hv], ?_⟩
    rw [hv, partOf, hparts]
    exact congrArg Part.sems (partOf_updPart_same _ (fun x => { x with sems := [], probes := [], attempt := none }) hp)
  have hu : (if a.clusters.isEmpty then s else closeInterval s p a).parts.length = s.parts.length := by
    split
    · rfl
    · exact updPart_count _ _ _
  have h := key _ hu
  cases esc with
  | false =>
    simp only [completeKill, ha, hr, Bool.false_eq_true, if_false]
    exact h
  | true =>
    simp only [completeKill, ha, hr, if_true]
    exact h

/-- Settles O52: kills by cause and tag, and what their completion leaves. -/
theorem attemptsAreKilledAndRerun : Obligations.AttemptsAreKilledAndRerun := by
  unfold Obligations.AttemptsAreKilledAndRerun
  intro s p hp hl
  have hkill : ∀ c, exec (.stepKill p c) s = .next (if decide (1 ≤ c ∧ c ≤ 6) then killStart s p c (rerunFor c) true else s) :=
    fun c => partRow_next _ hp hl
  refine ⟨fun c h1 h6 => ?_, fun c hc => ?_, fun a ha => ?_⟩
  · intro after
    have hafter : rerunFor c = after := by
      simp only [after]
      interval_cases c <;> rfl
    have hx : exec (.stepKill p c) s = .next (killStart s p c after true) :=
      (hkill c).trans (congrArg _ ((if_pos (by simp [h1, h6])).trans (by rw [hafter])))
    exact ⟨hx, fun hn => by rw [hx, killStart, hn]⟩
  · exact (hkill c).trans (congrArg _ (if_neg (by simp; omega)))
  · have habort : ∀ r t, exec (.stepSyncAbort p r t) s =
        .next (if attemptTag (partOf s p) a == tagAttempt t then killStart s p r (rerunFor r) false else s) := fun r t => by
      refine (partRow_next _ hp hl).trans ?_
      rw [ha]
    have hdone : exec (.killComplete p) s = .next (if a.phase == .killing && a.reclaims.isEmpty then completeKill s p else s) := by
      refine (partRow_next _ hp hl).trans ?_
      rw [ha]
    refine ⟨fun r t h => (habort r t).trans (congrArg _ (if_pos (by simp [h]))),
        fun r t h => (habort r t).trans (congrArg _ (if_neg (by simpa using h))),
      fun hph => ⟨_, killStart_attempt ha hph, rfl, rfl, rfl, rfl, rfl⟩, fun hph hr => hdone.trans (congrArg _ (if_neg (by simpa [hph] using hr))),
      fun hph hr => ⟨hdone.trans (congrArg _ (if_pos (by simp [hph, hr]))), fun h => ?_, fun h => ?_⟩⟩
    · obtain ⟨h1, h2⟩ := completeKill_again (esc := false) ha h
      exact ⟨_, h1, rfl, rfl, rfl, rfl, h2⟩
    · obtain ⟨h1, h2⟩ := completeKill_again (esc := true) ha h
      exact ⟨_, h1, rfl, rfl, rfl, rfl, h2⟩

end Sys2Proof.Machine
end

section
/-! SUPPORT. Turns and shelves (R281, R291, R293 to R295). -/

namespace Sys2Proof.Machine

/-! ### Turns and shelves (R281, R291, R293 to R295) -/

/-- The attempt of a partition row is the one the partition has. -/
theorem turn_attempt {s : State} {p : Nat} {a : Attempt} (ha : (partOf s p).attempt = some a) {f : Part → Part}
    (hf : ∀ x, (f x).attempt = x.attempt) :
    (partOf (updPart s p f) p).attempt = some a := by
  rw [partOf_updPart_same _ _ (part_lt_of_attempt ha), hf, ha]

theorem sendTurn_alone {s : State} {p : Nat} (m i : Nat) (h : spans s p = false) : sendTurn s p m i = s := by
  unfold sendTurn
  split
  · exact if_neg (by simp [h])
  · rfl

/-- A shelve begins on the way to the next cheap point of the running layout (R293). -/
theorem beginShelve_next {s : State} {p : Nat} {a : Attempt} {slot : Nat} {l : Layout} {m : Model} {c : CheapPt}
    (ha : (partOf s p).attempt = some a) (hs : spans s p = false) (hl : runningLayout s p a = some (slot, l))
        (hm : modelAt (partOf s p) slot = some m)
    (hc : nextCheap l (layersDone s a) = some c) : beginShelve s p none = updAtt s p fun b =>
      { b with phase := .shelving, cheap := some c.id, shelveBy := s.boot.dtc + 2 * tReach a m.prog.layers c.layer (layersDone s a) + 10000 } := by
  simp only [beginShelve, ha, hl, hm, hc, sendTurn_alone 2 c.id hs]

/-- What a pre-emption by turn does where the partition's turn is wanted and it is not guarded (R281, R291). -/
theorem exec_turnPreempt {s : State} {p : Nat} {a : Attempt} (hp : p < 8) (hl : Live s) (ha : (partOf s p).attempt = some a)
    (ht : (partOf s p).items.time = true) (hq : ∃ q, q < 8 ∧ q ≠ p ∧ overlap s p q = true ∧ isClaim s q = true) (hph : a.phase = .run)
    (hd : a.grantedAt + (partOf s p).items.quantum ≤ s.boot.dtc) (hg : groupTurns s p = true → leads s p = true) :
    exec (.turnPreempt p) s = .next (if a.guarded then s else preempt s p true) := by
  refine (partRow_next _ hp hl).trans ?_
  rw [ha]
  have hw : ((List.range 8).any fun q => q != p && overlap s p q && isClaim s q) = true := by simpa [and_assoc] using hq
  have hgl : (groupTurns s p && !leads s p) = false := by
    cases h : groupTurns s p with
    | false => rfl
    | true => simp [hg h]
  simp only [ht, hw, hgl, hph, not_lt.2 hd, Bool.not_true, Bool.false_or, bne_self_eq_false, decide_false, Bool.or_false]

theorem tellCheap_alone {s : State} {p : Nat} (a : Attempt) (h : spans s p = false) : tellCheap s p a = s := if_neg (by simp [h])

/-- A shelf whose one frame has another digest is bad (R295). -/
theorem shelfBad_one {s : State} {a : Attempt} {n : Nat} {f : Frame} (ha : a.shelfFrames = [n]) (hf : frameOf s n = some f)
    (hd : f.digest ≠ sha256 (shelfChunk a 0)) : shelfBad s a = some n := by
  simp [shelfBad, ha, hf, hd]

theorem foldl_boot {α : Type} {f : State → α → State} (hf : ∀ t a, (f t a).boot = t.boot) (l : List α) (s : State) :
    (l.foldl f s).boot = s.boot :=
  foldl_keeps (R := fun s t => t.boot = s.boot) (fun _ => rfl) (fun h g => g.trans h) hf l s

theorem freeClusters_boot (s : State) (cs : List Nat) : (freeClusters s cs).boot = s.boot := by
  rw [freeClusters, foldl_boot]
  exact fun _ _ => rfl

theorem countPreempt_boot (s : State) (p : Nat) (a : Attempt) (kill : Bool) : (countPreempt s p a kill).boot = s.boot := by
  unfold countPreempt
  split
  · rfl
  · dsimp only
    rw [foldl_boot]
    · rfl
    · exact fun _ _ => rfl

/-- Settles O53: pre-emption by turn, the shelve to its end, and a turn of the leader. -/
theorem attemptsAreShelvedAndTurned : Obligations.AttemptsAreShelvedAndTurned := by
  unfold Obligations.AttemptsAreShelvedAndTurned
  intro s p a hp hl ha x
  refine ⟨fun ht hq hph hd hg => ?_, fun hs hph hat hcl hev => ?_, fun slot l c hs hph hat hcl hlay hc => ?_, fun hph => ?_, fun hph => ?_,
    fun hph hg hgt => ?_, fun arg hlead hpk => ?_⟩
  · have hx := exec_turnPreempt hp hl ha ht hq hph hd hg
    refine ⟨fun h => ?_, fun h hk hs => ?_, fun slot m l c h hk hs hlay hm hc => ?_⟩
    · rw [hx, if_pos h]
    · rw [hx, if_neg (by simp [h])]
      simp only [preempt, ha, show (partOf s p).items.preempt = .kill from hk, hph, preemptKill, sendTurn_alone _ _ hs, bne_self_eq_false,
        Bool.false_eq_true, if_false, if_true]
    · rw [hx, if_neg (by simp [h])]
      simp only [preempt, ha, show (partOf s p).items.preempt = .shelve from hk, hph, beginShelve_next ha hs hlay hm hc, bne_self_eq_false,
        Bool.false_eq_true, if_false, if_true]
  · have hrow : exec (.shelveCheapPointClean p) s = .next (tellCheap s p a) := by
      refine (partRow_next _ hp hl).trans ?_
      rw [ha]
      simp only [hph, hat, hcl, beq_self_eq_true, Bool.and_true, if_true, hev, Bool.not_false, Bool.or_true]
    exact hrow
  · intro t k
    have hce : cheapEverywhere s p a = true := by simp [cheapEverywhere, hs]
    have hrow : exec (.shelveCheapPointClean p) s = .next (if usableFree t p < k then downgrade t p else match openFrames t p .transit .shelf k with
        | none => downgrade t p
        | some (fs, u) => updAtt (handRuns u p (wholeRuns fs)) p fun b =>
            { b with phase := .sintering, shelf := liveRanges s a c, shelfFrames := fs,
                     shelfInvs := match a.clusters.head? with | some n => (clusterOf s n).invs | none => [] }) := by
      refine (partRow_next _ hp hl).trans ?_
      rw [ha]
      simp only [hph, hat, hcl, beq_self_eq_true, Bool.and_true, if_true, tellCheap_alone a hs, hce, bne_self_eq_false, Bool.not_true, Bool.or_false,
        Bool.false_eq_true, if_false, hlay, hc]
      rfl
    rw [hrow]
    refine ⟨fun h => by rw [if_pos h], fun fs u h hf => ?_⟩
    rw [if_neg (not_lt.2 h), hf] <;> rfl
  · have hrow : exec (.shelveTimeout p) s = .next (if a.phase == .shelving && decide (a.shelveBy ≤ s.boot.dtc) then downgrade s p else s) := by
      refine (partRow_next _ hp hl).trans ?_
      rw [ha]
    exact ⟨fun h => hrow.trans (congrArg _ (if_pos (by simp [hph, h]))), fun h => hrow.trans (congrArg _ (if_neg (by simp [h])))⟩
  · have hrow : exec (.shelveDone p) s = .next (if a.phase != .sintering || !(a.shelfFrames.all fun n =>
          match frameOf s n with | some f => f.sealed | none => false) then s
        else updAtt (closeInterval (freeClusters (countPreempt s p a false) a.clusters) p a) p fun b =>
          { b with phase := .shelved, clusters := [], claimAt := (freeClusters (countPreempt s p a false) a.clusters).boot.dtc }) := by
      refine (partRow_next _ hp hl).trans ?_
      rw [ha] <;> rfl
    refine ⟨fun h => hrow.trans (congrArg _ ((if_neg ?_).trans ?_)), fun ⟨n, hn, f, hf, hs⟩ => hrow.trans (congrArg _ (if_pos ?_))⟩
    · have hall : (a.shelfFrames.all fun n => match frameOf s n with | some f => f.sealed | none => false) = true := by
        rw [List.all_eq_true]
        intro n hn
        obtain ⟨f, hf, hs⟩ := h n hn
        simp only [hf, hs]
      simp [hph, hall]
    · rw [freeClusters_boot, countPreempt_boot]
    · rw [Bool.or_eq_true, Bool.not_eq_true', List.all_eq_false]
      refine .inr ⟨n, hn, ?_⟩
      simp [hf, hs]
  · have hrow : exec (.shelveResume p) s = .next (grantShelved s p) := by
      refine (partRow_next _ hp hl).trans ?_
      rw [placed_here (by simp [hgt]), ha]
      simp only [hg, Bool.not_true, Bool.false_eq_true, if_false, hph, beq_self_eq_true, if_true, hgt]
    refine ⟨hrow, fun n f hn hf hd => ?_⟩
    rw [hrow, grantShelved, ha]
    simp only [shelfBad_one hn hf hd]
  · have hrow : exec (.stepSyncTurn p arg) s = .next _ :=
      (partRow_next _ hp hl).trans (congrArg _ (if_neg (by simp [hlead, hpk])))
    rw [hrow]
    refine ⟨fun h => ?_, fun h hph => ?_, fun h hph => ?_⟩
    · intro u
      rw [h]
      simp only [turn_attempt ha (f := fun x => { x with turn := true }) fun _ => rfl]
      exact ⟨fun hpl => congrArg _ ((if_neg (by simpa using hpl)).trans (by simp only [beq_iff_eq]; rfl)), fun hpl => congrArg _ (if_pos (by simpa using hpl))⟩
    all_goals
      rw [h, ha]
      simp only [hph, beq_self_eq_true, if_true, preemptKill]

end Sys2Proof.Machine
end

section
/-! SUPPORT. The ledger's close and doubt (R424, R428, R436, R438, R441). -/

namespace Sys2Proof.Machine

/-! ### What containment leaves of the fault state (R424, R427, R428, R436) -/

theorem foldl_flt {α : Type} {f : State → α → State} (hf : ∀ t a, (f t a).flt = t.flt) (l : List α) (s : State) :
    (l.foldl f s).flt = s.flt :=
  foldl_keeps (R := fun s t => t.flt = s.flt) (fun _ => rfl) (fun h g => g.trans h) hf l s

theorem PoolOnly.flt {s t : State} (h : PoolOnly s t) : t.flt = s.flt := congrArg (·.flt) h.1

@[simp] theorem refuse_flt (s : State) (c : MsgCtx) (k : Code) : (refuse s c k).flt = s.flt := (refuse_answerOnly s c k).flt

@[simp] theorem respond_flt (s : State) (c : MsgCtx) (k : Code) (b : Bytes) : (respond s c k b).flt = s.flt :=
    (respond_answerOnly s c k b).flt

@[simp] theorem signal_flt (s : State) (fn v : Nat) : (signal s fn v).flt = s.flt := congrArg (·.flt) (signal_hostOnly s fn v)

@[simp] theorem issueFor_flt (s : State) (q : Req) (w : BusWrite) : (issueFor s q w).flt = s.flt := by
  unfold issueFor
  split
  · exact congrArg (·.flt) (issue_hostOnly s w)
  · rfl

@[simp] theorem writeStamp_flt (s : State) : (writeStamp s).2.flt = s.flt := by
  unfold writeStamp
  split <;> rfl

@[simp] theorem jrnWrite_flt (s : State) (h ty len : Nat) (body : Bytes) : (jrnWrite s h ty len body).flt = s.flt := by
  unfold jrnWrite
  repeat' split
  all_goals simp

@[simp] theorem jrnSeal_flt (s : State) (h dtc : Nat) : (jrnSeal s h dtc).flt = s.flt := by
  unfold jrnSeal
  split <;> simp

@[simp] theorem jrnPidx_flt (s : State) (h : Nat) : (jrnPidx s h).flt = s.flt := by
  unfold jrnPidx
  repeat' split
  all_goals simp

@[simp] theorem answerExports_flt (s : State) (h : Nat) : (answerExports s h).flt = s.flt := by
  unfold answerExports
  split
  · rfl
  · exact foldl_flt (fun t c => respond_flt t c _ _) _ _

@[simp] theorem jrnEnd_flt (s : State) (h : Nat) (t : Term) (detail stamp cancel dtc : Nat) (sat : Bool) :
    (jrnEnd s h t detail stamp cancel dtc sat).flt = s.flt := by
  unfold jrnEnd
  split <;> simp

@[simp] theorem ringIrq_flt (s : State) (h : Nat) (urgent : Bool) : (ringIrq s h urgent).flt = s.flt := by
  unfold ringIrq
  repeat' split
  all_goals simp

@[simp] theorem ringWrite_flt (s : State) (h : Nat) (f : RecFlags) (token stamp detail cancel : Nat) :
    (ringWrite s h f token stamp detail cancel).flt = s.flt := by
  unfold ringWrite
  repeat' split
  all_goals simp

@[simp] theorem retain_flt (s : State) (h : Nat) (t : Term) (detail : Nat) : (retain s h t detail).flt = s.flt := by
  unfold retain
  split <;> rfl

@[simp] theorem stopWant_flt (s : State) (h : Nat) : (stopWant s h).flt = s.flt := by
  unfold stopWant
  repeat' split
  all_goals simp

@[simp] theorem countEnd_flt (s : State) (q : Req) : (countEnd s q).flt = s.flt := rfl

@[simp] theorem fixOutcome_flt (s : State) (h : Nat) (t : Term) (detail : Nat) : (fixOutcome s h t detail).flt = s.flt := by
  unfold fixOutcome
  repeat' split
  all_goals simp

@[simp] theorem endOut_flt (s : State) (h : Nat) (t : Term) (detail : Nat) : (endOut s h t detail).flt = s.flt := by
  unfold endOut
  repeat' split
  all_goals simp

@[simp] theorem endSilent_flt (s : State) (h : Nat) : (endSilent s h).flt = s.flt := by
  unfold endSilent
  repeat' split
  all_goals simp

@[simp] theorem endReplay_flt (s : State) (h st : Nat) : (endReplay s h st).flt = s.flt := by
  unfold endReplay
  repeat' split
  all_goals rfl

@[simp] theorem faultEnd_flt (s : State) (rows : List Nat) (q : Req) : (faultEnd s rows q).flt = s.flt := by
  unfold faultEnd
  repeat' split
  all_goals simp

/-! #### A request released leaves the faults, the boot state and the ledger as they are -/

/-- The fault state, the boot state and the ledger are as before. -/
def Unbooked (s t : State) : Prop := t.flt = s.flt ∧ t.boot = s.boot ∧ t.ledger = s.ledger

theorem unbooked_refl (s : State) : Unbooked s s := ⟨rfl, rfl, rfl⟩

theorem Unbooked.trans {s t u : State} (h : Unbooked s t) (g : Unbooked t u) : Unbooked s u := by
  obtain ⟨h1, h2, h3⟩ := h
  obtain ⟨g1, g2, g3⟩ := g
  exact ⟨g1.trans h1, g2.trans h2, g3.trans h3⟩

theorem foldl_unbooked {α : Type} {f : State → α → State} (hf : ∀ t a, Unbooked t (f t a)) (l : List α) (s : State) :
    Unbooked s (l.foldl f s) :=
  foldl_keeps unbooked_refl Unbooked.trans hf l s

theorem PoolOnly.unbooked {s t : State} (h : PoolOnly s t) : Unbooked s t :=
  ⟨congrArg (·.flt) h.1, congrArg (·.boot) h.1, congrArg (·.ledger) h.1⟩

theorem updReq_unbooked {s t : State} (h : Nat) (f : Req → Req) (ht : Unbooked s t) : Unbooked s
    (updReq t h f) := ht.trans ⟨rfl, rfl, rfl⟩

theorem dropPins_unbooked (s : State) (h : Nat) : Unbooked s (dropPins s h) := by
  unfold dropPins
  split
  · exact unbooked_refl s
  · split
    · exact unbooked_refl s
    · exact (updReq_unbooked h _ (unbooked_refl s)).trans ((addPins_poolOnly _ _ _).unbooked.trans (settleRetiring_poolOnly _ _).unbooked)

theorem dropKv_unbooked (s : State) (h : Nat) : Unbooked s (dropKv s h) := by
  unfold dropKv
  split
  · exact unbooked_refl s
  · exact updReq_unbooked h _ (freeFrames_poolOnly _ _).unbooked

theorem dropCond_unbooked (s : State) (h : Nat) : Unbooked s (dropCond s h) := by
  unfold dropCond
  split
  · exact unbooked_refl s
  · split
    · exact unbooked_refl s
    · exact updReq_unbooked h _ (freeFrames_poolOnly _ _).unbooked

theorem reapModels_unbooked (s : State) (p : Nat) : Unbooked s (reapModels s p) := by
  refine foldl_unbooked (fun t i => ?_) _ s
  split
  · split
    · exact (freeOwner_poolOnly _ _ _).unbooked.trans ⟨rfl, rfl, rfl⟩
    · exact unbooked_refl t
  · exact unbooked_refl t

theorem reapAfter_unbooked (t : State) (rs : List Req) (p : Nat) :
    Unbooked t (reapModels (settleRetiring { t with reqs := rs } p) p) := by
  have h : Unbooked t { t with reqs := rs } := ⟨rfl, rfl, rfl⟩
  exact h.trans ((settleRetiring_poolOnly _ p).unbooked.trans (reapModels_unbooked _ p))

theorem releaseReq_unbooked (s : State) (h : Nat) : Unbooked s (releaseReq s h) := by
  unfold releaseReq
  split
  · exact unbooked_refl s
  · exact ((dropPins_unbooked s h).trans ((dropKv_unbooked _ h).trans (dropCond_unbooked _ h))).trans (reapAfter_unbooked _ _ _)

theorem releaseEnded_unbooked (s : State) (p : Nat) : Unbooked s (releaseEnded s p) := foldl_unbooked
    (fun t (q : Req) => releaseReq_unbooked t q.h) _ _

/-! #### Quarantine -/

@[simp] theorem faultEndAll_flt (s : State) (rows : List Nat) (p : Nat) : (faultEndAll s rows p).flt = s.flt := by
  simp only [faultEndAll]
  rw [foldl_flt fun t (q : Req) => (releaseReq_unbooked t q.h).1, foldl_flt fun t q => faultEnd_flt t rows q]

theorem endSessions_flt (s : State) : (endSessions s).flt = s.flt := rfl

@[simp] theorem holdPorts_flt (s : State) : (holdPorts s).flt = s.flt := by
  refine foldl_flt (fun t n => ?_) _ s
  dsimp only
  split <;> rfl

@[simp] theorem failPending_flt (s : State) : (failPending s).flt = s.flt := foldl_flt (fun t c => refuse_flt t c _) _ _

@[simp] theorem failMailboxes_flt (s : State) : (failMailboxes s).flt = s.flt := congrArg (·.flt) (failMailboxes_hostOnly s)

theorem releaseAttempt_flt (s : State) (p : Nat) (a : Attempt) : (releaseAttempt s p a).flt = s.flt := by
  have hd : ∀ (u : State) hs, (dropProvisional u p hs).flt = u.flt := fun u hs => by
    refine foldl_flt (fun t h => ?_) hs u
    split
    · split
      · exact (addPins_poolOnly _ _ _).flt
      · rfl
    · rfl
  rw [releaseAttempt, hd, reserveAll, foldl_flt, (freeFrames_poolOnly _ _).flt, foldl_flt]
  · exact fun _ _ => rfl
  · exact fun _ _ => rfl

theorem countPreempt_flt (s : State) (p : Nat) (a : Attempt) (kill : Bool) : (countPreempt s p a kill).flt = s.flt := by
  unfold countPreempt
  split
  · rfl
  · dsimp only
    rw [foldl_flt]
    · rfl
    · exact fun _ _ => rfl

theorem breakSems_flt (s : State) (p : Nat) : (breakSems s p).flt = s.flt := by
  refine (foldl_flt (fun t m => ?_) _ _).trans (updPart_flt _ _ _)
  split
  · exact congrArg (·.flt) (sendOthers_linkOnly t _ _ _)
  · rfl

theorem freeClusters_flt (s : State) (cs : List Nat) : (freeClusters s cs).flt = s.flt := by
  rw [freeClusters, foldl_flt]
  exact fun _ _ => rfl

@[simp] theorem dropAttempt_flt (s : State) (p : Nat) : (dropAttempt s p).flt = s.flt := by
  unfold dropAttempt
  split
  · rfl
  · refine (freeClusters_flt _ _).trans ?_
    split
    · rfl
    · rw [breakSems_flt, countPreempt_flt, releaseAttempt_flt]
      rfl

theorem dropLoad_flt (s : State) (p : Nat) (l : Load) : (dropLoad s p l).flt = s.flt := by
  refine ((freeOwner_poolOnly _ _ _).flt).trans ?_
  split
  · rfl
  · exact ((winUse_poolOnly s l.wHome.1 (-1)).trans (winUse_poolOnly _ l.pHome.1 (-1))).flt

@[simp] theorem dropTransfers_flt (s : State) : (dropTransfers s).flt = s.flt := by
  simp only [dropTransfers]
  rw [foldl_flt fun t q => ?_, foldl_flt fun t p => ?_, foldl_flt fun t r => (dropReg_poolOnly t r).flt, foldl_flt fun t a => (dropFetch_poolOnly t a).flt]
  · split
    · exact dropLoad_flt _ _ _
    · rfl
  · exact (updReq_unbooked _ _ (dropKv_unbooked _ _)).1

theorem goQuiet_flt (s : State) : (goQuiet s).flt = { s.flt with dma := false, pkg := .quarantined } := setPkg_flt _ _

/-- Quarantine asserts both pins and leaves SERVING for ENTERING, or for QUARANTINED where no write awaits a barrier (R428). -/
theorem enterQuarantine_flt (s : State) : (enterQuarantine s).flt =
    { s.flt with faultN := true, quietN := true, pkg := .entering } ∨
    (enterQuarantine s).flt = { s.flt with faultN := true, quietN := true, pkg := .quarantined, dma := false } := by
  unfold enterQuarantine
  extract_lets _ s1 s2 rows s3 s4 s5 n m s6 s7
  have h1 : s1.flt = { s.flt with faultN := true, quietN := true, pkg := .entering } := setPkg_flt _ _
  clear_value s1
  have h2 : s2.flt = s1.flt := by simp only [s2, endSessions_flt, holdPorts_flt]
  clear_value s2
  have h3 : s3.flt = s2.flt := foldl_flt dropAttempt_flt _ s2
  clear_value s3
  have h4 : s4.flt = s3.flt := by simp only [s4, failPending_flt, dropTransfers_flt]
  clear_value s4
  have h6 : s6.flt = s4.flt := foldl_flt (fun t p => faultEndAll_flt t rows p) _ s5
  clear_value s6
  have h7 : s7.flt = s1.flt := h6.trans (h4.trans (h3.trans h2))
  clear_value s7
  split
  · right
    rw [goQuiet_flt, h7, h1]
  · left
    rw [foldl_flt, h7, h1]
    exact fun _ _ => rfl

/-! ### The ledger's close and doubt's levels (R424, R436, R438, R441) -/

/-- A noted doubt is counted, leaves the package state, and is the record of the first where the package serves (R424, R427). -/
theorem noteDoubt_spec (s : State) (source level part unit detail : Nat) :
    let t := noteDoubt s source level part unit detail
    t.flt.doubtCount = (s.flt.doubtCount + 1) % 2 ^ 32 ∧ t.flt.pkg = s.flt.pkg ∧
      (s.flt.pkg = .serving → t.flt.firstSource = source ∧ t.flt.firstDtc = s.boot.dtc) := by
  have ho : ∀ u : State, ∃ l, orderTick u = { u with flt := { u.flt with log := l } } := fun u => by
    unfold orderTick
    dsimp only
    split
    · exact ⟨_, rfl⟩
    · exact ⟨_, rfl⟩
  obtain ⟨l, hl⟩ := ho (logFault s source level part unit detail)
  simp only [noteDoubt, hl]
  split
  · exact ⟨rfl, rfl, fun _ => ⟨rfl, rfl⟩⟩
  · next hf => exact ⟨rfl, rfl, fun hs => absurd (by simp [isFirst, hs]) hf⟩

theorem enterQuarantine_spec (s : State) : (enterQuarantine s).flt.faultN = true ∧ (enterQuarantine s).flt.quietN = true ∧
    (enterQuarantine s).flt.pkg ≠ .serving ∧ (enterQuarantine s).flt.doubtCount = s.flt.doubtCount ∧
    (enterQuarantine s).flt.firstSource = s.flt.firstSource ∧ (enterQuarantine s).flt.firstDtc = s.flt.firstDtc := by
  obtain h | h := enterQuarantine_flt s <;> rw [h] <;> simp

theorem recoveryFails_count (s : State) : (recoveryFails s).flt.doubtCount = s.flt.doubtCount := by
  unfold recoveryFails
  extract_lets v u c _ t
  have h : t.flt.doubtCount = s.flt.doubtCount := by simp only [t, setPkg_flt]; rfl
  clear_value t c
  cases c with
  | some c => exact (congrArg Flt.doubtCount (refuse_flt t c _)).trans h
  | none => exact h

/-- Contained doubt is counted in every state that acts; in SERVING it starts the quarantine (R427, R428, R441). -/
theorem doubt_spec {s : State} (hl : Live s) (source part unit detail : Nat) :
    let t := doubt s source part unit detail
    t.flt.doubtCount = (s.flt.doubtCount + 1) % 2 ^ 32 ∧ (s.flt.pkg = .serving → t.flt.faultN = true ∧ t.flt.quietN = true ∧
      t.flt.pkg ≠ .serving ∧ t.flt.firstSource = source ∧ t.flt.firstDtc = s.boot.dtc) := by
  obtain ⟨hc, _, hf⟩ := noteDoubt_spec s source 1 part unit detail
  cases hp : s.flt.pkg with
  | serving =>
    obtain ⟨h1, h2, h3, h4, h5, h6⟩ := enterQuarantine_spec (noteDoubt s source 1 part unit detail)
    obtain ⟨h7, h8⟩ := hf hp
    simp only [doubt, hp]
    exact ⟨h4.trans hc, fun _ => ⟨h1, h2, h3, h5.trans h7, h6.trans h8⟩⟩
  | uncontained => exact absurd hp hl
  | recovering =>
    simp only [doubt, hp]
    exact ⟨(recoveryFails_count _).trans hc, fun h => by cases h⟩
  | _ =>
    simp only [doubt, hp]
    exact ⟨hc, fun h => by cases h⟩

theorem doubtUncontained_spec {s : State} (hl : Live s) (source part unit detail : Nat) :
    (doubtUncontained s source part unit detail).flt.pkg = .uncontained ∧ (doubtUncontained s source part unit detail).flt.dma = false := by
  unfold doubtUncontained
  rw [if_neg (by simpa using show s.flt.pkg ≠ .uncontained from hl)]
  extract_lets u _ v c _ _ w x
  have hv : v.flt.dma = false := by simp only [v, endSessions_flt, holdPorts_flt]
  clear_value v
  have hx : x.flt.pkg = .uncontained ∧ x.flt.dma = false := by
    simp only [x, failPending_flt, setPkg_flt]
    exact ⟨trivial, hv⟩
  clear_value x c
  rw [failMailboxes_flt]
  cases c with
  | some c => rwa [refuse_flt]
  | none => exact hx

/-- What a close records, and what it leaves where everything balances (R438, R439). -/
theorem closeLedger_spec (s : State) (ps : List Nat) :
    (∀ c p, imbalance (ps.foldl releaseEnded s) ps = some (c, p) →
      let u := settleBalances (snapshot (ps.foldl releaseEnded s) ps (some (c, p))) ps
      closeLedger s ps = doubt { u with parts := u.parts.zipIdx.map fun e =>
        if e.2 ∈ ps then { e.1 with fetchWait := false } else e.1 } 0x0D p c 0) ∧
    (imbalance (ps.foldl releaseEnded s) ps = none → (closeLedger s ps).ledger.result % 256 = 0 ∧
      (closeLedger s ps).ledger.balanced = s.boot.dtc ∧ (closeLedger s ps).ledger.closes = (s.ledger.closes + 1) % 2 ^ 64 ∧
      (closeLedger s ps).ledger.seq = (s.ledger.seq + 2) % 2 ^ 32) := by
  obtain ⟨_, hb, hl⟩ := foldl_unbooked releaseEnded_unbooked ps s
  unfold closeLedger
  extract_lets t r u v
  refine ⟨fun c p h => ?_, fun h => ?_⟩
  · have hr : r = some (c, p) := h
    simp only [v, u, hr, List.contains_iff_mem]
    rfl
  · have hr : r = none := h
    have hv : v.ledger = (snapshot t ps none).ledger := by simp only [v, u, hr]; rfl
    simp only [hr, hv, snapshot, Option.isNone_none, if_true]
    exact ⟨trivial, congrArg Boot.dtc hb, by rw [show t.ledger = s.ledger from hl], by rw [show t.ledger = s.ledger from hl]⟩

/-- Settles O54: the close in each package state, and doubt by its source. -/
theorem ledgerClosesAndDoubtSpreads : Obligations.LedgerClosesAndDoubtSpreads := by
  unfold Obligations.LedgerClosesAndDoubtSpreads
  refine ⟨fun s => ⟨fun h => ?_, fun h => ?_, fun h1 h2 => ?_, closeLedger_spec s⟩, fun s source unit detail part hl => ?_⟩
  · show execLedgerClose s = _
    rw [execLedgerClose, h] <;> rfl
  · show execLedgerClose s = _
    rw [execLedgerClose, h] <;> rfl
  · show execLedgerClose s = _
    unfold execLedgerClose
    split
    · exact absurd ‹_› h1
    · exact absurd ‹_› h2
    · rfl
  · intro p d
    have hc : exec (.doubtContained source unit detail part) s = .next (if 0x01 ≤ source ∧
        source ≤ 0x11 then doubt s source p (unit % 2 ^ 32) d else s) :=
      guarded_next _ hl
    have hu : exec (.doubtUncontained source unit detail part) s =
        .next (if 0x12 ≤ source ∧ source ≤ 0x16 then doubtUncontained s source p (unit % 2 ^ 32) d else s) := guarded_next _ hl
    refine ⟨fun h1 h2 => ⟨hc.trans (congrArg _ (if_pos ⟨h1, h2⟩)), doubt_spec hl source p (unit % 2 ^ 32) d⟩,
        fun h => hc.trans (congrArg _ (if_neg (by omega))),
      fun h1 h2 => ⟨hu.trans (congrArg _ (if_pos ⟨h1, h2⟩)), doubtUncontained_spec hl source p (unit % 2 ^ 32) d⟩,
      fun h => hu.trans (congrArg _ (if_neg (by omega))), fun pair h => ?_, fun pair h => if_neg (not_lt.2 h)⟩
    exact (inRange_next _ h).trans (congrArg _ (guarded_live _ hl))

end Sys2Proof.Machine
end

section
/-! SUPPORT. Semaphores (R207, R227, R228, R321). -/

namespace Sys2Proof.Machine

/-! ### Semaphores (R207, R227, R228, R321) -/

theorem insertBy_sorted {α : Type} {key : α → Nat} {x : α} {l : List α} (h : l.Pairwise fun a b => key a ≤ key b) :
    (insertBy key x l).Pairwise fun a b => key a ≤ key b := by
  induction l with
  | nil => simp [insertBy]
  | cons y ys ih =>
    rw [List.pairwise_cons] at h
    obtain ⟨hy, hys⟩ := h
    unfold insertBy
    split
    · next hlt =>
      refine List.pairwise_cons.2 ⟨fun z hz => ?_, List.pairwise_cons.2 ⟨hy, hys⟩⟩
      obtain rfl | hz := List.mem_cons.1 hz
      · exact hlt.le
      · exact hlt.le.trans (hy z hz)
    · next hge =>
      refine List.pairwise_cons.2 ⟨fun z hz => ?_, ih hys⟩
      obtain rfl | hz := mem_insertBy_iff.1 hz
      · exact not_lt.1 hge
      · exact hy z hz

theorem sortBy_sorted {α : Type} (key : α → Nat) (l : List α) : (sortBy key l).Pairwise fun a b => key a ≤ key b :=
  List.foldlRecOn (motive := fun acc : List α => acc.Pairwise fun a b => key a ≤ key b) l _ .nil fun _ h _ _ => insertBy_sorted h

theorem sortBy_head {α : Type} {key : α → Nat} {l : List α} {w : α} (h : (sortBy key l).head? = some w) :
    w ∈ l ∧ ∀ v ∈ l, key w ≤ key v := by
  obtain ⟨ys, hys⟩ := List.head?_eq_some_iff.1 h
  refine ⟨mem_sortBy.1 (hys ▸ List.mem_cons_self), fun v hv => ?_⟩
  have hv' : v ∈ w :: ys := hys ▸ mem_sortBy.2 hv
  obtain rfl | hm := List.mem_cons.1 hv'
  · exact le_rfl
  · exact (List.pairwise_cons.1 (hys ▸ sortBy_sorted key l)).1 v hm

/-- Putting a semaphore leaves which member this is of the partition. -/
theorem putSem_own (s : State) (p : Nat) (m : Sem) :
    ownIndex (putSem s p m) (partOf (putSem s p m) p).items.groupSize = ownIndex s (partOf s p).items.groupSize := by
  have hi : (partOf (putSem s p m) p).items = (partOf s p).items := by
    obtain h | h := partOf_updPart_or s p p fun x => { x with sems := insertBy (·.id) m (x.sems.filter fun y => y.id != m.id) }
    · exact (congrArg Part.items h).trans rfl
    · exact (congrArg Part.items h).trans rfl
  rw [hi]
  rfl

theorem semAdd_none {t : State} {p : Nat} {m : Sem} (n : Nat) (h : m.waiters = []) :
    semAdd t p m n = if 65535 < m.value + n then doubt (putSem t p { m with value := min (m.value + n) 65535 }) 0x0C p m.id 0
      else putSem t p { m with value := min (m.value + n) 65535 } := by
  obtain ⟨id, st, value, owner, waiters⟩ := m
  obtain rfl : waiters = [] := h
  rfl

section
variable {s : State} {c : Nat} {x : Cx} {k : QCmd}

theorem exec_semSignal (h : Issues s c 7 x k) : exec (.semSignal c) s = .next (match semOf x.part (k.cmd.aux % 256) with
    | some m => if m.st == .broken then brokenKill s x.p
      else if m.st == .armed && m.owner == rankTag s x then semAdd (complete s c x k x.cl) x.p m (k.cmd.aux / 65536) else complete s c x k x.cl
    | none => complete s c x k x.cl) := clusterRow_issues _ h

theorem exec_semWait (h : Issues s c 8 x k) : exec (.semWait c) s = .next (match semOf x.part (k.cmd.aux % 256) with
    | some m => if m.st == .broken then brokenKill s x.p
      else if m.st == .armed && decide (k.cmd.aux / 65536 ≤ m.value) then
        complete (putSem s x.p { m with waiters := m.waiters.filter fun w =>
          !(w.member == ownIndex s x.part.items.groupSize && w.rank == x.rank) }) c x k x.cl
      else addWaiter (issueWait s x k) x.p m
        { member := ownIndex s x.part.items.groupSize, rank := x.rank, tag := rankTag s x, value := some (k.cmd.aux / 65536) }
    | none => issueWait s x k) := clusterRow_issues _ h

theorem exec_semRelease (h : Issues s c 10 x k) : exec (.semRelease c) s = .next (match semOf x.part (k.cmd.aux % 256) with
    | some m => if m.st == .broken then brokenKill s x.p
      else if m.st == .held && m.owner == rankTag s x then
        (if ownIndex s x.part.items.groupSize = 0 then semPass (complete s c x k x.cl) x.p m
          else relaySem (freeSem (complete s c x k x.cl) x.p (k.cmd.aux % 256)) x.p 0 0x06 (k.cmd.aux % 256) x.rank (rankTag s x) 0)
      else complete s c x k x.cl
    | none => complete s c x k x.cl) := clusterRow_issues _ h

theorem exec_semAcquire (h : Issues s c 9 x k) : exec (.semAcquire c) s = .next (
    let own := ownIndex s x.part.items.groupSize
    let me : SemWaiter := { member := own, rank := x.rank, tag := rankTag s x, value := none }
    match semOf x.part (k.cmd.aux % 256) with
    | some m => if m.st == .broken then brokenKill s x.p
      else if k.issued then (if m.st == .held && m.owner == rankTag s x && !m.waiters.contains me then complete s c x k x.cl else s)
      else if own = 0 then addWaiter (issueWait s x k) x.p m me
        else relaySem (addWaiter (issueWait s x k) x.p m me) x.p 0 0x04 (k.cmd.aux % 256) x.rank (rankTag s x) 0
    | none =>
      if own = 0 then complete (putSem s x.p { id := k.cmd.aux % 256, st := .held, value := 0, owner := rankTag s x, waiters := [] }) c x k x.cl
      else if k.issued then s
      else relaySem (issueWait s x k) x.p 0 0x04 (k.cmd.aux % 256) x.rank (rankTag s x) 0) := clusterRow_issues _ h

end

/-- Settles O57: what each semaphore command does by the semaphore's state, and how a lock is passed on. -/
theorem semaphoresCountAndLock : Obligations.SemaphoresCountAndLock := by
  unfold Obligations.SemaphoresCountAndLock
  intro s c x k id n own tag waits me me'
  refine ⟨fun m hm hst => ?_, fun m hm hst => ?_, fun m hm hst => ?_, fun hm => ?_, fun t p m hw => ?_, fun t p m w hw => ?_⟩
  · refine ⟨fun h => ?_, fun h => ?_, fun h => ?_, fun h => ?_⟩
    · rw [exec_semSignal h, hm]
      simp only [hst, beq_self_eq_true, if_true, brokenKill]
    · rw [exec_semWait h, hm]
      simp only [hst, beq_self_eq_true, if_true, brokenKill]
    · rw [exec_semAcquire h, hm]
      simp only [hst, beq_self_eq_true, if_true, brokenKill]
    · rw [exec_semRelease h, hm]
      simp only [hst, beq_self_eq_true, if_true, brokenKill]
  · have hb : (m.st == SemState.broken) = false := by rw [hst]; rfl
    have ha : (m.st == SemState.armed) = true := by rw [hst]; rfl
    refine ⟨fun h => ?_, fun h => ?_⟩
    · rw [exec_semSignal h, hm]
      simp only [hb, ha, Bool.false_eq_true, if_false, Bool.true_and, beq_iff_eq]
      exact ⟨fun ho => congrArg _ (if_neg ho), fun ho => congrArg _ (if_pos ho)⟩
    · rw [exec_semWait h, hm]
      simp only [hb, ha, Bool.false_eq_true, if_false, Bool.true_and, decide_eq_true_eq]
      refine ⟨fun hn => congrArg _ (if_pos hn), fun hn hw => congrArg _ ((if_neg (not_le.2 hn)).trans (if_neg ?_)),
        fun hn hw => congrArg _ ((if_neg (not_le.2 hn)).trans (if_pos ?_))⟩
      · simpa using hw
      · simpa using hw
  · have hb : (m.st == SemState.broken) = false := by rw [hst]; rfl
    have ha : (m.st == SemState.held) = true := by rw [hst]; rfl
    refine ⟨fun h => ?_, fun h => ?_⟩
    · rw [exec_semAcquire h, hm]
      simp only [hb, ha, Bool.false_eq_true, if_false, Bool.true_and]
      refine ⟨fun hi ho hw => ?_, fun hi ho => ?_, fun hi => ?_⟩
      · rw [if_pos hi]
        exact congrArg _ (if_pos (by simpa using ⟨ho, hw⟩))
      · rw [if_pos hi]
        refine congrArg _ (if_neg ?_)
        simpa [imp_iff_not_or] using ho
      · have ht : addWaiter (issueWait s x k) x.p m me =
            if me ∈ m.waiters then waits else putSem waits x.p { m with waiters := m.waiters ++ [me] } := if_congr (by simp) rfl rfl
        rw [if_neg (by simp [hi]), ← ht]
        exact ⟨fun h0 => congrArg _ (if_pos h0), fun h0 => congrArg _ (if_neg h0)⟩
    · rw [exec_semRelease h, hm]
      simp only [hb, ha, Bool.false_eq_true, if_false, Bool.true_and, beq_iff_eq]
      exact ⟨fun ho => congrArg _ (if_neg ho), fun ho h0 => congrArg _ ((if_pos ho).trans (if_pos h0)),
        fun ho h0 => congrArg _ ((if_pos ho).trans (if_neg h0))⟩
  · refine ⟨fun h => ?_, fun h => ?_, fun h => ?_, fun h => ?_⟩
    · rw [exec_semSignal h, hm]
    · rw [exec_semWait h, hm] <;> rfl
    · rw [exec_semAcquire h, hm]
      exact ⟨fun h0 => congrArg _ (if_pos h0), fun h0 hi => congrArg _ ((if_neg h0).trans (if_neg (by simp [hi]))),
        fun h0 hi => congrArg _ ((if_neg h0).trans (if_pos hi))⟩
    · rw [exec_semRelease h, hm]
  · refine ⟨by simp [semPass, hw, nextWaiter, sortBy], fun h => ?_, fun h => ?_⟩
    · rw [semAdd_none n hw, if_neg (not_lt.2 h), min_eq_left h]
    · rw [semAdd_none n hw, if_pos h, min_eq_right h.le]
  · intro u
    obtain ⟨h1, h2⟩ := sortBy_head hw
    have hp : semPass t p m = if w.member == ownIndex u (partOf u p).items.groupSize then u else relaySem u p w.member 0x05 m.id w.rank w.tag 0 := by
      rw [semPass, hw]
    rw [hp, putSem_own]
    exact ⟨h1, h2, fun h => if_pos (by simp [h]), fun h => if_neg (by simpa using h)⟩

end Sys2Proof.Machine
end

section
/-! SUPPORT. Arithmetic commands (R206, R233, R236, R241, R412). -/

namespace Sys2Proof.Machine

/-! ### Arithmetic commands (R206, R236, R241, R412) -/

theorem withStore_in {s : State} {c : Nat} {x : Cx} {reads writes : List (Nat × Nat)} (t : State) (h : InStore (reads ++ writes))
    (hn : NotAwaited x writes) : withStore s c x reads writes t = t := by
  have h1 : ¬ ((reads ++ writes).any fun r => decide (4194304 < r.1 + r.2)) = true := by
    simp only [List.any_eq_true, decide_eq_true_eq, not_exists, not_and, not_lt]
    exact h
  have h2 : ¬ (writes.any fun r => inputHeld x.att x.rank r.1 r.2) = true := by
    simp only [List.any_eq_true, not_exists, not_and, Bool.not_eq_true]
    exact hn
  rw [withStore, if_neg h1, if_neg h2]

theorem withStore_out {s : State} {c : Nat} {x : Cx} {reads writes : List (Nat × Nat)} (t : State)
    (h : ¬ InStore (reads ++ writes)) :
    withStore s c x reads writes t = doubt s 0x08 x.p c 0 := by
  refine if_pos ?_
  simp only [InStore, not_forall, not_le] at h
  simp only [List.any_eq_true, decide_eq_true_eq]
  obtain ⟨r, hr, hlt⟩ := h
  exact ⟨r, hr, hlt⟩

theorem withArray_spec {s : State} {c : Nat} {k : PClass} (t : State) :
    (arrayHeld s.gov c < classDu k → withArray s c k t = askArray s c k) ∧ (classDu k ≤ arrayHeld s.gov c → withArray s c k t = t) :=
  ⟨fun h => if_neg (not_le.2 h), fun h => if_pos h⟩

theorem withAmvu_spec {s : State} {c : Nat} (t : State) :
    (holds s.gov (192 + c) .amvu = false → withAmvu s c t = askPermit s (192 + c) .amvu) ∧
        (holds s.gov (192 + c) .amvu = true → withAmvu s c t = t) :=
  ⟨fun h => if_neg (by simp [h]), fun h => if_pos h⟩

/-- What the end of a tile does: without FINAL it keeps the partials, with FINAL it waits for the members' scales and writes (R42, R320). -/
theorem finishEar_spec (s : State) (c : Nat) (x : Cx) (k : QCmd) (cl : Cluster) (a : Anchor) (ear : Ear) (rows : List Nat)
    (reads : List (Nat × Nat)) :
    let set : Ear := { ear with planRows := (ear.planRows ++ rows).eraseDups }
    let size := x.part.items.groupSize
    let done := earBytes a (ownIndex s size) set
    let run := finishEar s c x k cl a ear rows reads
    (bit k.cmd.flags 1 = false → InStore reads → run = completeOut s c x k (putEar cl set) (earPartials set) reads) ∧
    (bit k.cmd.flags 1 = false → ¬ InStore reads → run = doubt s 0x08 x.p c 0) ∧
    (bit k.cmd.flags 1 = true → scalesHeard size (ownIndex s size) set = false → run = s) ∧
    (bit k.cmd.flags 1 = true → scalesHeard size (ownIndex s size) set = true →
      InStore (reads ++ [(512 * set.d, earLen a set)]) → NotAwaited x [(512 * set.d, earLen a set)] →
      run = completeOut (if done.2 = [] then s else markSat s x.p (done.2.filterMap fun i => rows[i]?)) c x k
        (csPut (dropEar cl set.d) set.d done.1) done.1 reads) := by
  intro set size done run
  refine ⟨fun hb hi => ?_, fun hb hi => ?_, fun hb hs => ?_, fun hb hs hi hn => ?_⟩
  · exact (if_neg (by simp [hb])).trans (withStore_in _ (by simpa using hi) (by simp [NotAwaited]))
  · exact (if_neg (by simp [hb])).trans (withStore_out _ (by simpa using hi))
  · exact (if_pos hb).trans (if_pos (by simpa using hs))
  · refine (if_pos hb).trans ((if_neg (by simpa using hs)).trans ((withStore_in _ hi hn).trans ?_))
    simp only [List.isEmpty_iff]
    rfl

/-- A sequence of a VU_OP that stays in the store writes its result and marks its saturated rows (R57, R213). -/
theorem vuFinish_in {s : State} {c : Nat} {x : Cx} {k : QCmd} {cl : Cluster} {f : Fmt} {cols : Nat} {os : List VuOut}
    {rows : List Nat}
    {reads : List (Nat × Nat)} (hi : InStore (reads ++ [(512 * k.cmd.d, (packRows f cols os).length)]))
    (hn : NotAwaited x [(512 * k.cmd.d, (packRows f cols os).length)]) : vuFinish s c x k cl f cols os rows reads =
      let sat := ((os.zipIdx).filter fun e => e.1.sat).filterMap fun e => rows[e.2]?
      completeOut (if sat = [] then s else markSat s x.p sat) c x k (csPut cl k.cmd.d (packRows f cols os)) (packRows f cols os) reads := by
  refine (withStore_in _ hi hn).trans ?_
  simp only [List.isEmpty_iff]

theorem holderOf_attempt {s : State} {c p : Nat} {a : Attempt} (h : holderOf s c = some (p, a)) :
    (partOf s p).attempt = some a := by
  unfold holderOf at h
  split at h
  · cases h
  · split at h
    · next a' ha =>
      split at h
      · cases h
        exact ha
      · cases h
    · cases h

/-- An equal digest completes the pair (R233). -/
theorem twinCompare_equal {u : State} {p : Nat} {t : TwinPair} {a : Attempt} {out : Bytes} (ha : (partOf u p).attempt = some a)
    (h : t.primaryDigest = some (tileDigest out)) : ∃ b, (partOf (twinCompare u p t a out) p).attempt = some b ∧
      { t with shadowDigest := some (tileDigest out), inputs := [], output := [] } ∈ b.twins := by
  have hp := part_lt_of_attempt ha
  refine ⟨{ a with twins := a.twins.filter (· != t) ++ [{ t with shadowDigest := some (tileDigest out), inputs := [], output := [] }] }, ?_, by simp⟩
  simp only [twinCompare, h, beq_self_eq_true, if_true]
  rw [partOf_updPart_same _ _ (by rw [updAtt, updPart_count]; exact hp), updAtt, partOf_updPart_same _ _ hp]
  simp only [ha, Option.map_some]

/-- Settles O55: what each arithmetic command does by its permit, its operands' place, and its FINAL flag; and a shadow by its digest. -/
theorem arithmeticCommandsWriteTheirResults : Obligations.ArithmeticCommandsWriteTheirResults := by
  unfold Obligations.ArithmeticCommandsWriteTheirResults
  refine ⟨fun s c x k rows ecc a fa fb h ha hfa hfb => ?_, fun s c x k side base rows ecc pt fa fb pa oa h hpt hfa hfb hpa hoa => ?_,
    fun s c x k work rows ecc fa fb h hfa hfb => ?_, fun s c p a e rest t k faulty hc hl hh hq hk ht => ?_⟩
  · intro need na nb ra rb reads ear sums set size done v run
    have hrun : run = .next (withArray s c need (finishEar v c x k rb.2 a sums rows reads)) := by
      refine (clusterRow_issues _ h).trans ?_
      simp only [ha, hfa, hfb] <;> rfl
    obtain ⟨h1, h2⟩ := withArray_spec (s := s) (c := c) (k := need) (finishEar v c x k rb.2 a sums rows reads)
    obtain ⟨h3, h4, h5, h6⟩ := finishEar_spec v c x k rb.2 a sums rows reads
    clear_value run
    refine ⟨fun hlt => hrun.trans (congrArg _ (h1 hlt)), fun hle => ?_⟩
    rw [hrun, h2 hle]
    exact ⟨fun hb hi => congrArg _ (h3 hb hi), fun hb hi => congrArg _ (h4 hb hi), fun hb hs => congrArg _ (h5 hb hs),
      fun hb hs hi hn => congrArg _ (h6 hb hs hi hn)⟩
  · have hrun : exec (.amMac ⟨c, ecc⟩ side base rows) s = .next (if !mayStart x.part 0 then s else withAmvu s c (match side with
        | .aSide => amA (noteEcc s x.p ecc) c x k pt pa fa base rows
        | .bSide => amB (noteEcc s x.p ecc) c x k pt pa ((anchorFor x.model oa.tensor).getD oa) fa fb base rows)) := by
      refine (clusterRow_issues _ h).trans ?_
      simp only [hpt, hfa, hfb, hpa, hoa] <;> rfl
    rw [hrun]
    refine ⟨fun hm => congrArg _ (if_pos (by simp [hm])), fun hm => ?_⟩
    rw [if_neg (by simp [hm])]
    exact ⟨fun hh => congrArg _ ((withAmvu_spec _).1 hh), fun hh => congrArg _ ((withAmvu_spec _).2 hh)⟩
  · intro v
    have hrun : exec (.vuOp ⟨c, ecc⟩ work rows) s = .next (withAmvu s c (vuGo v c x k fa fb work rows)) := by
      refine (clusterRow_issues _ h).trans ?_
      simp only [hfa, hfb] <;> rfl
    rw [hrun]
    refine ⟨fun hh => congrArg _ ((withAmvu_spec _).1 hh), fun hh => ⟨congrArg _ ((withAmvu_spec _).2 hh), fun records hw => ?_⟩⟩
    subst hw
    intro n cols ops ra reads os out sat hi hn
    exact vuFinish_in hi hn
  · intro out u
    have hrun : exec (.twinShadow c faulty) s = .next (if k.op = 1 then withArray s c (macClass k) (memberReady (twinCompare u p t a out) p)
        else withAmvu s c (memberReady (twinCompare u p t a out) p)) := by
      refine (clusterRow_next _ hc hl).trans ?_
      simp only [hh, hq, ht, hk] <;> rfl
    have ha : (partOf u p).attempt = some a := show (partOf s p).attempt = some a from holderOf_attempt hh
    clear_value u
    rw [hrun]
    refine ⟨fun h1 hlt => ?_, fun h1 hh => ?_, fun h1 h2 => ?_, fun hd => if_neg (by simpa using hd), twinCompare_equal ha⟩
    · rw [if_pos h1, (withArray_spec _).1 hlt]
    · rw [if_neg h1, (withAmvu_spec _).1 hh]
    · by_cases hop : k.op = 1
      · rw [if_pos hop, (withArray_spec _).2 (h1 hop)]
      · rw [if_neg hop, (withAmvu_spec _).2 (h2 hop)]

end Sys2Proof.Machine
end

section
/-! SUPPORT. Frames sealed, streamed and scrubbed (R244, R254 to R256, R262, R265). -/

namespace Sys2Proof.Machine

/-! ### Sealing, streaming and scrubbing frames (R244, R254 to R256, R262, R265) -/

/-- What the seal of a frame does by its two lanes, under its stack's Sinter permit (R244, R245). -/
theorem frameSealed_spec {s : State} {n p : Nat} {f : Frame} (hf : frameOf s n = some f) (hp : partOfFrame s n = some p)
    (hs : f.sealed = false)
    (hh : holds s.gov (392 + stackOf s n) .sinter = true) :
    (f.written = 128 ∨ imageFrame f.owner = true → frameSealed s n false = doubt s 0x05 p (stackOf s n) 0) ∧
    (f.written = 128 → imageFrame f.owner = false → frameSealed s n true =
      afterSeal (runEnds (sealFrame s n (sealedAs s p f).2 (sealedAs s p f).1) (stackOf s n)) f.owner) ∧
    (imageFrame f.owner = true → frameSealed s n true = s) := by
  simp only [frameSealed, hf, hp, hs, hh, Bool.false_or, Bool.not_true, Bool.or_false]
  refine ⟨fun h => ?_, fun hw hi => ?_, fun hi => ?_⟩
  · rw [if_neg (by simpa [Classical.or_iff_not_imp_left] using h), if_pos (by simp)]
  · rw [if_neg (by simp [hw]), if_neg (by simp), if_neg (by simp [hi])]
  · rw [if_neg (by simp [hi]), if_neg (by simp), if_pos hi]

/-- A frame that is sealed, not full, or without its stack's permit is left (R244, R245). -/
theorem frameSealed_waits {s : State} {n : Nat} {f : Frame} (lanes : Bool) (hf : frameOf s n = some f)
    (h : f.sealed = true ∨ f.written ≠ 128 ∧ imageFrame f.owner = false ∨ holds s.gov (392 + stackOf s n) .sinter = false) :
    frameSealed s n lanes = s := by
  simp only [frameSealed, hf]
  split
  · next h1 _ =>
    cases h1
    refine if_pos ?_
    obtain h | ⟨h1, h2⟩ | h := h <;> simp [*]
  · rfl

theorem updModel_attempt (s : State) (p i : Nat) (f : Model → Model) : (partOf (updModel s p i f) p).attempt =
    (partOf s p).attempt := by
  obtain h | h := partOf_updPart_or s p p fun x => { x with slots := modAt x.slots i fun m => m.map f }
  · exact (congrArg Part.attempt h).trans rfl
  · exact (congrArg Part.attempt h).trans rfl

/-- A read of which no frame is good counts a try against every frame left (R265). -/
theorem streamRead_none {s : State} {p slot : Nat} {m : Model} (half : Nat) (hl : framesLeft m ≠ []) :
    streamRead s p slot m half none =
      updModel (charge (charge s p 3 (65536 * (framesLeft m).length)) p 1 (65536 * (framesLeft m).length)) p slot fun y =>
        { y with tries := (List.range (layerFrames m.tensors m.nextLayer)).map fun i =>
                   if i ∈ framesLeft m then min 3 (m.tries.getD i 0 + 1) else m.tries.getD i 0
                 got := m.got } := by
  have hg : ∀ t : State, (framesLeft m).filter (frameGood t m none) = [] := fun t => by simp [frameGood]
  simp only [streamRead, hg, List.foldl_nil, List.length_nil, List.append_nil]
  rw [if_neg fun h => hl (List.length_eq_zero_iff.1 h.symm)]
  simp

/-- A read of which every frame left is good fills the half and hands the ring on (R262). -/
theorem streamRead_all {s : State} {p slot : Nat} {m : Model} {half : Nat} {data : ReadResult}
    (hg : ∀ i ∈ framesLeft m, frameGood (charge (charge s p 3 (65536 * (framesLeft m).length)) p 1 (65536 * (framesLeft m).length)) m data i = true) :
    streamRead s p slot m half data =
      endRuns (updModel ((framesLeft m).foldl (fun t i => updFrame t ((halfFrames s p slot m half).getD i 0) fun f =>
          { f with sealed := true, written := 128, digest := (m.layerDigests.getD (m.nextLayer - m.resident) []).getD i [] })
        (charge (charge s p 3 (65536 * (framesLeft m).length)) p 1 (65536 * (framesLeft m).length))) p slot fun y =>
        { y with ring := y.ring.set half m.nextLayer, nextLayer := nextStream m m.nextLayer, tries := [], got := [], stalled := false })
        (halfFrames s p slot m half) := by
  simp only [streamRead, List.filter_eq_self.2 hg]
  rw [if_pos trivial]

/-- What one scrub read of the frame in turn does, by what the read meets (R254 to R256). -/
theorem exec_scrubRead {s : State} {n : Nat} (hn : n < nFrames s) (hl : Live s) (e : EccRead) (d : Bool) :
    exec (.scrubRead n e d) s = .next (if !scrubNext s n then s
      else if !holds s.gov (384 + stackOf s n) .hbmTrain then askPermit s (384 + stackOf s n) .hbmTrain
      else
        let t := { s with gov := govDrop s.gov (384 + stackOf s n) .hbmTrain
                          tele := { s.tele with scrubFront := s.tele.scrubFront.filter (· != n) } }
        scrubNote (scrubFrame t n e d) n) :=
  (onFrame_next _ hn).trans (congrArg _ (guarded_live _ hl))

/-- Settles O58: seals by their lanes, streamed layers by their reads, and scrub reads by what they meet. -/
theorem framesAreSealedStreamedAndScrubbed : Obligations.FramesAreSealedStreamedAndScrubbed := by
  unfold Obligations.FramesAreSealedStreamedAndScrubbed
  refine ⟨fun s n p f hn hl hf hp hs hh => ?_, fun s n lanes f hn hf h => ?_, fun s p slot m data hp hpk hlink h3 h1 hm hst hr hfail => ?_,
    fun s p slot m hp hl hm => ?_, fun s n hn hl => ?_⟩
  · have hx : ∀ b, exec (.sinterFrameSealed n b) s = .next (frameSealed s n b) := fun b =>
      (onFrame_next _ hn).trans (congrArg _ (guarded_live _ hl))
    obtain ⟨h1, h2, h3⟩ := frameSealed_spec hf hp hs hh
    exact ⟨fun h => (hx false).trans (congrArg _ (h1 h)), fun hw hi => (hx true).trans (congrArg _ (h2 hw hi)),
        fun hi => (hx true).trans (congrArg _ (h3 hi))⟩
  · refine (onFrame_next _ hn).trans (congrArg _ ?_)
    rw [frameSealed_waits lanes hf h, guarded, ite_self]
  · intro half fs runs left u
    have hl : Live s := by rw [Live, hpk]; decide
    have hrow : exec (.streamLayerSealed p slot data) s = .next (if !runsHeld s runs then
        runs.foldl askSinter s else streamRead s p slot m half data) := by
      refine (partRow_next _ hp hl).trans ?_
      rw [hm]
      exact congrArg _ (if_neg (by simp [hst, hr, hfail, hpk, hlink, h3, h1]))
    refine ⟨fun h => hrow.trans (congrArg _ (if_pos (by simp [h]))), fun h hleft hd => ?_, fun h hgood => ?_⟩
    · subst hd
      exact hrow.trans (congrArg _ ((if_neg (by simp [h])).trans (streamRead_none half hleft)))
    · exact hrow.trans (congrArg _ ((if_neg (by simp [h])).trans (streamRead_all hgood)))
  · have hrow : exec (.streamStalled p slot) s = .next (if m.stalled || !streamFailed m then s
        else match (partOf s p).attempt with
          | some a => if (invsOf a.plan.rows).contains slot then killStart (updModel s p slot fun y => { y with stalled := true }) p 4 .fresh true
            else updModel s p slot fun y => { y with stalled := true }
          | none => updModel s p slot fun y => { y with stalled := true }) := by
      refine (partRow_next _ hp hl).trans ?_
      simp only [hm, updModel_attempt] <;> rfl
    rw [hrow]
    refine ⟨fun h => congrArg _ (if_pos (by obtain h | h := h <;> simp [h])), fun h1 h2 => ?_⟩
    rw [if_neg (by simp [h1, h2])]
    intro t
    refine ⟨fun ha => ?_, fun a ha hi => ?_⟩
    · rw [ha]
    · rw [ha]
      exact congrArg _ (if_pos (by simpa using hi))
  · intro h r f p
    refine ⟨fun hnext e d => ?_, fun hnext hh e d => ?_, fun hnext hh => ?_⟩
    · rw [exec_scrubRead hn hl, if_pos (by simp [hnext])]
    · rw [exec_scrubRead hn hl, if_neg (by simp [hnext]), if_pos (by simpa using hh)]
    · have hx : ∀ e d, exec (.scrubRead n e d) s = .next (scrubNote (scrubFrame r n e d) n) := fun e d => by
        rw [exec_scrubRead hn hl, if_neg (by simp [hnext]), if_neg (by simpa using hh)]
      simp only [hx, scrubFrame]
      refine ⟨fun w d hf => ?_, fun w d hf => ?_, ?_, fun hs => ?_, fun k => ?_⟩
      · rw [if_pos (by simpa using hf)]
      · rw [if_neg (by simpa using hf)]
      · rw [if_neg (by simp)]
      · rw [if_pos (by simpa using hs)]
      · rw [if_neg (by simp)]

end Sys2Proof.Machine
end

section
/-! SUPPORT. What stores and clusters hold after an update (R208, R270). -/

namespace Sys2Proof.Machine

/-! ### What a Cluster Store reads after a write (R208, R270) -/

/-- A byte of a store in canonical form after a byte is written. -/
theorem csGet_csSet {m : List Host.Cell} {lo : Nat} (a b : Nat) (v : Byte) (hm : cellsFrom lo m = true) :
    csGet (csSet m a v) b = if b = a then v else csGet m b := by
  induction m generalizing lo with
  | nil =>
    unfold csSet
    split
    · next hv => simp [csGet, hv]
    · by_cases hb : b = a
      · simp [csGet, hb]
      · simp [csGet, hb, Ne.symm hb]
  | cons e r ih =>
    obtain ⟨d, w⟩ := e
    simp only [cellsFrom, Bool.and_eq_true, decide_eq_true_eq] at hm
    obtain ⟨⟨_, _⟩, hr⟩ := hm
    unfold csSet
    split
    · next had =>
      have hlow : b ≤ a → csGet ((d, w) :: r) b = 0 := fun hb => by
        rw [csGet, if_neg (by omega), if_pos (by omega)]
      split
      · next hv =>
        split
        · next hb => rw [hlow hb.le, hv]
        · rfl
      · rw [csGet]
        split
        · next hb => rw [if_pos hb.symm]
        · next hb =>
          rw [if_neg (Ne.symm hb)]
          split
          · next hlt => exact (hlow hlt.le).symm
          · rfl
    · split
      · next hge had =>
        subst had
        have hlow : b ≤ a → csGet r b = 0 := fun hb => csGet_of_lt (by omega) hr
        split
        · next hv =>
          split
          · next hb => rw [hlow hb.le, hv]
          · next hb =>
            rw [csGet, if_neg (Ne.symm hb)]
            split
            · next hlt => exact hlow hlt.le
            · rfl
        · simp only [csGet]
          split
          · next hb => rw [if_pos hb.symm]
          · next hb => rw [if_neg (Ne.symm hb)]
      · next h1 h2 =>
        simp only [csGet, ih hr]
        split
        · next hb => rw [if_neg (by omega)]
        · split
          · next hlt => rw [if_neg (by omega)]
          · rfl

/-- A byte of a store after a byte string is written. -/
theorem csGet_csWrite {m : List Host.Cell} (a b : Nat) (bs : Bytes) (hm : cellsOk m = true) (h : a + bs.length ≤ 4194304) :
    csGet (csWrite m a bs) b = if a ≤ b ∧ b < a + bs.length then bs.getD (b - a) 0 else csGet m b := by
  induction bs generalizing m a with
  | nil =>
    rw [if_neg (by simp only [List.length_nil]; omega)]
    rfl
  | cons v bs ih =>
    simp only [List.length_cons] at h ⊢
    rw [csWrite, if_pos (by omega), ih (a + 1) (csSet_cellsOk a v hm) (by omega), csGet_csSet a b v hm]
    by_cases hb : b = a
    · subst hb
      rw [if_neg (by omega), if_pos rfl, if_pos (by omega), Nat.sub_self, List.getD_cons_zero]
    · rw [if_neg hb]
      by_cases hab : a < b
      · refine if_congr (by omega) ?_ rfl
        rw [show b - a = (b - (a + 1)) + 1 by omega, List.getD_cons_succ]
      · rw [if_neg (by omega), if_neg (by omega)]

theorem csRead_csWrite {m : List Host.Cell} (a : Nat) (bs : Bytes) (hm : cellsOk m = true) (h : a + bs.length ≤ 4194304) :
    csRead (csWrite m a bs) a bs.length = bs := by
  refine List.ext_getElem (by simp [csRead]) fun i h1 h2 => ?_
  simp only [csRead, List.getElem_map, List.getElem_range]
  rw [csGet_csWrite a (a + i) bs hm h, if_pos ⟨by omega, by omega⟩, Nat.add_sub_cancel_left, List.getD_eq_getElem _ _ h2]

/-! ### Which cluster an update reaches -/

theorem clusterOf_no (s : State) (c : Nat) : (clusterOf s c).no = c := by
  unfold clusterOf
  cases e : s.clusters.find? fun x => x.no == c with
  | none => rfl
  | some y => simpa using List.find?_some e

theorem find_insertBy {y : Cluster} {l : List Cluster} (hl : ∀ z ∈ l, z.no ≠ y.no) (c : Nat) :
    (insertBy (·.no) y l).find? (fun x => x.no == c) = if y.no = c then some y else l.find? fun x => x.no == c := by
  induction l with
  | nil => by_cases h : y.no = c <;> simp [insertBy, h]
  | cons z l ih =>
    unfold insertBy
    split
    · by_cases h : y.no = c <;> simp [h]
    · rw [List.find?_cons, List.find?_cons, ih fun x hx => hl x (List.mem_cons_of_mem _ hx)]
      by_cases h : z.no = c
      · have : y.no ≠ c := fun hy => hl z List.mem_cons_self (h.trans hy.symm)
        simp [h, this]
      · have hb : (z.no == c) = false := by simpa using h
        simp only [hb]

theorem clusterOf_putCluster (s : State) (y : Cluster) (c : Nat) : clusterOf
    (putCluster s y) c = if y.no = c then y else clusterOf s c := by
  unfold clusterOf putCluster
  dsimp only
  rw [find_insertBy fun z hz => by simpa using (List.mem_filter.1 hz).2]
  split
  · rfl
  · next h =>
    congr 1
    rw [List.find?_filter]
    refine List.find?_congr fun z _ => ?_
    have h' : ¬ c = y.no := fun e => h e.symm
    by_cases hz : z.no = c
    · simp [hz, h']
    · simp [hz]

theorem updCluster_cs {s : State} {c : Nat} {f : Cluster → Cluster} (d : Nat) (hn : ∀ x, (f x).no = x.no)
    (hf : ∀ x, (f x).cs = x.cs) :
    (clusterOf (updCluster s c f) d).cs = (clusterOf s d).cs := by
  rw [updCluster, clusterOf_putCluster, hn, clusterOf_no]
  split
  · next h => rw [hf, h]
  · rfl

theorem takeTag_no (cl : Cluster) (k : QCmd) : (takeTag cl k).no = cl.no := by
  unfold takeTag
  split <;> rfl

theorem raiseTag_no (cl : Cluster) (t n : Nat) : (raiseTag cl t n).no = cl.no := by
  unfold raiseTag
  split <;> rfl

theorem refill_no (n : Nat) (cl : Cluster) : (refill n cl).no = cl.no := by
  induction n generalizing cl with
  | zero => rfl
  | succ n ih =>
    unfold refill
    split
    · rfl
    · split
      · exact ih _
      · rfl

theorem retireHead_no (now q : Nat) (cl : Cluster) (k : QCmd) : (retireHead now q cl k).no = cl.no := by
  rw [retireHead, refill_no, raiseTag_no]
  exact takeTag_no _ _

/-- A command that retires leaves its own cluster's store as the cluster given, and every other's as it was (R208). -/
theorem completeOut_cs (s : State) (c d : Nat) (x : Cx) (k : QCmd) (cl : Cluster) (out : Bytes) (ins : List (Nat × Nat))
    (hc : cl.no = c) :
    (clusterOf (completeOut s c x k cl out ins) d).cs = if d = c then cl.cs else (clusterOf s d).cs := by
  have hl : ∀ t : State, clusterOf (layerEnd t c x k) d = clusterOf t d := fun t => by rw [clusterOf, layerEnd_clusters, clusterOf]
  have ht : ∀ t : State, (clusterOf (twinPut t x k out ins) d).cs = (clusterOf t d).cs := fun t => by
    unfold twinPut
    dsimp only
    split
    · refine (updCluster_cs (s := updAtt t x.p _) (f := fun cl => { cl with twinQ := cl.twinQ ++ [(x.slot, x.rank, k.idx)] }) d ?_ ?_).trans rfl
      · exact fun _ => rfl
      · exact fun _ => rfl
    · rfl
  simp only [completeOut, hl, ht, clusterOf_putCluster, retireHead_no]
  have hno : (if cl.twinQ.isEmpty then cl else { cl with twinTurns := modAt cl.twinTurns (queueOf k.cmd.op) (· + 1) }).no = c := by
    split <;> exact hc
  rw [hno]
  by_cases hd : d = c
  · rw [if_pos hd, if_pos hd.symm, retireHead_cs]
    split <;> rfl
  · rw [if_neg hd, if_neg (Ne.symm hd)]

end Sys2Proof.Machine
end

section
/-! SUPPORT. Commands that move data (R217 to R225, R262, R263, R293, R319). -/

namespace Sys2Proof.Machine

/-! ### Commands that move data (R217 to R225, R262, R263, R293, R319) -/

theorem cxOf_spec {s : State} {c : Nat} {x : Cx} (h : cxOf s c = some x) :
    x.cl = clusterOf s c ∧ (partOf s x.p).attempt = some x.att := by
  unfold cxOf at h
  dsimp only at h
  split at h
  · cases h
  · split at h
    · next a slot ha hi =>
      split at h
      · split at h
        · cases h
        · split at h
          · cases h
          · cases h
            exact ⟨rfl, ha⟩
      · cases h
    · cases h

section
variable {s : State} {c : Nat} {x : Cx} {k : QCmd}

theorem Issues.cx {op : Nat} (h : Issues s c op x k) : cxOf s c = some x := by
  obtain ⟨_, _, hcx, _⟩ := h
  exact hcx

theorem Issues.head {op : Nat} (h : Issues s c op x k) : (x.cl.queues.getD (queueOf op) []).head? = some k := by
  obtain ⟨_, _, _, _, _, hq, _⟩ := h
  exact hq

/-- A granule beyond the tensor is doubt; a LOAD waits for its layer, the regulator and the turn, then for its permit (R262, R263, R285, R287). -/
theorem exec_load {t : Tensor} {ecc : Ecc} (h : Issues s c 4 x k)
    (ht : (x.model.tensors.find? fun t => t.id == k.cmd.aux) = some t) :
    exec (.load ⟨c, ecc⟩) s = .next (
      let g := stackOf s (tensorFrame s x.p x.slot t k.cmd.a)
      let u := noteEcc (charge { s with gov := govDrop s.gov (384 + g) .hbmTrain, served := { s.served with hbm := some x.p } }
        x.p 0 (512 * k.cmd.len)) x.p ecc
      if 128 * t.frames < k.cmd.a + k.cmd.len then doubt s 0x08 x.p c 0
      else if weightStall x.model t || !mayStart x.part 0 || !hbmTurn s x.p then s
      else if !holds s.gov (384 + g) .hbmTrain then askPermit s (384 + g) .hbmTrain
      else withStore s c x [] [(512 * k.cmd.d, 512 * k.cmd.len)] (releaseHalf (complete u c x k (csPut x.cl k.cmd.d
        (slice x.model.image (65536 * t.frame + 512 * k.cmd.a) (512 * k.cmd.len)))) x t)) := by
  refine (clusterRow_issues _ h).trans ?_
  rw [ht]

/-- What the first round of a SEND's loop does (R217, R219, R320). -/
theorem sendLoop_spec {r : Route} (n : Nat) (hcx : cxOf s c = some x) (hq : (x.cl.queues.getD 3 []).head? = some k)
    (hr : routeReg x k = some r) :
    let blocked := putCluster s (issueOnly 3 x.cl k fun j => j)
    (k.cmd.len ≤ k.sent → sendLoop c (n + 1) s = complete (sendDone s x k r).1 c x k (sendDone s x k r).2) ∧
    (k.sent < k.cmd.len →
      (sendWaits s x k r = true → sendLoop c (n + 1) s = blocked) ∧
      (sendWaits s x k r = false → ∀ t, sendBreaks s x k r k.sent = some t → sendLoop c (n + 1) s = xpKill s x t) ∧
      (sendWaits s x k r = false → sendBreaks s x k r k.sent = none →
        placeFree s x k r = false ∨ x.att.escape = true ∧ lowerConsumed s x k r = false → sendLoop c (n + 1) s = blocked)) := by
  intro blocked
  refine ⟨fun h => ?_, fun h => ⟨fun hw => ?_, fun hw t ht => ?_, fun hw hb hp => ?_⟩⟩
  · rw [sendLoop, hcx]
    simp only [hq, hr, if_pos h]
  · rw [sendLoop, hcx]
    simp only [hq, hr, if_neg (not_le.2 h), hw, if_true]
    rfl
  · rw [sendLoop, hcx]
    simp only [hq, hr, if_neg (not_le.2 h), hw, ht, Bool.false_eq_true, if_false]
  · have hstop : (!placeFree s x k r || (x.att.escape && !lowerConsumed s x k r)) = true := by
      obtain hp | ⟨h1, h2⟩ := hp
      · simp [hp]
      · simp [h1, h2]
    rw [sendLoop, hcx]
    simp only [hq, hr, if_neg (not_le.2 h), hw, hb, hstop, Bool.false_eq_true, if_false, if_true]
    rfl

end

/-- A delivered message lands where the first binding says; the last one closes it (R220). -/
theorem deliverHead_spec {s : State} {c ch : Nat} {x : Cx} {g : ChanMsg} {gs : List ChanMsg} {b : Binding} {bs : List Binding}
    (hcx : cxOf s c = some x) (hm : (chanOf x.cl ch).msgs = g :: gs) (hb : (chanOf x.cl ch).binds = b :: bs) :
    let n := bindCount x.model g
    let dst := [(512 * b.d + 64 * b.done, g.body.length)]
    let more := fun (left : List Binding) => deliverInto (updChan x.cl ch fun _ => { msgs := gs, binds := left }) b g
    (b.port = 5 → ¬ InStore dst → deliverHead s c ch = doubt s 0x08 x.p c 0) ∧
    (b.port ≠ 5 ∨ InStore dst ∧ NotAwaited x dst →
      (b.left ≤ n → deliverHead s c ch = returnPlaces (putCluster s { raiseTag (more bs) b.signal 1 with lastRetire := s.boot.dtc }) x g) ∧
      (n < b.left → deliverHead s c ch = returnPlaces (putCluster s
        (more ({ b with left := b.left - n, done := b.done + n } :: bs))) x g)) := by
  intro n dst more
  have hrun : ∀ t : State, b.port ≠ 5 ∨ InStore dst ∧ NotAwaited x dst → (if b.port = 5 then withStore s c x [] dst t else t) = t := fun t h => by
    split
    · next h5 =>
      obtain h | ⟨h1, h2⟩ := h
      · exact absurd h5 h
      · exact withStore_in t (by simpa using h1) h2
    · rfl
  simp only [deliverHead, hcx, hm, hb]
  refine ⟨fun h5 hs => ?_, fun hs => ⟨fun hle => ?_, fun hlt => ?_⟩⟩
  · rw [if_pos h5]
    exact withStore_out _ (by simpa using hs)
  · rw [hrun _ hs]
    simp only [show b.left ≤ bindCount x.model g from hle, decide_true, if_true]
    rfl
  · rw [hrun _ hs]
    simp only [not_le.2 (show bindCount x.model g < b.left from hlt), decide_false, Bool.false_eq_true, if_false]
    rfl

theorem deliverHead_idle {s : State} {c ch : Nat}
    (h : ∀ x, cxOf s c = some x → (chanOf x.cl ch).msgs = [] ∨ (chanOf x.cl ch).binds = []) :
    deliverHead s c ch = s := by
  unfold deliverHead
  split
  · rfl
  · next x hx =>
    dsimp only
    split
    · next hm hb => obtain h | h := h x hx <;> simp_all
    · rfl

/-- A probe taken is dropped past the limit or where nothing blocks, ends at its origin, and is passed on by a channel that waits (R222, R223). -/
theorem exec_probe {s u : State} {c ch o oc n : Nat} {x : Cx} (hc : c < 192) (hl : Live s) (hcx : cxOf s c = some x)
    (hu : takeProbe s x.p { rank := x.rank, ch := ch, origin := o, originCh := oc, hops := n } = some u) :
    exec (.probe c ch o oc n) s = .next (if decide (16 * x.lay.clusters * x.part.items.groupSize < n) then u
      else match blockedSend u x with
        | none => u
        | some (k, y, r) =>
          if o == originName u x c then (if y == oc && k.probed then deadlock u x c else u)
          else if (chanOf x.cl ch).msgs.isEmpty || !(chanOf x.cl ch).binds.isEmpty then u
          else sendProbe u x r o oc (n + 1)) := by
  refine (clusterRow_next _ hc hl).trans ?_
  simp only [hcx, hu] <;> rfl

/-- Settles O56: what each command that moves data does, by what it waits for and where its ranges lie. -/
theorem moveCommandsMoveData : Obligations.MoveCommandsMoveData := by
  unfold Obligations.MoveCommandsMoveData
  refine ⟨fun m a b bs hm hl => ⟨csRead_csWrite a bs hm hl, fun hb => ?_⟩, fun s c d x k cl out ins hc => ⟨?_, fun hd => ?_⟩, fun s c x k ecc h => ?_,
    fun s c x k r h hr => ?_, fun s c x k h => ?_, fun s c x k h => clusterRow_issues _ h, fun s c ch x g gs b bs hc hl hcx hm hb => ?_,
    fun s c ch hc h => ?_, fun s c x k h => ?_, fun s c x k h => ?_, fun s c first x k h => ?_, fun s c x k h => ?_, fun s c ch x hc hl hcx => ?_⟩
  · rw [csGet_csWrite a b bs hm hl, if_neg (by omega)]
  · rw [completeOut_cs s c c x k cl out ins hc, if_pos rfl]
  · rw [completeOut_cs s c d x k cl out ins hc, if_neg hd]
  · intro dst
    refine ⟨fun hn => ?_, fun t ht => ?_⟩
    · refine (clusterRow_issues _ h).trans ?_
      rw [hn]
    · intro g
      have hx := exec_load (ecc := ecc) h ht
      refine ⟨fun hlt => hx.trans (congrArg _ (if_pos hlt)), fun hle => ?_⟩
      rw [hx]
      dsimp only
      rw [if_neg (not_lt.2 hle)]
      refine ⟨fun hw => congrArg _ (if_pos (by obtain hw | hw | hw := hw <;> simp [hw])), fun h1 h2 h3 => ?_⟩
      rw [if_neg (by simp [h1, h2, h3])]
      refine ⟨fun hh => congrArg _ (if_pos (by simpa using hh)), fun hh hd => ?_, fun hh hd hn => ?_⟩
      · rw [if_neg (by simpa using hh)]
        exact congrArg _ (withStore_out _ (by simpa using hd))
      · rw [if_neg (by simpa using hh)]
        exact congrArg _ (withStore_in _ (by simpa using hd) hn)
  · intro src blocked
    have hx : exec (.send c) s = .next (if r.port = 4 then
        sendLoop c (k.cmd.len + 1) s else withStore s c x src [] (sendLoop c (k.cmd.len + 1) s)) := by
      refine (clusterRow_issues _ h).trans ?_
      rw [hr]
    refine ⟨fun h4 hs => hx.trans (congrArg _ ((if_neg h4).trans (withStore_out _ (by simpa using hs)))), fun hs => ?_⟩
    have hrun : exec (.send c) s = .next (sendLoop c (k.cmd.len + 1) s) := by
      refine hx.trans (congrArg _ ?_)
      split
      · rfl
      · next h4 => exact withStore_in _ (by simpa using hs.resolve_left h4) (by simp [NotAwaited])
    obtain ⟨h1, h2⟩ := sendLoop_spec k.cmd.len h.cx h.head hr
    rw [hrun]
    refine ⟨fun hle => congrArg _ (h1 hle), fun hlt => ⟨rfl, ?_⟩⟩
    obtain ⟨h3, h4, h5⟩ := h2 hlt
    exact ⟨fun hw => congrArg _ (h3 hw), fun hw t ht => congrArg _ (h4 hw t ht), fun hw hb hp => congrArg _ (h5 hw hb hp)⟩
  · intro quiet b
    exact ⟨fun h0 => (clusterRow_issues _ h).trans (congrArg (fun cl => Host.Outcome.next (complete s c x quiet cl)) (if_pos h0)),
      fun h0 => (clusterRow_issues _ h).trans (congrArg (fun cl => Host.Outcome.next (complete s c x quiet cl)) (if_neg h0))⟩
  · intro n dst more
    have hx : exec (.channelDelivery c ch) s = .next (deliverHead s c ch) := clusterRow_next _ hc hl
    obtain ⟨h1, h2⟩ := deliverHead_spec hcx hm hb
    rw [hx]
    refine ⟨fun h5 hs => congrArg _ (h1 h5 hs), fun hs => ?_⟩
    obtain ⟨h3, h4⟩ := h2 hs
    exact ⟨fun hle => congrArg _ (h3 hle), fun hlt => congrArg _ (h4 hlt)⟩
  · refine (inRange_next _ hc).trans (congrArg _ ?_)
    rw [deliverHead_idle h, guarded, ite_self]
  · have hx : exec (.cheapPoint c) s = .next (if x.att.phase == .shelving && x.att.cheap == some k.cmd.aux then
        if !allBefore x.cl k.idx then s
        else
          let t := putCluster s { x.cl with atCheap := some k.cmd.aux, lastRetire := s.boot.dtc }
          match (partOf t x.p).attempt with
          | some a => if atPoint t a && !cleanPoint t x.p a then downgrade t x.p else t
          | none => t
      else complete s c x k x.cl) := clusterRow_issues _ h
    refine ⟨fun hn => hx.trans (congrArg _ (if_neg ?_)), fun hp hc => ?_⟩
    · simpa [imp_iff_not_or] using hn
    · intro t
      rw [hx, if_pos (by simp [hp, hc])]
      refine ⟨fun hb => congrArg _ (if_pos (by simp [hb])), fun hb => ?_⟩
      rw [if_neg (by simp [hb])]
      have ha : (partOf t x.p).attempt = some x.att := (cxOf_spec h.cx).2
      show Host.Outcome.next (match (partOf t x.p).attempt with
        | some a => if atPoint t a && !cleanPoint t x.p a then downgrade t x.p else t
        | none => t) = _
      rw [ha]
      exact congrArg _ (if_congr (by simp) rfl rfl)
  · have hx : exec (.kvStage c) s = .next (if kvWaits x k then s else if x.model.prog.kind = 2 then stageVec s c x k else stageKv s c x k) :=
      clusterRow_issues _ h
    exact ⟨fun hw => hx.trans (congrArg _ (if_pos hw)), fun hw hk => hx.trans (congrArg _ ((if_neg (by simp [hw])).trans (if_pos hk))),
      fun hw hk => hx.trans (congrArg _ ((if_neg (by simp [hw])).trans (if_neg hk)))⟩
  · intro v bs new
    have hx : exec (.sample c first) s = .next (withAmvu s c (withStore s c x [(512 * k.cmd.a, 512 * k.cmd.len)] [] (complete (updAtt s x.p fun a =>
        { a with sampled := (a.sampled.filter fun z => !new.any fun y => y.h == z.h) ++ new }) c x k x.cl))) := clusterRow_issues _ h
    exact ⟨fun hh => hx.trans (congrArg _ ((withAmvu_spec _).1 hh)),
      fun hh hs => hx.trans (congrArg _ (((withAmvu_spec _).2 hh).trans (withStore_out _ (by simpa using hs)))),
      fun hh hs => hx.trans (congrArg _ (((withAmvu_spec _).2 hh).trans (withStore_in _ (by simpa using hs) (by simp [NotAwaited]))))⟩
  · intro t
    have hx : exec (.stepEnd c) s = .next (if !allBefore x.cl k.idx then s
        else if !x.att.clusters.all fun d => (clusterOf t d).finished then t
        else match x.cl.invs.drop 1 with
          | [] => memberReady t x.p
          | left => startInvocation t x.p left) := clusterRow_issues _ h
    refine ⟨fun hb => hx.trans (congrArg _ (if_pos (by simp [hb]))), fun hb => ?_⟩
    rw [hx, if_neg (by simp [hb])]
    exact ⟨fun ⟨d, hd, hf⟩ => congrArg _ (if_pos (by simpa using ⟨d, hd, hf⟩)), fun hall => congrArg _ (if_neg (by simpa using hall))⟩
  · refine ⟨fun hb => ?_, fun k r hb => ?_, fun o oc n => ?_, fun hf ha he => ?_, fun h => ?_⟩
    · refine (clusterRow_next _ hc hl).trans ?_
      simp only [hcx, hb]
    · refine (clusterRow_next _ hc hl).trans ?_
      simp only [hcx, hb, bne_self_eq_false, Bool.false_eq_true, if_false]
    · intro b limit
      refine ⟨fun ht => ?_, fun u hu => ?_⟩
      · refine (clusterRow_next _ hc hl).trans ?_
        simp only [hcx, show takeProbe s x.p { rank := x.rank, ch := ch, origin := o, originCh := oc, hops := n } = none from ht]
      · have hx := exec_probe hc hl hcx hu
        refine ⟨fun h => ?_, fun k y r hn hb => ?_⟩
        · rw [hx]
          obtain h | h := h
          · exact congrArg _ (if_pos (by simpa using h))
          · rw [h, ite_self]
        · rw [hx, if_neg (by simpa using hn), hb]
          refine ⟨fun ho hy hp => ?_, fun ho hy => ?_, fun ho hm hbs => ?_⟩
          · simp only [ho, hy, hp, beq_self_eq_true, Bool.and_self, if_true]
            exact ⟨fun h => congrArg _ (if_pos h), fun h => congrArg _ (if_neg (by simp [h]))⟩
          · simp only [ho, beq_self_eq_true, if_true]
            exact congrArg _ (if_neg (by simpa [imp_iff_not_or] using hy))
          · exact congrArg _ ((if_neg (by simpa using ho)).trans (if_neg (by simp [hm, hbs])))
    all_goals
      have hx : exec (.noRetire c) s = .next (if x.cl.finished || x.cl.atCheap.isSome || excused s c x ||
          decide (s.boot.dtc < x.cl.lastRetire + 10000000) then s else doubt s 0x0B x.p c 0) := by
        refine (clusterRow_next _ hc hl).trans ?_
        simp only [hcx]
    · exact ⟨fun h => hx.trans (congrArg _ (if_neg (by simp [hf, ha, he, h]))), fun h => hx.trans (congrArg _ (if_pos (by simp [h])))⟩
    · exact hx.trans (congrArg _ (if_pos (by obtain h | h := h <;> simp [h])))

end Sys2Proof.Machine
end
